-- ==== Sys2Proof/Word.lean ====
section
/-! DEFINITION. The word types of the NH384 (R4: bit 0 of any field is its least significant bit). -/

namespace Sys2Proof

/-- One byte of a packet, an image or a frame. -/
abbrev Byte := BitVec 8

/-- One 32-bit word: a parameter word, a reply word, a register-window word, a sample word (R7). -/
abbrev Word := BitVec 32

/-- A 64-bit word: LC, TK, a plan entry. -/
abbrev Word64 := BitVec 64

end Sys2Proof
end

