-- ==== Sys2Proof/Syntax.lean ====
section
/-! DEFINITION. The commands of the NH384 block, one constructor for each row of spec/opcode_table.json, and
the operands they carry. The table gives the rows no fields, so every operand here is what the spec's rule
for the row says is given from outside: a packet, a frame, a pin level, a time stamp taken at a ball, the
outcome of an analogue measurement (log entry 3). -/

namespace Sys2Proof

/-- CH_000 to CH_383 (R3). -/
abbrev Chan := Fin 384
/-- SETT_00 to SETT_47 (R3). -/
abbrev SettId := Fin 48
/-- DEN_0 to DEN_3 (R3). -/
abbrev DenId := Fin 4
/-- P_00 to P_31 (R375). -/
abbrev Port := Fin 32

/-- The steerable and fixed PLLs whose loss R20 and R83 treat alike; the core PLL has a row of its own. -/
inductive Pll where
  | time | sampling | memory
  deriving DecidableEq, Repr

/-- What failed when a start-up step exceeds its limit (the codes of R93). -/
inductive StepFault where
  | domains | timePll | samplingPll | corePll | memoryPll | sram | dram | owl | interpolator | flash | takeover
  deriving DecidableEq, Repr

/-- Where a request came from: the origins of R455. -/
inductive Origin where
  | controlPort
  | hub (src : BitVec 10)
  | uplink (port : Fin 8) (ip : Word) (udp : BitVec 16)
  deriving DecidableEq, Repr

/-- A request that has passed the framing checks (steps 1 to 3 of R450): the fields of R443. `ep` is the
endpoint of the CMD frame that carried it, when EP_VALID was set (R446). -/
structure Packet where
  origin  : Origin
  ep      : Option (BitVec 4)
  flags   : Byte
  session : Byte
  reqId   : Word
  hubId   : BitVec 10
  resv    : BitVec 6
  word3   : Word
  params  : List Word
  mac     : List Byte
  crc     : Word
  deriving DecidableEq, Repr

/-- An SWL frame as it stands on the line (R405): the four header words, the payload and the CRC-32C. -/
structure Frame where
  w0 : Word
  w1 : Word
  w2 : Word
  w3 : Word
  payload : List Word
  crc : Word
  deriving DecidableEq, Repr

/-- One sample of a channel's modulator as the analogue front end gives it: the differential input voltage, noise included, and
the sensed excitation voltage of its sett, both in units of 2.5 V / 2^46 (R106, R120; log entry 212). -/
structure ModSample where
  volts : Int
  sense : Int
  deriving DecidableEq, Repr

/-- What a burst or an injection slot takes from one channel's modulator: its samples, and whether it reported an over-range on any of
them (R108, R136). -/
structure BurstInput where
  samples : List ModSample
  beyond  : Bool
  deriving DecidableEq, Repr

/-- The receiver coefficients of R385. -/
structure RxCoef where
  ctle : BitVec 4
  tap1 : BitVec 7
  tap2 : BitVec 6
  tap3 : BitVec 6
  tap4 : BitVec 6
  tap5 : BitVec 6
  deriving DecidableEq, Repr

/-- The points of an eye scan that were open (R397): 65 horizontal and 127 voltage offsets. -/
structure EyeScan where
  horizontal : List Bool
  vertical   : List Bool
  deriving DecidableEq, Repr

/-- What a SYNC_FU frame carries (R232); times in units of 2^-16 ns. -/
structure SyncFu where
  t1      : Int
  tshift  : BitVec 80
  tq      : BitVec 4
  hops    : BitVec 4
  term    : Word
  stepSeq : BitVec 16
  hub     : BitVec 10
  deriving DecidableEq, Repr

/-- The data set of a PTP announce that the best master clock comparison reads (R245). -/
structure Announce where
  port       : Fin 8
  domain     : BitVec 7
  clockId    : Word64
  priority1  : Byte
  clockClass : Byte
  accuracy   : Byte
  variance   : BitVec 16
  priority2  : Byte
  stepsRemoved : BitVec 16
  utcOffset  : BitVec 16
  deriving DecidableEq, Repr

/-- A UDP datagram on an uplink (R421): the fields that the hub checks, and the octets it carries. -/
structure Datagram where
  srcIp     : Word
  srcUdp    : BitVec 16
  dstIp     : Word
  dstUdp    : BitVec 16
  fragment  : Bool
  options   : Bool
  tagged    : Bool
  pause     : Bool
  checksumOk : Bool
  frame     : Option Frame
  deriving DecidableEq, Repr

/-- An ARP packet (R421). -/
structure Arp where
  isRequest : Bool
  senderIp  : Word
  senderMac : BitVec 48
  targetIp  : Word
  deriving DecidableEq, Repr

/-- The JTAG instructions of the test access port (R61). `debugOp` is any instruction of the debug access
beyond boundary scan. -/
inductive JtagOp where
  | bypass | idcode | samplePreload | extest | intest | clamp | highz | debugOp
  deriving DecidableEq, Repr

/-- The split values of R465. -/
inductive SplitValue where
  | lc | tk | nt | counter
  deriving DecidableEq, Repr

/-- The sources of an accumulator or a min-max tracker (R315). -/
inductive AccKind where
  | channel | projection | raw
  deriving DecidableEq, Repr

/-- The commands of the NH384 block: the rows of spec/opcode_table.json in the table's order. -/
inductive Instr where
  -- supplies, resets and clocks (R30, R63 to R86)
  | vddAonGood
  | vddAonLoss
  | railGood (rail : Fin 13)
  | railFail (rail : Fin 13)
  | ioBankLevel3v3 (bank : Fin 4)
  | ioBankLevel1v8 (bank : Fin 4)
  | hotEnLow
  | hotEnQualified
  | resetNAssert
  | resetNRelease (holdAclk : Nat)
  | strapSample (pairRole : Bool) (bootSrc : BitVec 2) (factoryTest : Bool)
  | internalResetRelease (pairOwnHigh : Bool)
  | sysResetSourceActive
  | sysResetPulseEnd
  | coreClockLoss
  | clockResetPulseEnd
  | sysrefLost
  | pllLockLoss (pll : Pll)
  | lanePllLockLoss (group : Fin 2) (rate : Bool)
  | vcoreMiss (measured : Byte)
  | tempSample (tj : BitVec 16)
  -- the start-up timeline (R87)
  | domainsOn
  | pllLock
  | startupStepTimeout (what : StepFault)
  | sramSelfTestDone (firmwareMemory : Bool) (pass : Bool)
  | owlSelfTestDone (pass : Bool)
  | dramTrainingDone (pass : Bool)
  | denReferenceSettled (den : DenId)
  | denReferenceTimeout (den : DenId)
  | interpolatorCalDone (hits : List (List Nat))
  | bootFlashReadDone (image : List Byte)
  | bootFlashNoResponse
  | firmwareStart
  | bootConfigReadDone (copyA copyB : List Byte)
  | startupPlanActivate
  | frontEndEnable
  | warmUpComplete
  -- system commands (R462, R32, R78, R463, R100)
  | sysInfo (p : Packet)
  | sysModeSet (p : Packet)
  | sysReset (p : Packet)
  | sysEventsRead (p : Packet)
  | sysConfigRead (p : Packet)
  -- front end (R129 to R132)
  | afeConfig (p : Packet)
  | afeRange (p : Packet)
  | excConfig (p : Packet)
  | afeDiag (p : Packet)
  | afeDiagTestDone (ch : Chan) (rPair : Nat) (overloaded : Bool)
  -- conversion and calibration (R143 to R167)
  | convMode (p : Packet)
  | convInject (p : Packet)
  | calStart (p : Packet)
  | calPoint (p : Packet)
  | calPointDone (ch : Chan)
  | calCommit (p : Packet)
  | calRead (p : Packet)
  | rawTap (p : Packet)
  -- filters (R189 to R194)
  | fltPreset (p : Packet)
  | fltCoefLoad (p : Packet)
  | fltStart (p : Packet)
  | fltStop (p : Packet)
  | fltGrowth (p : Packet)
  | fltStartEffect (sett : SettId)
  | fltStopEffect (sett : SettId)
  -- the sample plan (R195 to R225)
  | planWrite (p : Packet)
  | planValidate (p : Packet)
  | planSwap (p : Packet)
  | planRead (p : Packet)
  | planStatus (p : Packet)
  | planSwapEdge
  | planFrameBoundary (frac : Byte)
  | excOn (idx : Fin 8192)
  | excOff (idx : Fin 8192)
  | burst (idx : Fin 8192)
  | burstComplete (sett : SettId) (inputs : Vector BurstInput 8)
  | latch (idx : Fin 8192)
  | range (idx : Fin 8192)
  | rangeBlankingEnd (ch : Chan)
  | injectSlot (idx : Fin 8192)
  | injectionResult (ch : Chan) (input : BurstInput)
  | calPendingFrameEnd (ch : Chan)
  | calStep (idx : Fin 8192)
  | refCompareDone (den : DenId) (ppm : Int)
  | pulseWin (idx : Fin 8192)
  | mark (idx : Fin 8192)
  | calAdjustInterval (ch : Chan)
  | calTimeout (ch : Chan)
  | firTickGroup (sett : SettId) (beyond : Byte)
  | bearRetimeRelease (sett : SettId)
  | modulatorInstability (ch : Chan)
  | modulatorRecoveryEnd (ch : Chan)
  | commonModeFaultOnset (ch : Chan) (detector : Fin 4)
  | commonModeFaultClear (ch : Chan) (detector : Fin 4)
  | ocTrip (sett : SettId)
  | regLost (sett : SettId)
  | regLostClear (sett : SettId)
  | contention (sett : SettId)
  | contentionClear (sett : SettId)
  | denExcCurrentFault (den : DenId)
  | filterEngineError (sett : SettId)
  | settRestart (sett : SettId)
  | rawAccWindowEnd (ch : Chan)
  -- timebase (R226 to R255)
  | tkAlignStop
  | tkAlignLoad
  | tkAlignResume
  | timeRead (p : Packet)
  | timeServoConfig (p : Packet)
  | timeRole (p : Packet)
  | timeStepPolicy (p : Packet)
  | delayTapSet (p : Packet)
  | delayTapAdjust (sett : SettId)
  | syncInterval (port : Port)
  | syncRx (port : Port) (t2 t3 : Nat)
  | syncFuRx (port : Port) (fu : SyncFu)
  | delayReqRx (port : Port) (t4 : Nat)
  | delayRespRx (port : Port) (t4 : Int)
  | parentLoss
  | parentReselect (port : Port)
  | leaderServoUpdate
  | holdoverExpiry
  | timeMapInterval
  | ppsEdge (stamp : Nat)
  | ptpAnnounceRx (a : Announce)
  | ptpSyncRx (port : Fin 8) (clockId : Word64) (seq : BitVec 16) (stamp : Nat)
  | ptpFollowUpRx (port : Fin 8) (clockId : Word64) (seq : BitVec 16) (origin : Int)
  | ptpDelayRespRx (port : Fin 8) (clockId : Word64) (seq : BitVec 16) (sent : Nat) (receive : Int)
  | sourceLost
  -- edge timing (R256 to R277)
  | tdcConfig (p : Packet)
  | tdcWindow (p : Packet)
  | tdcRead (p : Packet)
  | tdcCal (p : Packet)
  | tdcCalDone (input : Fin 16) (hits : List (List Nat))
  | edgeInput (input : Fin 16) (rising : Bool) (stamp : Nat)
  | elecChangeEnd (input : Fin 16)
  | muWindowClose (mu : Fin 8)
  | muHeldStopExpiry (mu : Fin 8)
  | tdcTrackUpdate (id : Fin 66) (hits : List Nat) (lastHit : Nat)
  | trackStarved (input : Fin 16)
  | edgeLossEntry (input : Fin 16)
  -- quadrature (R278 to R296)
  | quadConfig (p : Packet)
  | quadStatus (p : Packet)
  | quadWindowEnd (slot : Fin 24) (lc : Nat)
  | quadAdjustInterval (slot : Fin 24)
  -- reduction (R297 to R316)
  | prjDefine (p : Packet)
  | prjEnable (p : Packet)
  | prjEnableEffect
  | accConfig (p : Packet)
  | minmaxRead (p : Packet)
  | prjCompute (prj : Fin 64)
  | accWindowEnd (kind : AccKind) (idx : Chan)
  | feedReqRx (src : BitVec 10) (words : List Word)
  | feedRx (src : BitVec 10) (words : List Word)
  -- queues and the Hoard (R317 to R353)
  | subOpen (p : Packet)
  | subAck (p : Packet)
  | subClose (p : Packet)
  | markSet (p : Packet)
  | rewind (p : Packet)
  | hoardStatus (p : Packet)
  | queueConfig (p : Packet)
  | tailTimeout (stream : Fin 54)
  | subSend (sub : Fin 64) (stream : Fin 54) (readOk : Bool)
  | ackTimeoutResend (sub : Fin 64) (stream : Fin 54)
  | spillDrain (port : Port) (replay : Bool)
  | spillAgeExpiry (port : Port) (replay : Bool)
  -- the block coder (R354 to R374)
  | coderConfig (p : Packet)
  | coderStatus (p : Packet)
  | decodeTest (p : Packet)
  | coderResume (sett : SettId)
  -- serial lanes (R375 to R404)
  | laneConfig (p : Packet)
  | laneEq (p : Packet)
  | lanePrbs (p : Packet)
  | laneMargin (p : Packet)
  | laneMarginDone (port : Port) (scan : EyeScan)
  | laneSleep (p : Packet)
  | lanePllLock (group : Fin 2) (rate : Bool)
  | laneAcquireDone (port : Port) (coef : RxCoef)
  | blockLock (port : Port)
  | blockLockLoss (port : Port) (invalid : Nat)
  | lockingTimeout (port : Port)
  | hiBer (port : Port) (invalid : Nat)
  | hiBerClear (port : Port)
  | lossOfSignal (port : Port)
  | laneIntervalEnd (port : Port) (dataBlocks invalid : Nat) (coef : RxCoef)
  | txQuietEntry (port : Port)
  | rxQuietEntry (port : Port)
  | wakePatternEnd (port : Port)
  | wakeIdleEnd (port : Port)
  | wakeDetect (port : Port)
  | wakeTimeout (port : Port)
  | txTapStep (port : Port)
  | prbsCheckerLock (port : Port)
  | prbsCheckerLoss (port : Port) (bits errors : Nat)
  | errorInjection (port : Port)
  -- the fabric and the uplinks (R405 to R438)
  | fabJoin (p : Packet)
  | fabRoute (p : Packet)
  | fabStatus (p : Packet)
  | fabConfigPublish (p : Packet)
  | ethConfig (p : Packet)
  | frameForward (port : Port) (f : Frame)
  | linkCtlRx (port : Port) (block : BitVec 56)
  | ackWaitExpiry (port : Port) (cls : Fin 6)
  | frameAgeDiscard (port : Port) (cls : Fin 6)
  | portFrameStart (port : Port)
  | beaconTx
  | beaconRx (port : Port) (f : Frame)
  | memberTimeout (hub : BitVec 10)
  | electionTick
  | joinSettle
  | configImgRx (offset : Nat) (words : List Word) (applyTk : Word64)
  | fabConfigApply
  | replyRx (session : Byte) (reqId : Word) (bytes : List Byte)
  | forwardTimeout (session : Byte) (reqId : Word)
  | udpDatagramRx (port : Fin 8) (d : Datagram)
  | arpRx (port : Fin 8) (a : Arp)
  | arpRefresh
  | icmpEchoRx (port : Fin 8) (srcIp dstIp : Word) (ident seq : BitVec 16) (data : List Byte)
  -- safety functions (R470 to R506)
  | safeParamWrite (p : Packet)
  | safeCommission (p : Packet)
  | safeStatus (p : Packet)
  | safePulseConfig (p : Packet)
  | safeResetReq (p : Packet)
  | owlCycle (si : BitVec 4) (sofb : Byte) (selfTestOk : Bool)
  | monitorInvalidTrip (mon : Fin 16)
  | monitorPlausTrip (mon : Fin 16)
  | siFilterChange (si : Fin 4)
  | siDisc (pair : Fin 2)
  | soReadbackFailure (so : Fin 8)
  | offPulseDue (so : Fin 8)
  | offPulseStart (so : Fin 8)
  | offPulseEnd (so : Fin 8) (tFall tRise : Byte)
  | owlWatchdogExpiry
  | safetyDataTx (conn : Fin 8)
  | safetyDataExtraTx (conn : Fin 8)
  | safetyDataRx (w0 w1 w2 w3 : Word)
  | safetyConnLoss (conn : Fin 8)
  -- two-party protection, sessions and firmware (R507 to R525, R453, R454)
  | protPropose (p : Packet)
  | protConfirm (p : Packet)
  | protAbort (p : Packet)
  | keyInstall (p : Packet)
  | fwStage (p : Packet)
  | fwActivate (p : Packet)
  | firmwareSwitch
  | sessionOpen (p : Packet)
  | sessionClose (p : Packet)
  | sessionIdleTimeout (session : Fin 8)
  | proposalExpiry (proposal : Fin 8)
  | lockoutEnd (slot : Fin 8)
  | debugAccessEnd
  -- pairs (R526 to R553)
  | pairConfig (p : Packet)
  | pairStatus (p : Packet)
  | pairCheckpointNow (p : Packet)
  | pairYield (p : Packet)
  | yieldDrainEnd
  | yieldRelease
  | heartbeatTx
  | heartbeatRx (frame : Word)
  | heartbeatLoss
  | partnerOverdue
  | takeoverWake
  | takeoverClaim
  | takeoverTime
  | timeWaitExpiry
  | takeoverFront
  | takeoverDeferred
  | checkpointFullDue
  | checkpointDeltaDue
  | checkpointWriteDone (ok : Bool)
  | checkpointStale
  | standbySyncStart
  | standbySyncDone (ownerFwVersion : BitVec 24)
  | standbyTqGiveUp
  | coldNextEnd
  -- health and ageing (R554 to R571)
  | healthReport (p : Packet)
  | marginPlan (p : Packet)
  | chanRetire (p : Packet)
  | chanRestore (p : Packet)
  | chanRestoreEffect
  | countersRead (p : Packet)
  | countersClear (p : Packet)
  | marginSample (margin : Fin 24) (value : Int)
  | ageingEyeScan (port : Port) (scan : EyeScan)
  | marginDailyFold
  | baselineEnd
  -- the control port and the register window (R439 to R468)
  | pktWrite (bytes : List Byte)
  | rplRead (clocked : Nat)
  | badInstr (instr : Byte) (addr : BitVec 16)
  | regWrite (addr : BitVec 12) (words : List Word)
  | nqPop
  | nqFlush
  | longResetClear
  | tearClear
  | wrIgnoredClear
  | badInstrClear
  | eventSummaryClear (mask : Word)
  | cntSelWrite (value : Word)
  | splitLoRead (which : SplitValue)
  | splitMidRead (which : SplitValue)
  | splitLastRead (which : SplitValue)
  -- the rows at the table's end
  | controlProcessorWatchdogExpiry
  | pairOwnLow
  | rawResult (ch : Chan) (volts : List Int) (sense : List Int)
  | lcWrap
  | jtagInstruction (op : JtagOp) (pins : List Bool)
  deriving DecidableEq, Repr

end Sys2Proof
end

