-- ==== Sys2Proof/Config.lean ====
section
/-! DEFINITION. What an implementation fixes and the values the spec leaves open. Each is opaque: nothing in Lean can
evaluate it, so a claim that mentions one holds whatever it is (log entry 2). -/

namespace Sys2Proof.Config

/-- A fresh unconstrained word for each draw: a value the spec leaves open (log entry 2). -/
opaque freeWord : Nat → Word

/-- A fresh unconstrained count for each draw: an analogue measurement that no command's operand carries (log entry 2). -/
opaque measured : Nat → Nat

/-- The random generator: 128 bits for each draw (R94, R453). -/
opaque random : Nat → BitVec 128

/-- The coefficients of the preset ROM by preset, low power, pass and tap: the spec designs them (R172, R173) and does
not print them (log entry 10). -/
opaque romCoef : Nat → Bool → Bool → Nat → BitVec 24

/-- The half-band coefficients by stage and tap (R168), not printed by the spec (log entry 10). -/
opaque halfBand : Bool → Nat → BitVec 24

/-- The weights of the burst engine by length code and distance from the end, in units of their own: R136 makes them fixed and
symmetric and does not print them (log entry 212). -/
opaque burstWeight : Nat → Nat → Nat

/-- The low 8 bits of PHASE for corrected values x and y: R289 makes PHASE exact to 2^-24 turn only (log entry 11). -/
opaque phaseLow : Int → Int → Byte

/-- The vendor's verification key in the fuses, a point of P-256 (R521). -/
opaque vendorKey : Nat × Nat

/-- The code a step 0x2 that exceeds its limit leaves in FAIL_CODE: R87 gives that step a limit and no code
(log entry 12). -/
opaque domainsFailCode : Byte

/-- UNIT of the TRANSIENT event of an ECC burst, by queue, 76 and 77 for the plan banks: R554 raises the event, and the spec gives a
queue or a bank no LEVEL and INDEX (log entry 56). -/
opaque burstUnit : Nat → BitVec 11

/-- DIGEST of a hub with no fabric configuration image: R432 gives DIGEST over an image only (log entry 2). -/
opaque emptyDigest : Word64

end Sys2Proof.Config
end

