-- ==== Sys2Proof/Machine/StateHub.lean ====
section
/-! DEFINITION. The state of the supervisor, the start-up timeline and the timebase. Each field's docstring ends with
(rule, chapter file; reset value). "DC n" and "PRESUMED n" name the log entry of a value the spec does not give. -/

namespace Sys2Proof.Machine

/-- The mode codes of R29; `off` is not reportable. -/
inductive Mode where
  | off | hibernate | startup | service | safeCore | test
  deriving DecidableEq, Repr

/-- What the fuses hold: the factory trim and the identity of the die (R94, R462). None of it is ever written. -/
structure Factory where
  /-- Unique die identifier, 64 bits (R462, 16; DC 4: 0) -/
  dieId : Word64
  /-- Ordering code, false NH384-C, true NH384-I (R1, 00; DC 4: C) -/
  industrial : Bool
  /-- Calibrated analogue path delay of each sett in ps (R175, R248, 08; DC 4: 180,000) -/
  tAnPs : Vector Nat 48
  /-- Calibrated input delay of each edge input in ps (R260, 09; DC 4: 0) -/
  tInPs : Vector Int 16
  deriving DecidableEq, Repr

/-- The straps as latched at the fourth ACLK edge (R56, R57). -/
structure Straps where
  /-- PAIR_ROLE latched, 1 bit (R57, 02; 0: internal pull-down, R56) -/
  pairRole : Bool
  /-- BOOT_SRC latched, 2 bits (R57, 02; 0: internal pull-down, R56) -/
  bootSrc : BitVec 2
  /-- FACTORY_TEST found high, which keeps the hub in Hibernate, isolated (R58, 02; 0) -/
  factoryTest : Bool
  /-- the straps have been latched since the last release of RESET_N (R56, 02; 0) -/
  latched : Bool
  deriving DecidableEq, Repr

/-- The reset sources of R71, each active or not. -/
structure Sources where
  /-- power-on source active (R71, 03; 0) -/
  power : Bool
  /-- rail-failure source active (R71, 03; 0) -/
  rail : Bool
  /-- HOT_EN source active (R71, 03; 0) -/
  hotEn : Bool
  /-- RESET_N held low, after the glitch filter (R71, R74, 03; 0) -/
  pin : Bool
  /-- SYS_RESET source active (R71, 03; 0) -/
  cmd : Bool
  /-- core-clock source active (R71, 03; 0) -/
  clock : Bool
  deriving DecidableEq, Repr

/-- What the boundary-scan register does to the balls (R61). -/
inductive JtagBalls where
  | functional | driven | highZ
  deriving DecidableEq, Repr

/-- The supervisor in PD_AON: rails, HOT_EN, resets, mode and its causes. -/
structure Sup where
  /-- Mode in force (R29, R30, 01; off: no supply before VDD_AON is good) -/
  mode : Mode
  /-- CAUSE_CMD, CAUSE_THERM, CAUSE_FAULT, CAUSE_SO as bits 0 to 3, 4 bits (R32, R33, 01; 0) -/
  causes : BitVec 4
  /-- Hibernate hold, kept in PD_AON (R29, 01; 0) -/
  hold : Bool
  /-- RAIL_GOOD, bit c for rail code c, bit 0xD VDD_AON, 14 bits (R63, R68, 03; 0: no supply) -/
  railGood : BitVec 14
  /-- level taken by each VDD_IO bank: none, 1.8 V (false) or 3.3 V (true) (R52, R64, 03; none) -/
  bankLevel : Vector (Option Bool) 4
  /-- HOT_EN_LVL, the filtered level of HOT_EN (R68, 03; DC 4: 0) -/
  hotLevel : Bool
  /-- HOT_EN qualified as asserted (R70, 03; 0) -/
  hotQualified : Bool
  /-- active reset sources (R71, 03; none) -/
  src : Sources
  /-- sources seen active since the reset began, in the bit order of RESET_STATUS [5:0], 6 bits (R77, 03; 0) -/
  seen : BitVec 6
  /-- the internal reset holds every domain but PD_AON (R71, 03; 1: unpowered) -/
  inReset : Bool
  /-- first rail that failed since the last release, with the ACLK period of that failure (R66, 03; none) -/
  firstFail : Option (Nat × Nat)
  /-- RESET_STATUS [6:0], 7 bits (R77, 03; 0x01) -/
  resetCauses : BitVec 7
  /-- LONG_RESET, 1 bit, RW1C (R75, R77, 03; 0) -/
  longReset : Bool
  /-- a LONG_RESET notice is due at the first start's firmware (R75, 03; 0) -/
  longNoticeDue : Bool
  /-- RAIL_ID, 4 bits (R77, 03; 0x0) -/
  railId : BitVec 4
  /-- START_COUNT, 16 bits, saturating (R77, 03; 0x0000) -/
  startCount : BitVec 16
  /-- straps latched at release (R57, 02; as in Straps) -/
  straps : Straps
  /-- VCORE_REQ, 8 bits (R68, 03; 0x0A) -/
  vcoreReq : Byte
  /-- VCORE_MEAS, 8 bits (R68, 03; DC 4: 0xFF, below 0.70 V while unpowered) -/
  vcoreMeas : Byte
  /-- REQ_ID of the last executed SYS_RESET, kept in PD_AON (R80, 03; none) -/
  lastSysReset : Option Word
  /-- RESTART bit and due time (ns of PD_AON time) of an accepted SYS_RESET whose source is not yet active (R80, 03; none) -/
  sysResetDue : Option (Bool × Nat)
  /-- PD_AON time at which a reset pulse of SYS_RESET or of the core clock ends (R71, 03; 0) -/
  pulseEnd : Nat
  /-- PD_AON time of the entry to Start-up that followed the last executed SYS_RESET, in ns (R80, 03; none) -/
  resetEntry : Option Nat
  /-- PD_AON time of the last Safe-Core trigger other than a command, in ns (R31, 01; none) -/
  safeAt : Option Nat
  /-- junction temperature last sampled, signed 1/16 °C, 16 bits (R573, 21; DC 4: 0) -/
  tj : BitVec 16
  /-- consecutive samples at or above the trip threshold (R573, 21; 0) -/
  tjHigh : Nat
  /-- consecutive samples below the threshold less its hysteresis (R573, 21; 0) -/
  tjLow : Nat
  /-- samples taken since the sensor began to run, held at 8 (R573, 21; 0) -/
  tjSamples : Nat
  /-- always-on time of the last sample, ns (R573, 21; 0) -/
  tempAt : Nat
  /-- OVERTEMP (R573, 21; 0) -/
  overtemp : Bool
  /-- SYSREF_CLK is present and within 10 % (R82, 03; 1) -/
  sysrefOk : Bool
  /-- TIME, SAMPLING, CORE and MEMORY PLL locked, bits 0 to 3 (R83, 03; 0) -/
  pllLocked : BitVec 4
  /-- pin levels last captured by the boundary-scan cells (R61, 02; empty) -/
  jtagCells : List Bool
  /-- what the JTAG instruction in force does to the balls, once isolation is released (R61, 02; functional) -/
  jtagBalls : JtagBalls
  deriving DecidableEq, Repr

/-- The start-up timeline of R87 and the timeline of a takeover (R544). -/
structure Startup where
  /-- step 0x2 complete: domains on (R87, 03; 0) -/
  domains : Bool
  /-- step 0x3 complete: PLLs locked and domains released (R87, 03; 0) -/
  plls : Bool
  /-- firmware-memory self-test passed (R87, 03; 0) -/
  fwMem : Bool
  /-- self-test of the remaining SRAM passed (R87, 03; 0) -/
  sram : Bool
  /-- safety-core self-test passed (R87, 03; 0) -/
  owlTest : Bool
  /-- DRAM initialised and trained (R87, 03; 0) -/
  dram : Bool
  /-- den references settled or given up, one bit per den (R87, R90, 03; 0) -/
  dens : BitVec 4
  /-- interpolators calibrated (R87, 03; 0) -/
  interp : Bool
  /-- a verified firmware image is in the firmware memory (R88, 03; 0) -/
  fwLoaded : Bool
  /-- the firmware runs: step 0x5 complete (R87, 03; 0) -/
  fwRuns : Bool
  /-- the boot configuration or checkpoint has been applied, or given up (R89, 03; 0) -/
  cfgApplied : Bool
  /-- front ends enabled in step 0x7 (R87, 03; 0) -/
  frontOn : Bool
  /-- FAILED, 1 bit (R93, 03; 0) -/
  failed : Bool
  /-- WAIT_HOST, 1 bit (R93, 03; 0) -/
  waitHost : Bool
  /-- FAIL_CODE, 8 bits (R93, 03; 0x00) -/
  failCode : Byte
  /-- PD_AON time of the release of the internal reset, in ns (R93, 03; 0) -/
  releaseAt : Nat
  /-- ELAPSED_MS frozen on entry to Service or on failure, 16 bits (R93, 03; none) -/
  frozenMs : Option (BitVec 16)
  /-- this start left Hibernate by a takeover (R77, R92, 03; 0) -/
  takeover : Bool
  /-- recovery phase of a takeover: from the claim to the end of the deferred steps (R147, R478, R544, 19; 0) -/
  recovery : Bool
  /-- next takeover step to complete, 9 to 0xE, 0 outside a takeover (R544, 19; 0) -/
  takeStep : BitVec 4
  /-- LC at which step 0xB of a takeover began (R544, 19; 0) -/
  takeAt : Nat
  /-- the setts whose filters a configuration or checkpoint has running, until step 0x7 or 0xC starts them (R98, R541, 19; 0) -/
  runMask : BitVec 48
  /-- both copies of the boot configuration while the claim waits for PAIR_OWN (R529, R530, 19; none) -/
  claimWait : Option (List Byte × List Byte)
  /-- the image last built by SYS_CONFIG_READ, in words (R100, 03; empty) -/
  cfgImage : List Word
  deriving DecidableEq, Repr

/-- A source of network time for the leader (R244). -/
inductive TimeSource where
  | none | ptp | pps
  deriving DecidableEq, Repr

/-- The stamps of the sync exchange in progress, in NT units of 2^-16 ns (R232). -/
structure Exchange where
  /-- t1, of SYNC_FU (R232, 08; none) -/
  t1 : Option Int
  /-- t2, receipt of SYNC (R232, 08; none) -/
  t2 : Option Int
  /-- t3, sending of DELAY_REQ (R232, 08; none) -/
  t3 : Option Int
  /-- TSHIFT of SYNC_FU, copied when the exchange is complete (R229, 08; 0) -/
  tshift : BitVec 80
  /-- STEP_SEQ of SYNC_FU (R242, 08; 0) -/
  stepSeq : BitVec 16
  /-- interval between the parent's last two SYNC frames, NT units (R235, 08; none) -/
  gap : Option Int
  deriving DecidableEq, Repr

/-- One neighbour's offer of time on a port (R231): what its last SYNC_FU carried, and since when. -/
structure TimeOffer where
  /-- hub ID of the neighbour, 10 bits (R231, 08; none) -/
  hub : BitVec 10
  /-- HOPS it offers, 4 bits (R231, 08; none) -/
  hops : BitVec 4
  /-- its TQ, 4 bits (R232, 08; none) -/
  tq : BitVec 4
  /-- its leader term (R232, 08; none) -/
  term : Word
  /-- LC since which it has offered fewer HOPS than the parent (R231, 08; none) -/
  since : Nat
  deriving DecidableEq, Repr

/-- A realignment of TK in progress (R237). -/
structure Realign where
  /-- TK of the stop, when the sequencer has stopped (R237, 08; none) -/
  stopTk : Option Word64
  /-- LC of the stop (R237, 08; 0) -/
  stopLc : Word64
  /-- TK has been loaded (R237, 08; 0) -/
  loaded : Bool
  /-- TK before which the sequencer does not resume (R237, 08; 0) -/
  resumeFrom : Nat
  deriving DecidableEq, Repr

/-- Settings of the servo, the step policy and the source (R252, R253, R254). -/
structure TimeCfg where
  /-- SYNC_LOG2, 3 bits (R252, 08; 0) -/
  syncLog2 : BitVec 3
  /-- KP_SHIFT, 4 bits (R252, 08; 4) -/
  kp : BitVec 4
  /-- KI_SHIFT, 5 bits (R252, 08; 10) -/
  ki : BitVec 5
  /-- HOLDOVER_S, 4 bits (R252, 08; 10) -/
  holdover : BitVec 4
  /-- STEP_LIMIT_100NS, 14 bits (R254, 08; 10) -/
  stepLimit : BitVec 14
  /-- SLEW_MAX_PPM, 7 bits (R254, 08; 100) -/
  slewMax : BitVec 7
  /-- TIME_EN of each port (R252, 08; 1) -/
  timeEn : Vector Bool 32
  /-- ASYM_PS of each port, signed 16 bits (R252, 08; 0) -/
  asymPs : Vector (BitVec 16) 32
  /-- SOURCE, 2 bits (R253, 08; NONE) -/
  source : TimeSource
  /-- SRC_REQUIRED, 1 bit (R253, 08; 0) -/
  srcRequired : Bool
  /-- PTP_PORT, 3 bits (R253, 08; 0) -/
  ptpPort : BitVec 3
  /-- PTP_UDP, 1 bit (R253, 08; 0) -/
  ptpUdp : Bool
  /-- PTP_DOMAIN, 7 bits (R253, 08; 0) -/
  ptpDomain : BitVec 7
  /-- PPS_SEC_VALID with PPS_SEC, applied at the next edge, 48 bits (R246, R253, 08; none) -/
  ppsSec : Option Nat
  /-- PPS_DELAY_NS, 16 bits (R253, 08; 0) -/
  ppsDelay : BitVec 16
  /-- SRC_LOCK_NS, 16 bits (R253, 08; 100) -/
  srcLock : BitVec 16
  deriving DecidableEq, Repr

/-- The leader's source of time: the grandmaster or the PPS input (R245, R246). -/
structure SourceState where
  /-- announce of the selected grandmaster (R245, 08; none) -/
  master : Option Announce
  /-- LC of the last qualifying announce (R247, 08; 0) -/
  announceAt : Nat
  /-- LC of the last accepted sync or PPS edge (R247, 08; 0) -/
  syncAt : Nat
  /-- sequence number and receipt stamp of the PTP sync whose follow-up is awaited (R245, 08; none) -/
  syncSeq : Option (BitVec 16 × Int)
  /-- t1 and t2 of the last two-step sync, NT units of 2^-16 ns (R245, 08; none) -/
  t12 : Option (Int × Int)
  /-- LC of the last servo update against the source (R235, R244, 08; 0) -/
  updAt : Nat
  /-- sequence number of the next Delay_Req, 16 bits (R245, 08; 0, DC 216) -/
  reqSeq : BitVec 16
  /-- Delay_Req whose response is awaited: its sequence number, and whether it went over UDP (R245, 08; none) -/
  reqOut : Option (BitVec 16 × Bool)
  /-- stamp of the last accepted PPS edge, LC in 2^-8 ns (R246, 08; none) -/
  lastEdge : Option Int
  /-- seconds count of the last PPS edge (R246, 08; 0) -/
  second : Nat
  /-- PPS edges ignored (R246, 08; 0) -/
  ignored : Nat
  /-- the source has been received since acquisition began (R238, 08; 0) -/
  received : Bool
  /-- SRC_LOCKED, 1 bit (R253, 08; 0) -/
  locked : Bool
  /-- SRC_LOST, 1 bit (R247, 08; 0) -/
  lost : Bool
  /-- currentUtcOffset, signed 16 bits (R245, 08; 0) -/
  utcOffset : BitVec 16
  deriving DecidableEq, Repr

/-- The timebase: LC, network time, TK and the servo. -/
structure Time where
  /-- TCLK released, so LC counts (R86, 03; 0) -/
  tclk : Bool
  /-- SCLK released, so TK counts (R86, 03; 0) -/
  sclk : Bool
  /-- PD_AON time, ns since VDD_AON rose: the ACLK count as the model keeps it (R71, R75, 03; 0) -/
  aonNs : Nat
  /-- LC, 64 bits (R226, 08; 0) -/
  lc : Word64
  /-- TK, 64 bits (R195, R229, 08; 0) -/
  tk : Word64
  /-- phase of the current tick, units of 2^-40 ns (R229, 08; 0) -/
  tkPhase : Nat
  /-- RATE, signed 32 bits, 2^-40 (R227, 08; 0) -/
  rate : Word
  /-- OFFSET, signed 80 bits, 2^-16 ns (R227, 08; 0) -/
  offset : BitVec 80
  /-- TSHIFT, signed 80 bits, 2^-16 ns (R229, 08; 0 until SCLK is released) -/
  tshift : BitVec 80
  /-- TIME_EPOCH, 16 bits (R243, 08; 0) -/
  epoch : BitVec 16
  /-- TQ, 4 bits (R238, 08; 0) -/
  tq : BitVec 4
  /-- LC of each recent change of TQ with the value before it, newest first, at most 16 (R240, 08; empty) -/
  tqWas : List (Nat × BitVec 4)
  /-- r_I of the servo, a plain fraction (R235, 08; 0) -/
  rI : Rat
  /-- r_P of the servo (R235, 08; 0) -/
  rP : Rat
  /-- r_TK (R236, 08; 0) -/
  rTk : Rat
  /-- I_SAT, 1 bit (R235, 08; 0) -/
  iSat : Bool
  /-- the next exchange is the first since a step (R235, 08; 1) -/
  fresh : Bool
  /-- last e in ns (R233, R251, 08; 0) -/
  e : Rat
  /-- last ε in ns (R236, R251, 08; 0) -/
  eps : Rat
  /-- last d in ns (R233, R251, 08; 0) -/
  d : Rat
  /-- NT of the parent's last SYNC, NT units (R235, 08; none) -/
  lastSync : Option Int
  /-- SYNC_INTERVAL of the parent in ns, as its last two SYNC frames show it (R232, R234, 08; 1,000,000, DC 26) -/
  parentNs : Nat
  /-- the exchange in progress (R232, 08; none) -/
  exch : Exchange
  /-- LC of the last complete exchange (R234, 08; 0) -/
  exchAt : Nat
  /-- consecutive exchanges with |e| within the lock threshold (R238, 08; 0) -/
  good : Nat
  /-- consecutive exchanges with |e| beyond the unlock threshold (R238, 08; 0) -/
  bad : Nat
  /-- parent port, when one is selected (R231, 08; none) -/
  parent : Option Port
  /-- what each port's neighbour offers (R231, 08; none) -/
  offers : Vector (Option TimeOffer) 32
  /-- HOPS, 4 bits (R231, 08; 0) -/
  hops : BitVec 4
  /-- LC at which holdover began (R238, 08; none) -/
  holdAt : Option Nat
  /-- STEP_SEQ this hub sends, 16 bits (R242, 08; 0) -/
  stepSeq : BitVec 16
  /-- LC at which the last exchange was sent on each port (R232, 08; 0) -/
  sentAt : Vector Nat 32
  /-- the realignment in progress (R237, 08; none) -/
  realign : Option Realign
  /-- a realignment is due after the parent was selected (R237, 08; 0) -/
  alignDue : Bool
  /-- LC of the last time map notice (R230, 08; 0) -/
  mapAt : Nat
  /-- settings (R252 to R254, 08; as in TimeCfg) -/
  cfg : TimeCfg
  /-- the leader's source (R244, 08; as in SourceState) -/
  srcState : SourceState
  deriving DecidableEq, Repr

/-- The reset values of the fuses (log entry 4). -/
def Factory.reset : Factory :=
  { dieId := 0, industrial := false, tAnPs := Vector.replicate 48 180000, tInPs := Vector.replicate 16 0 }

def Straps.reset : Straps := { pairRole := false, bootSrc := 0, factoryTest := false, latched := false }

def Sources.none : Sources := { power := false, rail := false, hotEn := false, pin := false, cmd := false, clock := false }

def Sup.reset : Sup :=
  { mode := .off, causes := 0, hold := false, railGood := 0, bankLevel := Vector.replicate 4 none, hotLevel := false,
    hotQualified := false, src := Sources.none, seen := 0, inReset := true, firstFail := none, resetCauses := 1,
    longReset := false, longNoticeDue := false, railId := 0, startCount := 0, straps := Straps.reset,
    vcoreReq := 0x0A, vcoreMeas := 0xFF, lastSysReset := none, sysResetDue := none, pulseEnd := 0, resetEntry := none, safeAt := none, tj := 0,
    tjHigh := 0, tjLow := 0, tjSamples := 0, tempAt := 0, overtemp := false, sysrefOk := true, pllLocked := 0,
    jtagCells := [], jtagBalls := .functional }

def Startup.reset : Startup :=
  { domains := false, plls := false, fwMem := false, sram := false, owlTest := false, dram := false, dens := 0,
    interp := false, fwLoaded := false, fwRuns := false, cfgApplied := false, frontOn := false, failed := false,
    waitHost := false, failCode := 0, releaseAt := 0, frozenMs := none, takeover := false, recovery := false,
    takeStep := 0, takeAt := 0, runMask := 0, claimWait := none, cfgImage := [] }

def Exchange.none : Exchange :=
  { t1 := Option.none, t2 := Option.none, t3 := Option.none, tshift := 0, stepSeq := 0, gap := Option.none }

def TimeCfg.reset : TimeCfg :=
  { syncLog2 := 0, kp := 4, ki := 10, holdover := 10, stepLimit := 10, slewMax := 100,
    timeEn := Vector.replicate 32 true, asymPs := Vector.replicate 32 0, source := .none, srcRequired := false,
    ptpPort := 0, ptpUdp := false, ptpDomain := 0, ppsSec := none, ppsDelay := 0, srcLock := 100 }

def SourceState.reset : SourceState :=
  { master := none, announceAt := 0, syncAt := 0, syncSeq := none, t12 := none, updAt := 0, reqSeq := 0, reqOut := none, lastEdge := none, second := 0,
    ignored := 0, received := false, locked := false, lost := false, utcOffset := 0 }

def Time.reset : Time :=
  { tclk := false, sclk := false, aonNs := 0, lc := 0, tk := 0, tkPhase := 0, rate := 0, offset := 0, tshift := 0,
    epoch := 0, tq := 0, tqWas := [], rI := 0, rP := 0, rTk := 0, iSat := false, fresh := true, e := 0, eps := 0, d := 0,
    lastSync := none, parentNs := 1000000, exch := Exchange.none, exchAt := 0, good := 0, bad := 0, parent := none,
    offers := Vector.replicate 32 none, hops := 0, holdAt := none, stepSeq := 0, sentAt := Vector.replicate 32 0,
    realign := none, alignDue := false, mapAt := 0, cfg := TimeCfg.reset, srcState := SourceState.reset }

end Sys2Proof.Machine
end

