-- ==== Sys2Proof/Machine/StateFront.lean ====
section
/-! DEFINITION. The state of the analogue front end, the conversion, the calibration, the filter chain, the plan and
its sequencer. Docstrings end with (rule, chapter file; reset value). -/

namespace Sys2Proof.Machine

/-- The calibration states of R155. -/
inductive CalState where
  | idle | pending | opened | measuring | ramping
  deriving DecidableEq, Repr

/-- The coefficient set of one range (R154): in force and target. -/
structure CoefSet where
  /-- TRIM in force, signed 10 bits (R154, 05; 0) -/
  trim : BitVec 10
  /-- target TRIM (R158, 05; 0) -/
  trimT : BitVec 10
  /-- OFFSET_DIG in force, signed 32 bits (R154, 05; 0) -/
  offset : Word
  /-- target OFFSET_DIG (R158, 05; 0) -/
  offsetT : Word
  /-- GAIN in force, Q2.30 (R154, 05; 0x40000000) -/
  gain : Word
  /-- target GAIN (R158, 05; 0x40000000) -/
  gainT : Word
  /-- STORED: coefficients exist for this range (R167, 05; 0) -/
  stored : Bool
  deriving DecidableEq, Repr

/-- Where a reply goes that is made later than its request (R450): the packet's origin and fields of its reply header. -/
structure ReplyTo where
  /-- the request (R443, 16; none) -/
  packet : Packet
  /-- the session key under which the reply carries its MAC; none on session 0 (R444, 16; none) -/
  key : Option (List Byte)
  deriving DecidableEq, Repr

/-- A calibration point being averaged (R157). -/
structure CalPoint where
  /-- request it answers (R157, 05; none) -/
  req : ReplyTo
  /-- KIND: FULL (true) or ZERO (R167, 05; none) -/
  full : Bool
  /-- TARGET in codes (R167, 05; none) -/
  target : Int
  /-- results still to be averaged (R157, 05; none) -/
  left : Nat
  /-- results averaged (R157, 05; none) -/
  count : Nat
  /-- sum of the results averaged, in codes (R157, 05; none) -/
  sum : Int
  /-- a flagged result was averaged (R157, 05; none) -/
  flagged : Bool
  /-- the range in force differed from the calibration range (R157, 05; none) -/
  ranged : Bool
  /-- the reply was made before this channel's averaging ended, since another channel's calibration ended (R157, 05; false) -/
  answered : Bool
  deriving DecidableEq, Repr

/-- The calibration of one channel (R155 to R166). -/
structure Cal where
  /-- CAL_STATE, 3 bits (R155, 05; IDLE) -/
  state : CalState
  /-- calibration range, 3 bits (R167, 05; 0) -/
  range : BitVec 3
  /-- LC of CAL_START (R163, 05; 0) -/
  startLc : Nat
  /-- TK of the acceptance of CAL_START, for R166 (R166, 05; 0) -/
  startTk : Nat
  /-- FRAME_TICKS in force at that acceptance (R217, 07; 0) -/
  frameTicks : Nat
  /-- valid ZERO point M0, in 1/256 code (R157, 05; none) -/
  zero : Option Int
  /-- valid FULL point M1 in 1/256 code and T in codes (R157, 05; none) -/
  full : Option (Int × Int)
  /-- point being averaged, or held in PENDING (R157, R166, 05; none) -/
  point : Option CalPoint
  /-- outcome of a point of a CAL_POINT whose reply is not yet made: its request, mean in 1/256 code and reason (R157, 05; none) -/
  outcome : Option (ReplyTo × Int × BitVec 2)
  /-- ADJ_MS of the commit, 8 bits (R161, 05; 0) -/
  adjMs : Byte
  /-- LC of the commit (R161, 05; 0) -/
  commitLc : Nat
  /-- adjustment intervals made since the commit (R161, 05; 0) -/
  intervals : Nat
  deriving DecidableEq, Repr

/-- An injection slot in progress on a channel (R150, R151). -/
structure InjSlot where
  /-- TK of the slot's start (R150, 05; none) -/
  startTk : Nat
  /-- LC of the start in 2^-8 ns (R150, 05; none) -/
  startLc : Nat
  /-- length code, 2 bits (R150, 05; none) -/
  len : BitVec 2
  /-- range in force at the start, 3 bits (R150, 05; none) -/
  range : BitVec 3
  /-- that range's coefficients at the start (R150, 05; none) -/
  coef : CoefSet
  /-- a driving driver has covered it so far (R151, 05; none) -/
  covered : Bool
  deriving DecidableEq, Repr

/-- A pending injected conversion (R150). -/
structure Injection where
  /-- request it answers (R151, 05; none) -/
  req : ReplyTo
  /-- TK of the acceptance (R150, 05; none) -/
  acceptTk : Nat
  /-- slot in progress (R150, 05; none) -/
  slot : Option InjSlot
  deriving DecidableEq, Repr

/-- A result as LATCH copies it: sample word, stamp and DELAY_NS (R204). -/
structure Result where
  /-- sample word (R7, 00; 0x80000002) -/
  word : Word
  /-- stamp, LC in ns (R175, 06; 0) -/
  stamp : Nat
  /-- DELAY_NS (R175, R176, 06; 0) -/
  delay : Nat
  /-- TK of the last modulator sample (R204, 07; 0) -/
  lastTk : Nat
  deriving DecidableEq, Repr

/-- The data path of one channel (R168). An empty list of registers stands for zeros. -/
structure Dsp where
  /-- integrator registers of the CIC, first to last (R168, 06; zeros) -/
  integ : List Int
  /-- comb registers of the CIC (R168, 06; zeros) -/
  combs : List Int
  /-- histories of the stages behind the CIC, newest input first (R168, R178, 06; zeros) -/
  hist : List (List Int)
  /-- last output of the chain (R168, 06; 0) -/
  out : Int
  /-- last sample that was neither blanked nor replaced, with its gain compensated (R111, R134, 04; 0) -/
  hold : Int
  /-- range switches that samples still to come depend on: TK, and the range and trim before (R109, R111, R155, 04; none) -/
  switches : List (Nat × BitVec 3 × BitVec 10)
  /-- TK of the last raw result (R144, 05; none) -/
  rawTk : Option Nat
  /-- TK of the last sample blanked or replaced (R149, 05; none) -/
  heldTk : Option Nat
  /-- TK of the last sample on which the overload detector fired (R108, 04; none) -/
  ovlTk : Option Nat
  /-- TK of the last sample taken with the sensed voltage below 0.9 V (R120, 04; none) -/
  lowTk : Option Nat
  /-- TK of the last raw result of magnitude 2^30 or more (R145, 05; none) -/
  rawOvrTk : Option Nat
  /-- TK of the last saturation of a stage (R182, 06; none) -/
  satTk : Option Nat
  deriving DecidableEq, Repr

/-- One analogue channel. -/
structure Channel where
  /-- the data path from the modulator to the chain's output (R168, 06; cleared) -/
  dsp : Dsp
  /-- ENABLE, 1 bit (R129, 04; 0) -/
  enable : Bool
  /-- SCALE_RANGE, 3 bits (R129, 04; 0) -/
  scale : BitVec 3
  /-- OPEN_DET, 1 bit (R129, 04; 1) -/
  openDet : Bool
  /-- REF_BG, 1 bit (R129, 04; 0) -/
  refBg : Bool
  /-- RANGE_INIT, 3 bits (R130, 04; 0) -/
  rangeInit : BitVec 3
  /-- RANGE_NOW, 3 bits (R129, 04; 0) -/
  range : BitVec 3
  /-- BLANKING, 1 bit (R130, 04; 0) -/
  blanking : Bool
  /-- TK of the last switch or blanked sample of the last range change (R112, 04; none) -/
  rangeTk : Option Nat
  /-- OVERLOAD: the detector fired in the last output window, 1 bit (R132, 04; 0) -/
  overload : Bool
  /-- CM_HIGH_P, CM_LOW_P, CM_HIGH_N, CM_LOW_N as bits 0 to 3, 4 bits (R132, 04; 0) -/
  cm : BitVec 4
  /-- ACT_RESULT, 2 bits (R132, 04; 0b00) -/
  actResult : BitVec 2
  /-- R_PAIR, 24 bits (R132, 04; 0) -/
  rPair : BitVec 24
  /-- active test in progress, with the request that waits for it (R128, R132, 04; none) -/
  actTest : Option ReplyTo
  /-- TK of the last sample replaced after an instability (R134, 05; none) -/
  replacedTk : Option Nat
  /-- recovery after an instability in progress (R134, 05; 0) -/
  recovering : Bool
  /-- coefficient sets of ranges 0 to 4 (R154, 05; as in CoefSet) -/
  coefs : Vector CoefSet 5
  /-- calibration (R155, 05; IDLE) -/
  cal : Cal
  /-- pending injection (R150, 05; none) -/
  inject : Option Injection
  /-- most recent results, newest first, as many as LATCH can need (R204, 07; none) -/
  recent : List Result
  /-- latch register (R204, 07; none) -/
  latch : Option Result
  /-- retired (R558, 20; 0) -/
  retired : Bool
  /-- TK of the boundary from which the restored channel settles (R567, 20; none) -/
  restoreTk : Option Nat
  deriving DecidableEq, Repr

/-- A custom FIR table (R184). -/
structure FirTable where
  /-- TAPS_A, 9 bits (R184, 06; none) -/
  tapsA : Nat
  /-- TAPS_B, 9 bits (R184, 06; none) -/
  tapsB : Nat
  /-- LINEAR, 1 bit (R184, 06; none) -/
  linear : Bool
  /-- CIC_ORDER, 3 bits (R184, 06; none) -/
  cicOrder : BitVec 3
  /-- GD_NS, 32 bits (R184, 06; none) -/
  gdNs : Nat
  /-- coefficients of pass A then pass B, 24 bits each (R184, 06; none) -/
  coefs : List (BitVec 24)
  deriving DecidableEq, Repr

/-- Averages of the excitation of a sett and its den (R132). -/
structure ExcAvg where
  /-- VSENSE_MV, 13 bits (R132, 04; none) -/
  vsense : Nat
  /-- VOUT_MV, 13 bits (R132, 04; none) -/
  vout : Nat
  /-- IEXC, 16 bits (R132, 04; none) -/
  iexc : Nat
  /-- IDEN, 16 bits (R132, 04; none) -/
  iden : Nat
  deriving DecidableEq, Repr

/-- A burst in progress (R136). -/
structure Burst where
  /-- TK of the burst start (R136, 05; none) -/
  startTk : Nat
  /-- LC of the burst-start tick in 2^-8 ns (R137, 05; none) -/
  startLc : Nat
  /-- length code, 2 bits (R136, 05; none) -/
  len : BitVec 2
  /-- excitation was forced off inside it (R124, 04; none) -/
  broken : Bool
  deriving DecidableEq, Repr

/-- A FIR tick group: the eight words of one tick or burst, with what its record carries (R12, R317). -/
structure TickGroup where
  /-- stamp, LC in ns (R175, 06; none) -/
  stamp : Nat
  /-- DELAY_NS, 32 bits (R175, 06; none) -/
  delay : Nat
  /-- preset field, 4 bits (R177, 06; none) -/
  preset : BitVec 4
  /-- instant tick, and that of the group that follows on the grid; none in burst conversion (R320, 12; none) -/
  tick : Option (Nat × Nat)
  /-- TQ at delivery, 4 bits (R317, 12; none) -/
  tq : BitVec 4
  /-- CONFIG_GEN at delivery, 32 bits (R317, 12; none) -/
  gen : Word
  /-- the sample words in channel order (R12, 01; none) -/
  words : Vector Word 8
  deriving DecidableEq, Repr

/-- One sett: excitation driver, conversion mode, filter chain and phase. -/
structure Sett where
  /-- VCODE, 8 bits (R131, 04; 0x00) -/
  vcode : Byte
  /-- excitation MODE, 2 bits (R131, 04; 0b00) -/
  excMode : BitVec 2
  /-- FORCE_OFF, 1 bit (R131, 04; 0) -/
  forceOff : Bool
  /-- ILIM_CODE, 4 bits (R131, 04; 0x0) -/
  ilim : BitVec 4
  /-- DRIVING, 1 bit (R131, 04; 0) -/
  driving : Bool
  /-- the plan's own schedule has the driver on (R125, R202, 07; 0) -/
  planOn : Bool
  /-- CONTENTION, 1 bit (R131, 04; 0) -/
  contention : Bool
  /-- OC_TRIP, tripped in the current or last frame: frames since the trip (R131, 04; none) -/
  ocTrip : Option Nat
  /-- the driver waits for the next plan frame after a trip (R117, 04; 0) -/
  ocHold : Bool
  /-- REG_LOST, 1 bit (R131, 04; 0) -/
  regLost : Bool
  /-- TK of the last sample under REG_LOST (R120, 04; none) -/
  regLostTk : Option Nat
  /-- the excitation budget counts the sett's ILIM: from its EXC_ON to its EXC_OFF (R119, 04; 0) -/
  counted : Bool
  /-- TK at which it last ceased to, for the 100-tick tail (R119, 04; none) -/
  offTk : Option Nat
  /-- the driver has been off outside the plan's own schedule and not on since (R125, 04; 0) -/
  lost : Bool
  /-- LC at which the driver last switched on (R132, 04; 0) -/
  onLc : Nat
  /-- averages over the last completed on-period: VSENSE_MV, VOUT_MV, IEXC, IDEN (R132, 04; none) -/
  lastOn : Option ExcAvg
  /-- averages over the most recent 1 ms as last read, with the LC of that reading (R132, 04; none) -/
  nowOn : Option (Nat × ExcAvg)
  /-- TK of the last switch while the filters ran in continuous conversion (R123, 04; none) -/
  switchTk : Option Nat
  /-- the driver has been on since the start (R132, 04; 0) -/
  everOn : Bool
  /-- BURST as set, 1 bit (R143, 05; 0) -/
  burstMode : Bool
  /-- LOW_POWER as set, 1 bit (R143, 05; 0) -/
  lowPower : Bool
  /-- low-power mode in force since the filter last started, 1 bit (R143, 05; 0) -/
  lowNow : Bool
  /-- burst in progress (R136, 05; none) -/
  burst : Option Burst
  /-- the chain's filters (R172, 06; as in Chain) -/
  run : Bool
  /-- isolated (R17, 01; 0) -/
  isolated : Bool
  /-- TK of the transient fault whose restart at the next plan frame is awaited, INV until then (R588, 01; none) -/
  restart : Option Nat
  /-- shed in Safe-Core (R27, R589, 01; 0) -/
  shed : Bool
  deriving DecidableEq, Repr

/-- The filter chain of one sett and its sampling phase. -/
structure Chain where
  /-- PRESET, 3 bits (R189, 06; 0x2) -/
  preset : BitVec 3
  /-- custom table in force (R184, 06; none) -/
  custom : Option FirTable
  /-- load in progress: coefficients written by pass and tap (R185, 06; empty) -/
  load : List (Nat × BitVec 24)
  /-- growth mode SHIFT, 1 bit (R194, 06; 0: WIDE) -/
  shift : Bool
  /-- SHIFTS, reply word 1 of FLT_GROWTH (R194, 06; 0) -/
  shifts : Word
  /-- TK of the boundary at which an accepted FLT_START takes effect (R191, 06; none) -/
  startAt : Option Nat
  /-- TK of the boundary at which an accepted FLT_STOP takes effect (R192, 06; none) -/
  stopAt : Option Nat
  /-- TK of the last start event (R178, 06; 0) -/
  startTk : Nat
  /-- LC of the boundary of the current run (R191, 06; 0) -/
  startLc : Nat
  /-- words produced since the last start event (R178, 06; 0) -/
  words : Nat
  /-- instant tick of the next grid word, when one is expected (R174, 06; none) -/
  nextTick : Option Nat
  /-- retiming buffer: groups held until their stamp, oldest first (R176, 06; empty) -/
  retime : List TickGroup
  /-- delay tap in force: COARSE × 128 + FINE (R248, 08; DC 5: the target, T_AN rounded) -/
  tap : Nat
  /-- delay tap target (R248, 08; DC 5: T_AN rounded) -/
  tapT : Nat
  /-- TRIM_PS, signed 32 bits (R255, 08; 0) -/
  trimPs : Word
  /-- ADJ_MS of the last DELAY_TAP_SET, 8 bits (R249, R255, 08; 0x00) -/
  adjMs : Byte
  /-- LC of the last DELAY_TAP_SET or adjustment (R249, 08; 0) -/
  tapAt : Nat
  deriving DecidableEq, Repr

/-- One den: its reference and its excitation supply. -/
structure Den where
  /-- isolated (R17, 01; 0) -/
  isolated : Bool
  /-- excitation of all 12 setts switched off after a den-level fault (R121, 04; 0) -/
  excOff : Bool
  /-- reference settled in step 0x4 (R90, 03; 0) -/
  settled : Bool
  /-- start TK of the REF_COMPARE this den is making (R205, 07; none) -/
  compareTk : Option Nat
  /-- outcome of the last comparison made with DEN_((d+1) mod 4): failed (R19, 01; none) -/
  compareFailed : Option Bool
  deriving DecidableEq, Repr

/-- SHADOW_STATE (R221). -/
inductive BankState where
  | empty | written | valid | failed
  deriving DecidableEq, Repr

/-- One bank of the sample plan: the 64-bit words of the image that have been written, by index, strictly rising. -/
structure Bank where
  /-- image words: index 0 to 7 the header, 8 + i entry i; 64 bits each (R219, 07; empty, R218) -/
  words : List (Nat × Word64)
  /-- SHADOW_STATE, 2 bits (R221, 07; 0b00) -/
  state : BankState
  /-- image words that hold a bit error not yet read: the word, and whether its SECDED code corrects it (R218, 07; none) -/
  upsets : List (Nat × Bool)
  /-- PEAK_MA found by validation, 11 bits (R222, 07; 0) -/
  peakMa : Nat
  deriving DecidableEq, Repr

/-- The sequencer and the two banks. -/
structure Plan where
  /-- the two banks (R218, 07; empty) -/
  banks : Vector Bank 2
  /-- LC of the errors corrected in each bank in the last 1 ms that no ECC burst holds (R554, 20; empty) -/
  fixAt : Vector (List Nat) 2
  /-- ACTIVE_BANK, 1 bit (R225, 07; 0) -/
  activeBank : Fin 2
  /-- ACTIVE, 1 bit (R225, 07; 0) -/
  active : Bool
  /-- TK of the pending swap's edge (R213, R225, 07; none) -/
  swap : Option Nat
  /-- BUDGET_HOLD, 1 bit (R225, 07; 0) -/
  budgetHold : Bool
  /-- LAST_ERROR, 8 bits (R225, 07; 0x00) -/
  lastError : Byte
  /-- SEGMENT, 13 bits (R225, 07; 0) -/
  segment : Nat
  /-- FRAME_COUNT, 32 bits (R225, 07; 0) -/
  frameCount : Word
  /-- TK of the current frame's boundary (R196, 07; 0) -/
  frameTk : Nat
  /-- LC stamp of the current frame's start edge, 2^-8 ns (R24, 01; 0) -/
  frameLc : Nat
  /-- the plan waits for its first frame since it became active (R213, 07; 0) -/
  firstFrame : Bool
  /-- the sequencer is stopped by a realignment (R237, 08; 0) -/
  stopped : Bool
  /-- open PULSE_WIN windows: SO_MASK, first tick, tick after the last (R206, 07; none) -/
  windows : List (Byte × Nat × Nat)
  /-- ECC errors corrected in the banks (R218, 07; 0) -/
  eccCorrected : Nat
  deriving DecidableEq, Repr

/-- One raw tap slot (R147). -/
structure TapSlot where
  /-- SETT, 6 bits (R149, 05; none) -/
  sett : SettId
  /-- CH_MASK, 8 bits (R149, 05; none) -/
  mask : Byte
  /-- SUBSAMPLE, 3 bits (R149, 05; none) -/
  sub : BitVec 3
  /-- raw results seen of each channel since the slot opened (R147, 05; none) -/
  seen : Vector Nat 8
  deriving DecidableEq, Repr

def CoefSet.reset : CoefSet :=
  { trim := 0, trimT := 0, offset := 0, offsetT := 0, gain := 0x40000000, gainT := 0x40000000, stored := false }

def Cal.reset : Cal :=
  { state := .idle, range := 0, startLc := 0, startTk := 0, frameTicks := 0, zero := none, full := none, point := none,
    outcome := none, adjMs := 0, commitLc := 0, intervals := 0 }

def Dsp.reset : Dsp :=
  { integ := [], combs := [], hist := [], out := 0, hold := 0, switches := [], rawTk := none, heldTk := none, ovlTk := none,
    lowTk := none, rawOvrTk := none, satTk := none }

def Channel.reset : Channel :=
  { dsp := Dsp.reset, enable := false, scale := 0, openDet := true, refBg := false, rangeInit := 0, range := 0, blanking := false,
    rangeTk := none, overload := false, cm := 0, actResult := 0, rPair := 0, actTest := none, replacedTk := none,
    recovering := false, coefs := Vector.replicate 5 CoefSet.reset, cal := Cal.reset, inject := none, recent := [],
    latch := none, retired := false, restoreTk := none }

def Sett.reset : Sett :=
  { vcode := 0, excMode := 0, forceOff := false, ilim := 0, driving := false, planOn := false, contention := false,
    ocTrip := none, ocHold := false, regLost := false, regLostTk := none, counted := false, offTk := none, lost := false, onLc := 0, lastOn := none, nowOn := none,
    switchTk := none, everOn := false, burstMode := false, lowPower := false, lowNow := false, burst := none,
    run := false, isolated := false, restart := none, shed := false }

/-- The tap nearest to a delay in ps: 7.8125 ps a tap, so ps × 16 / 125 rounded (R248). -/
def tapOfPs (ps : Int) : Nat := ((ps * 32 + 125) / 250).toNat

def Chain.reset (tAnPs : Nat) : Chain :=
  { preset := 2, custom := none, load := [], shift := false, shifts := 0, startAt := none,
    stopAt := none, startTk := 0, startLc := 0, words := 0, nextTick := none, retime := [], tap := tapOfPs tAnPs,
    tapT := tapOfPs tAnPs, trimPs := 0, adjMs := 0, tapAt := 0 }

def Den.reset : Den :=
  { isolated := false, excOff := false, settled := false, compareTk := none, compareFailed := none }

def Bank.reset : Bank := { words := [], state := .empty, upsets := [], peakMa := 0 }

def Plan.reset : Plan :=
  { banks := Vector.replicate 2 Bank.reset, activeBank := 0, active := false, swap := none, budgetHold := false,
    lastError := 0, segment := 0, frameCount := 0, frameTk := 0, frameLc := 0, firstFrame := false, stopped := false,
    windows := [], eccCorrected := 0, fixAt := Vector.replicate 2 [] }

end Sys2Proof.Machine
end

