-- ==== Sys2Proof/Machine/StateData.lean ====
section
/-! DEFINITION. The state of edge timing, quadrature, reduction, the queues and the Hoard, and the block coder.
Docstrings end with (rule, chapter file; reset value). -/

namespace Sys2Proof.Machine

/-- A stamp of the edge-timing unit: LC in units of 2^-8 ns (R258). -/
abbrev Stamp := Int

/-- A wrapping 32-bit counter with its 16-bit wrap count (R273): the pair is a count modulo 2^48. -/
abbrev WrapCount := BitVec 48

/-- Edges not recorded between two entries of an input (R264, R267). -/
structure LossSpan where
  /-- stamp of the first edge not recorded (R265, 09; none) -/
  first : Stamp
  /-- edges not recorded (R265, 09; none) -/
  count : Nat
  /-- the span of a full calibration (R264, 09; none) -/
  cal : Bool
  /-- that calibration has ended (R264, 09; none) -/
  closed : Bool
  deriving DecidableEq, Repr

/-- One external edge input. -/
structure EdgeIn where
  /-- EDGE_SEL, 2 bits (R274, 09; 0b00) -/
  sel : BitVec 2
  /-- STAMP_EN, 1 bit (R274, 09; 0) -/
  stampEn : Bool
  /-- ELEC, 1 bit: CMOS (R274, 09; 0) -/
  cmos : Bool
  /-- LC until which edges are ignored after a change of ELEC (R256, 09; none) -/
  changeEnd : Option Nat
  /-- DELAY_PS, signed 32 bits (R274, 09; 0) -/
  delayPs : Word
  /-- CAL_DEG, 1 bit (R263, 09; 0) -/
  calDeg : Bool
  /-- full calibration in progress since this LC (R264, 09; none) -/
  calibrating : Option Nat
  /-- stamp at the threshold of the last accepted edge, before delays (R257, 09; none) -/
  lastRaw : Option Stamp
  /-- stamp of the last accepted edge (R276, 09; 0) -/
  lastStamp : Stamp
  /-- LC since which edges have kept coming less than 100 ns apart (R262, 09; none) -/
  busySince : Option Nat
  /-- tracking is starved: its calibration is held (R262, 09; 0) -/
  starved : Bool
  /-- entries waiting in the edge queue, 128 bits each (R267, 09; empty) -/
  queue : List (List Word)
  /-- spans of edges not recorded that no LOSS entry has declared yet, oldest first (R264, R267, 09; empty) -/
  losses : List LossSpan
  /-- EDGES, 32 bits with 16-bit wrap count (R273, 09; 0) -/
  edges : WrapCount
  /-- LOST, 32 bits with 16-bit wrap count (R273, 09; 0) -/
  lost : WrapCount
  /-- DEADTIME, 32 bits with 16-bit wrap count (R273, 09; 0) -/
  deadtime : WrapCount
  deriving DecidableEq, Repr

/-- A measurement that one edge has closed, until no edge of the other kind with an equal stamp can come: such an edge pairs with
it first (R270, R271). -/
structure MuTie where
  /-- stamp of the edge that closed it (R271, 09; none) -/
  stamp : Stamp
  /-- stamp of the start or stop it was paired with (R271, 09; none) -/
  other : Stamp
  /-- a stop closed it (R271, 09; none) -/
  byStop : Bool
  /-- last LC at which an edge of the other kind could cross with an equal stamp (R258, R271, 09; none) -/
  due : Nat
  deriving DecidableEq, Repr

/-- One measurement unit. -/
structure MeasUnit where
  /-- ENABLE, 1 bit (R275, 09; 0) -/
  enable : Bool
  /-- BIPOLAR, 1 bit (R275, 09; 0) -/
  bipolar : Bool
  /-- START_IN, 4 bits (R275, 09; 0) -/
  startIn : BitVec 4
  /-- START_FALL, 1 bit (R275, 09; 0) -/
  startFall : Bool
  /-- STOP_IN, 4 bits (R275, 09; 0) -/
  stopIn : BitVec 4
  /-- STOP_FALL, 1 bit (R275, 09; 0) -/
  stopFall : Bool
  /-- W_PRE_NS, 20 bits (R275, 09; 0) -/
  wPre : BitVec 20
  /-- W_POST_NS, 30 bits (R275, 09; 1,000) -/
  wPost : BitVec 30
  /-- open start (R269, 09; none) -/
  start : Option Stamp
  /-- held stop (R269, 09; none) -/
  stop : Option Stamp
  /-- result that an edge with an equal stamp could still replace (R270, R271, 09; none) -/
  tie : Option MuTie
  /-- RESULTS (R273, 09; 0) -/
  results : WrapCount
  /-- COINCIDENT (R273, 09; 0) -/
  coincident : WrapCount
  /-- STOP_EARLY (R273, 09; 0) -/
  stopEarly : WrapCount
  /-- STOP_LATE (R273, 09; 0) -/
  stopLate : WrapCount
  /-- START_ORPHAN (R273, 09; 0) -/
  startOrphan : WrapCount
  /-- WIN_EMPTY (R273, 09; 0) -/
  winEmpty : WrapCount
  deriving DecidableEq, Repr

/-- The edge-timing unit. -/
structure Tdc where
  /-- the 16 inputs (R256, 09; as in EdgeIn) -/
  inputs : Vector EdgeIn 16
  /-- the 8 measurement units (R269, 09; as in MeasUnit) -/
  units : Vector MeasUnit 8
  /-- inputs whose queues hold entries, in the order in which these were completed (R266, 09; empty) -/
  order : List (Fin 16)
  /-- raw-code map of each interpolator, positions by code in fine steps: first that of each channel, then the second of each input
  (R260, R261, 09; DC 6: empty until calibrated) -/
  maps : Vector (List Rat) 66
  /-- non-linearity of each interpolator's map after its last update, in fine steps (R263, R277, 09; 0) -/
  inl : Vector Rat 66
  /-- CAL_DEG condition of each internal channel, for INTERNAL_DEG (R277, 09; 0) -/
  degraded : Vector Bool 50
  /-- LAST_FAILED, 1 bit (R277, 09; 0) -/
  lastFailed : Bool
  /-- UPDATES, 32 bits (R277, 09; 0) -/
  updates : Word
  deriving DecidableEq, Repr

/-- The coefficient set of a pair (R282). -/
structure QuadCoef where
  /-- OX, signed 32 bits (R282, 10; 0) -/
  ox : Word
  /-- OY, signed 32 bits (R282, 10; 0) -/
  oy : Word
  /-- K, Q2.30 (R282, 10; 0x40000000) -/
  k : Word
  /-- PHI, signed 32 bits (R282, 10; 0) -/
  phi : Word
  deriving DecidableEq, Repr

/-- The statistics of the window in progress (R283, R284). -/
structure QuadWin where
  /-- samples so far (R283, 10; 0) -/
  n : Nat
  /-- samples excluded (R283, 10; 0) -/
  excluded : Nat
  /-- samples still (R283, 10; 0) -/
  still : Nat
  /-- sectors visited, 16 bits (R283, 10; 0) -/
  sectors : BitVec 16
  /-- sum of phase steps in 2^-32 turn (R284, 10; 0) -/
  travel : Nat
  /-- sum of the corrected radii, in codes (R284, 10; 0) -/
  radius : Nat
  /-- LC of the first sample (R284, 10; 0) -/
  firstLc : Nat
  /-- LC of the last sample (R284, 10; 0) -/
  lastLc : Nat
  /-- sums of the products of powers of the qualified samples' X and Y up to degree 4, for the least squares fit: their number, X, Y,
  X², XY, Y² and so on (R281, 10; 0) -/
  mom : Vector Int 15
  deriving DecidableEq, Repr

/-- One quadrature pair slot. -/
structure Slot where
  /-- ENABLE, 1 bit (R295, 10; 0) -/
  enable : Bool
  /-- ADAPT, 1 bit (R295, 10; 1) -/
  adapt : Bool
  /-- INVERT, 1 bit (R295, 10; 0) -/
  invert : Bool
  /-- REF_REQUIRED, 1 bit (R295, 10; 0) -/
  refRequired : Bool
  /-- WIN_LOG2, 4 bits (R295, 10; 12) -/
  winLog2 : BitVec 4
  /-- PAIR_BASE, 8 bits (R295, 10; 0) -/
  pairBase : Byte
  /-- ADJ_MS, 8 bits (R295, 10; 0x00) -/
  adjMs : Byte
  /-- MIN_SPEED, 16 bits (R295, 10; 10) -/
  minSpeed : BitVec 16
  /-- RAD_MIN, 8 bits (R295, 10; 0x20) -/
  radMin : Byte
  /-- coefficients in force (R296, 10; identity) -/
  coef : QuadCoef
  /-- part of OX in force that the X member's trim carries, signed 10 bits (R282, 10; 0) -/
  trimX : BitVec 10
  /-- part of OY in force that the Y member's trim carries, signed 10 bits (R282, 10; 0) -/
  trimY : BitVec 10
  /-- target coefficients (R296, 10; identity) -/
  target : QuadCoef
  /-- stored coefficients (R288, R292, 10; none) -/
  stored : Option QuadCoef
  /-- FROZEN reason, 3 bits, 0 when not frozen (R296, 10; 0) -/
  freeze : BitVec 3
  /-- QUALIFIED since the last start event, 1 bit (R296, 10; 0) -/
  qualified : Bool
  /-- a window has ever qualified (R288, 10; 0) -/
  everQualified : Bool
  /-- POS_LOST, 1 bit (R296, 10; 0) -/
  posLost : Bool
  /-- POS carries INV until POS_SET (R291, 10; 0) -/
  posInv : Bool
  /-- SIGNAL_LOW, 1 bit (R296, 10; 0) -/
  signalLow : Bool
  /-- AMPLITUDE, 24 bits (R296, 10; 0) -/
  amplitude : BitVec 24
  /-- PHASE, 32 bits (R296, 10; 0) -/
  phase : Word
  /-- POS, 64 bits (R296, 10; 0) -/
  pos : Word64
  /-- POS to load at the next word (R295, 10; none) -/
  posSet : Option Word64
  /-- a previous valid PHASE exists, for the unwrapping (R291, 10; 0) -/
  havePhase : Bool
  /-- WIN_OK, 32 bits, saturating (R296, 10; 0) -/
  winOk : Word
  /-- WIN_REJECTED, 32 bits, saturating (R296, 10; 0) -/
  winRejected : Word
  /-- LC of the enable (R286, 10; 0) -/
  enableLc : Nat
  /-- adjustment intervals made since the enable (R286, 10; 0) -/
  intervals : Nat
  /-- window in progress (R283, 10; empty) -/
  win : QuadWin
  deriving DecidableEq, Repr

/-- An input word as the reduction engine places it on the tick scale (R301). -/
structure InWord where
  /-- instant tick (R301, 11; none) -/
  tick : Nat
  /-- value x_t before the term's shift (R299, 11; none) -/
  value : Int
  /-- flags as bits [7:0] of R7 (R305, 11; none) -/
  flags : Byte
  deriving DecidableEq, Repr

/-- The definition of a projection (R297, R299, R313). -/
structure PrjDef where
  /-- TERM_t, 64 bits each (R299, 11; none) -/
  terms : List Word64
  /-- OUT_SHIFT, 6 bits (R313, 11; 16) -/
  outShift : BitVec 6
  /-- PERIOD_TICKS, 21 bits (R313, 11; 200) -/
  period : BitVec 21
  /-- HOLD_MAX_TICKS, 21 bits (R313, 11; 2,000) -/
  holdMax : BitVec 21
  /-- REMOTE_LAT_US, 16 bits (R313, 11; 0) -/
  remoteLat : BitVec 16
  /-- OFFSET_P, signed 64 bits (R313, 11; 0) -/
  offsetP : Word64
  /-- OFFSET_F, signed 64 bits (R313, 11; 0) -/
  offsetF : Word64
  deriving DecidableEq, Repr

/-- One projection. -/
structure Prj where
  /-- definition in force (R313, 11; as in PrjDef) -/
  defn : PrjDef
  /-- ENABLED, 1 bit (R313, 11; 0) -/
  enabled : Bool
  /-- LATENCY in ns (R301, R313, 11; 0) -/
  latencyNs : Nat
  /-- MISSING, 32 bits, saturating (R313, 11; 0) -/
  missing : Word
  /-- LATE, 32 bits, saturating (R313, 11; 0) -/
  late : Word
  /-- FALLBACKS, 32 bits, saturating (R313, 11; 0) -/
  fallbacks : Word
  /-- next projection tick to evaluate (R297, 11; 0) -/
  nextTick : Nat
  /-- first tick of the run it evaluates (R309, R314, 11; 0) -/
  fromTick : Nat
  /-- a remote source has not announced its bound since the enable (R301, 11; 0) -/
  boundOpen : Bool
  /-- PRJ_LATE has been raised since the enable (R303, 11; 0) -/
  lateRaised : Bool
  /-- outputs of recent ticks, newest first (R308, 11; empty) -/
  out : List InWord
  deriving DecidableEq, Repr

/-- An input taken from another hub (R304, R428). -/
structure Feed where
  /-- source hub (R304, 11; none) -/
  hub : BitVec 10
  /-- channel (false) or projection (true) (R299, 11; none) -/
  isPrj : Bool
  /-- INDEX, 9 bits (R299, 11; none) -/
  index : BitVec 9
  /-- travels in the SAFETY class (R304, 11; none) -/
  safety : Bool
  /-- an answer of the source hub is awaited (R304, 11; none) -/
  asked : Bool
  /-- the source hub has opened it (R304, 11; none) -/
  opened : Bool
  /-- arrival bound announced, in ns (R301, 11; none) -/
  boundNs : Nat
  /-- words received, newest first (R304, 11; none) -/
  words : List InWord
  deriving DecidableEq, Repr

/-- A feed served to another hub (R304). -/
structure Served where
  /-- destination hub (R304, 11; none) -/
  hub : BitVec 10
  /-- channel (false) or projection (true) (R304, 11; none) -/
  isPrj : Bool
  /-- INDEX, 9 bits (R304, 11; none) -/
  index : BitVec 9
  /-- SAFETY class (R304, 11; none) -/
  safety : Bool
  /-- arrival bound announced last, in ns (R430, 15; none) -/
  told : Nat
  deriving DecidableEq, Repr

/-- An accumulator (R310, R311, R315). -/
structure Acc where
  /-- ENABLE, 1 bit (R310, 11; 0; raw 1) -/
  enable : Bool
  /-- N_LOG2, 5 bits (R310, 11; raw 12; channel and projection DC 7: 0) -/
  nLog2 : BitVec 5
  /-- EMIT, 1 bit (R310, R311, 11; raw 0; channel and projection 1) -/
  emit : Bool
  /-- OOB_FACTOR, 8 bits (R310, 11; raw 4; otherwise 0) -/
  oob : Byte
  /-- SUM, signed 96 bits, saturating (R310, 11; 0) -/
  sum : Int
  /-- SUMSQ, unsigned 96 bits, saturating (R310, 11; 0) -/
  sumsq : Nat
  /-- SAT, 1 bit (R310, 11; 0) -/
  sat : Bool
  /-- words in the window so far (R311, 11; 0) -/
  total : Nat
  /-- words used (R311, 11; 0) -/
  used : Nat
  /-- smallest value used (R311, 11; 0) -/
  min : Int
  /-- largest value used (R311, 11; 0) -/
  max : Int
  /-- union of the flags of the words used (R311, 11; 0) -/
  flags : Byte
  /-- stamp of the window's first word (R311, 11; 0) -/
  first : Nat
  /-- WINDOWS, 32 bits, wrapping (R315, 11; 0) -/
  windows : Word
  /-- output words of the channel in this raw window: sum, sum of squares, count, for R146 (R146, 05; 0) -/
  out : Int × Nat × Nat
  deriving DecidableEq, Repr

/-- A min-max tracker (R312, R316). -/
structure MinMax where
  /-- MIN, 32 bits (R316, 11; 0) -/
  min : Int
  /-- MAX, 32 bits (R316, 11; 0) -/
  max : Int
  /-- MIN_STAMP, 64 bits (R316, 11; 0) -/
  minStamp : Nat
  /-- MAX_STAMP, 64 bits (R316, 11; 0) -/
  maxStamp : Nat
  /-- COUNT, 32 bits, saturating; EMPTY when 0 (R316, 11; 0) -/
  count : Word
  deriving DecidableEq, Repr

/-- The reduction engine. -/
structure Red where
  /-- the 64 projections (R297, 11; as in Prj) -/
  prjs : Vector Prj 64
  /-- pending PRJ_ENABLE: TK of the boundary, masks to enable and to disable (R314, 11; none) -/
  enableAt : Option (Nat × Word64 × Word64)
  /-- words of each channel, newest first (R301, 11; empty) -/
  chanHist : Vector (List InWord) 384
  /-- PHASE and POS of each pair slot, newest first (R289, 10; empty) -/
  quadHist : Vector (List (InWord × InWord)) 24
  /-- inputs taken from other hubs (R304, 11; none) -/
  feeds : List Feed
  /-- feeds served to other hubs, at most 256 (R304, 11; none) -/
  served : List Served
  /-- channel accumulators (R310, 11; disabled) -/
  accCh : Vector Acc 384
  /-- projection accumulators (R310, 11; disabled) -/
  accPrj : Vector Acc 64
  /-- raw accumulators (R310, 11; enabled, N_LOG2 12) -/
  accRaw : Vector Acc 384
  /-- channel min-max trackers (R312, 11; empty) -/
  mmCh : Vector MinMax 384
  /-- projection min-max trackers (R312, 11; empty) -/
  mmPrj : Vector MinMax 64
  /-- raw min-max trackers (R312, 11; empty) -/
  mmRaw : Vector MinMax 384
  deriving DecidableEq, Repr

/-- A record (R317). -/
structure Record where
  /-- STREAM, 8 bits (R317, 12; none) -/
  stream : Byte
  /-- TQ at the first entry, 4 bits (R317, 12; none) -/
  tq : BitVec 4
  /-- PRESET, 4 bits (R317, 12; none) -/
  preset : BitVec 4
  /-- CODED, 1 bit (R317, 12; none) -/
  coded : Bool
  /-- sequence number, 48 bits (R317, 12; none) -/
  seq : BitVec 48
  /-- TIME_EPOCH, 16 bits (R317, 12; none) -/
  epoch : BitVec 16
  /-- LC stamp of the first entry, 64 bits (R317, 12; none) -/
  lc : Word64
  /-- DELAY_NS, 32 bits (R317, 12; none) -/
  delay : Word
  /-- COUNT, 16 bits (R317, 12; none) -/
  count : BitVec 16
  /-- CONFIG_GEN, 32 bits (R317, 12; none) -/
  gen : Word
  /-- HUB_ID, 10 bits (R317, 12; none) -/
  hub : BitVec 10
  /-- payload of whole entries, 32-bit words (R317, 12; none) -/
  payload : List Word
  /-- stamp of the last entry, for gap bounds (R323, 12; none) -/
  lastLc : Word64
  /-- earliest stamp of an entry, for marks (R341, 12; none) -/
  minLc : Word64
  /-- latest stamp of an entry, for marks (R341, 12; none) -/
  maxLc : Word64
  /-- CRC-32C over header and payload (R317, 12; none) -/
  crc : Word
  deriving DecidableEq, Repr

/-- One entry of a record: its words, what it counts, and the stamps of its first and its last sample (R319, R323). -/
structure EntrySpan where
  /-- 32-bit words (R319, 12; none) -/
  words : Nat
  /-- what it adds to COUNT (R319, 12; none) -/
  count : Nat
  /-- stamp of the first tick group or sample (R319, 12; none) -/
  first : Nat
  /-- stamp of the last (R319, 12; none) -/
  last : Nat
  deriving DecidableEq, Repr

/-- The record of a stream that is still open (R320). -/
structure OpenRec where
  /-- TQ at the first entry (R317, 12; none) -/
  tq : BitVec 4
  /-- PRESET (R317, 12; none) -/
  preset : BitVec 4
  /-- TIME_EPOCH (R317, 12; none) -/
  epoch : BitVec 16
  /-- stamp of the first entry (R317, 12; none) -/
  lc : Nat
  /-- stamp of the last entry (R320, 12; none) -/
  lastLc : Nat
  /-- DELAY_NS (R317, 12; none) -/
  delay : Nat
  /-- entries so far (R317, 12; none) -/
  count : Nat
  /-- CONFIG_GEN (R317, 12; none) -/
  gen : Word
  /-- coded (R317, 12; none) -/
  coded : Bool
  /-- instant tick of the next tick group on the grid, for continuous streams (R320, 12; none) -/
  nextTick : Option Nat
  /-- the entries of the payload (R319, 12; none) -/
  entries : List EntrySpan
  /-- payload so far (R317, 12; none) -/
  payload : List Word
  deriving DecidableEq, Repr

/-- One stream: its numbering, its open record and its ring. -/
structure Stream where
  /-- NEXT_SEQ, 48 bits (R321, R352, 12; 0) -/
  nextSeq : BitVec 48
  /-- open record in the ingress queue (R320, 12; none) -/
  openRec : Option OpenRec
  /-- LC at which the tail timeout last started (R327, 12; 0) -/
  tailAt : Nat
  /-- ring contents, oldest first (R330, 12; empty) -/
  ring : List Record
  /-- ring size in MiB, 12 bits (R329, R352, 12; 78 for streams 0 to 47, 32 for 48 to 53) -/
  sizeMib : BitVec 12
  /-- RECORD_MAX_32, 6 bits (R353, 12; 32) -/
  recMax : BitVec 6
  /-- OVERWRITES, 32 bits, saturating (R352, 12; 0) -/
  overwrites : Word
  /-- entries converted in Safe-Core and not delivered: LC of the first and the last (R28, 01; none) -/
  shedLc : Option (Nat × Nat)
  deriving DecidableEq, Repr

/-- One configurable queue (R324, R326). -/
structure Queue where
  /-- HWM, 6 bits (R353, 12; 48) -/
  hwm : BitVec 6
  /-- LWM, 6 bits (R353, 12; 16) -/
  lwm : BitVec 6
  /-- TAIL_TIMEOUT_US, 16 bits (R353, 12; 200) -/
  tailUs : BitVec 16
  /-- LEVEL, bytes (R353, 12; 0) -/
  level : Nat
  /-- prev_level (R326, 12; 0) -/
  prev : Nat
  /-- HI_LATCH, 1 bit (R353, 12; 0) -/
  hiLatch : Bool
  /-- LO_LATCH, 1 bit (R353, 12; 0) -/
  loLatch : Bool
  /-- HI_COUNT, 8 bits (R353, 12; 0) -/
  hiCount : Byte
  /-- LO_COUNT, 8 bits (R353, 12; 0) -/
  loCount : Byte
  /-- a WATERMARK notice is outstanding (R326, 12; 0) -/
  outstanding : Bool
  /-- corrected ECC errors, 32 bits, saturating (R325, 12; 0) -/
  ecc : Word
  /-- bit errors not read yet: the 64-bit word, counted from the next to be read, and whether it cannot be corrected (R325, 12; empty) -/
  upsets : List (Nat × Bool)
  /-- LC of the errors corrected in the last 1 ms that no ECC burst holds (R554, 20; empty) -/
  fixAt : List Nat
  deriving DecidableEq, Repr

/-- The cursor of one stream of a subscription (R333). -/
structure Cursor where
  /-- stream (R333, 12; none) -/
  stream : Nat
  /-- ACKED, 48 bits (R333, 12; none) -/
  acked : BitVec 48
  /-- NEXT_SEND, 48 bits (R333, 12; none) -/
  nextSend : BitVec 48
  /-- sequence after the last record sent (R335, 12; none) -/
  sentEnd : BitVec 48
  /-- oldest and newest record sent in the current run (R318, R336, 12; none) -/
  runSent : Option (BitVec 48 × BitVec 48)
  /-- LC at which each outstanding record was last sent (R336, 12; empty) -/
  sentAt : List (BitVec 48 × Nat)
  /-- unacknowledged records that a ring of size 0 no longer keeps, with their LC bounds, oldest first (R329, 12; empty) -/
  past : List (BitVec 48 × Nat × Nat)
  /-- consecutive resends (R337, 12; 0) -/
  consecutive : Nat
  /-- SUSPENDED (R337, 12; 0) -/
  suspended : Bool
  /-- SKIP is due on the next record (R338, 12; 0) -/
  skip : Bool
  /-- RESENDS, 32 bits, saturating (R352, 12; 0) -/
  resends : Word
  /-- SKIPS, 32 bits, saturating (R352, 12; 0) -/
  skips : Word
  deriving DecidableEq, Repr

/-- A subscription (R333, R347). -/
structure Sub where
  /-- DEST_KIND: uplink endpoint (R347, 12; none) -/
  uplink : Bool
  /-- DEST, 10 bits (R347, 12; none) -/
  dest : BitVec 10
  /-- WINDOW, 13 bits (R347, 12; none) -/
  window : BitVec 13
  /-- MAX_RESENDS, 4 bits (R347, 12; none) -/
  maxResends : BitVec 4
  /-- ACK_TIMEOUT_US, 20 bits (R347, 12; none) -/
  ackUs : BitVec 20
  /-- RUN, 8 bits (R344, 12; 0) -/
  run : Byte
  /-- cursors in ascending stream order (R333, 12; none) -/
  cursors : List Cursor
  /-- the record of stream 53 with the last GAP entry of a return from Safe-Core, which is sent first (R339, 12; none) -/
  hold : Option (BitVec 48)
  deriving DecidableEq, Repr

/-- A rewind mark (R341). -/
structure Mark where
  /-- the sequence held for each stream, and whether that part is valid (R341, R342, 12; none) -/
  parts : List (Nat × BitVec 48 × Bool)
  /-- PROTECT with GUARD_MIB (R343, 12; none) -/
  guardMib : Option Nat
  /-- streams for which MARK_AT_RISK has been emitted (R343, 12; empty) -/
  risked : List Nat
  deriving DecidableEq, Repr

/-- A frame in the spill region: port, class and when it was spilled (R345). -/
structure Spilled where
  /-- output port (R345, 12; none) -/
  port : Port
  /-- REPLAY class rather than SAMPLE (R345, 12; none) -/
  replay : Bool
  /-- LC at which it was spilled (R346, 12; none) -/
  since : Nat
  /-- the frame (R345, 12; none) -/
  frame : Frame
  deriving DecidableEq, Repr

/-- The queues and the Hoard. -/
structure Hoard where
  /-- streams 0 to 53 (R10, 00; as in Stream) -/
  streams : Vector Stream 54
  /-- queues 0 to 75 (R324, 12; as in Queue) -/
  queues : Vector Queue 76
  /-- subscriptions 0 to 63 (R333, 12; closed) -/
  subs : Vector (Option Sub) 64
  /-- marks 0 to 255 (R341, 12; none) -/
  marks : Vector (Option Mark) 256
  /-- spilled frames, oldest first (R345, 12; empty) -/
  spilled : List Spilled
  /-- end of the spill writes and drain reads taken so far at 6.4 GB/s, in 1/32 ns of LC (R345, 12; 0) -/
  spillUntil : Nat
  /-- LC at which ACK_TIMEOUT stopped at entry to Safe-Core (R339, 12; none) -/
  ackStop : Option Nat
  /-- spill SIZE_MIB, 11 bits (R353, 12; 128) -/
  spillMib : BitVec 11
  /-- SPILL_AGE_MS, 16 bits (R353, 12; 100) -/
  spillAge : BitVec 16
  /-- SPILL_REFUSED, 32 bits, saturating (R346, 12; 0) -/
  spillRefused : Word
  /-- SPILL_AGED, 32 bits, saturating (R346, 12; 0) -/
  spillAged : Word
  /-- the four raw tap slots (R147, 05; closed) -/
  taps : Vector (Option TapSlot) 4
  deriving DecidableEq, Repr

/-- The block coder of one sett (R354 to R373). -/
structure Coder where
  /-- ENABLE, 1 bit (R372, 13; 0) -/
  enable : Bool
  /-- RATIO, 2 bits (R372, 13; 0b00) -/
  ratio : BitVec 2
  /-- ALERT_EN, 1 bit (R372, 13; 0) -/
  alertEn : Bool
  /-- DEPTH_ALERT, 4 bits (R372, 13; 0x0) -/
  depthAlert : BitVec 4
  /-- staging buffer: tick groups not yet coded, oldest first, at most 64 (R366, 13; empty) -/
  staging : List TickGroup
  /-- history of each channel in the open record: v' of the last and second-last samples; none forces HIST 1 (R360, 13; none) -/
  hist : Vector (Option (Int × Int)) 8
  /-- stalled at a block boundary (R368, 13; 0) -/
  stalled : Bool
  /-- the full staging buffer refuses tick groups until 32 are free (R368, 13; 0) -/
  refusing : Bool
  /-- LC of the first and last tick group refused (R368, 13; none) -/
  refused : Option (Nat × Nat)
  /-- LC of the last CODER_DEPTH event (R372, 13; none) -/
  alertAt : Option Nat
  /-- largest depth since the last CODER_DEPTH event, 4 bits (R372, 13; 0) -/
  alertMax : BitVec 4
  /-- MAX_DEPTH, 4 bits (R373, 13; 0x0) -/
  maxDepth : BitVec 4
  /-- LAST_DEPTH, 4 bits (R373, 13; 0x0) -/
  lastDepth : BitVec 4
  /-- BLOCKS, 32 bits, saturating (R373, 13; 0) -/
  blocks : Word
  /-- LOSSY, 32 bits, saturating (R373, 13; 0) -/
  lossy : Word
  /-- HIST_BLOCKS, 32 bits, saturating (R373, 13; 0) -/
  histBlocks : Word
  /-- STALLS, 32 bits, saturating (R373, 13; 0) -/
  stalls : Word
  /-- STAGING_REFUSED, 32 bits, saturating (R373, 13; 0) -/
  stagingRefused : Word
  /-- SELFCHECK_FAIL, 32 bits, saturating (R373, 13; 0) -/
  selfcheck : Word
  deriving DecidableEq, Repr

def EdgeIn.reset : EdgeIn :=
  { sel := 0, stampEn := false, cmos := false, changeEnd := none, delayPs := 0, calDeg := false, calibrating := none,
    lastRaw := none, lastStamp := 0, busySince := none, starved := false, queue := [], losses := [], edges := 0,
    lost := 0, deadtime := 0 }

def MeasUnit.reset : MeasUnit :=
  { enable := false, bipolar := false, startIn := 0, startFall := false, stopIn := 0, stopFall := false, wPre := 0,
    wPost := 1000, start := none, stop := none, tie := none, results := 0, coincident := 0, stopEarly := 0, stopLate := 0,
    startOrphan := 0, winEmpty := 0 }

def Tdc.reset : Tdc :=
  { inputs := Vector.replicate 16 EdgeIn.reset, units := Vector.replicate 8 MeasUnit.reset,
    order := [], maps := Vector.replicate 66 [], inl := Vector.replicate 66 0, degraded := Vector.replicate 50 false,
    lastFailed := false, updates := 0 }

def QuadCoef.identity : QuadCoef := { ox := 0, oy := 0, k := 0x40000000, phi := 0 }

def QuadWin.empty : QuadWin :=
  { n := 0, excluded := 0, still := 0, sectors := 0, travel := 0, radius := 0, firstLc := 0, lastLc := 0,
    mom := Vector.replicate 15 0 }

def Slot.reset : Slot :=
  { enable := false, adapt := true, invert := false, refRequired := false, winLog2 := 12, pairBase := 0, adjMs := 0,
    minSpeed := 10, radMin := 0x20, coef := QuadCoef.identity, trimX := 0, trimY := 0, target := QuadCoef.identity, stored := none, freeze := 0,
    qualified := false, everQualified := false, posLost := false, posInv := false, signalLow := false, amplitude := 0,
    phase := 0, pos := 0, posSet := none, havePhase := false, winOk := 0, winRejected := 0, enableLc := 0,
    intervals := 0, win := QuadWin.empty }

def PrjDef.reset : PrjDef :=
  { terms := [], outShift := 16, period := 200, holdMax := 2000, remoteLat := 0, offsetP := 0, offsetF := 0 }

def Prj.reset : Prj :=
  { defn := PrjDef.reset, enabled := false, latencyNs := 0, missing := 0, late := 0, fallbacks := 0, nextTick := 0, fromTick := 0, boundOpen := false,
    lateRaised := false, out := [] }

def Acc.reset : Acc :=
  { enable := false, nLog2 := 0, emit := true, oob := 0, sum := 0, sumsq := 0, sat := false, total := 0, used := 0,
    min := 0, max := 0, flags := 0, first := 0, windows := 0, out := (0, 0, 0) }

def Acc.rawReset : Acc := { Acc.reset with enable := true, nLog2 := 12, emit := false, oob := 4 }

def MinMax.reset : MinMax := { min := 0, max := 0, minStamp := 0, maxStamp := 0, count := 0 }

def Red.reset : Red :=
  { prjs := Vector.replicate 64 Prj.reset, enableAt := none, chanHist := Vector.replicate 384 [],
    quadHist := Vector.replicate 24 [], feeds := [], served := [], accCh := Vector.replicate 384 Acc.reset,
    accPrj := Vector.replicate 64 Acc.reset, accRaw := Vector.replicate 384 Acc.rawReset,
    mmCh := Vector.replicate 384 MinMax.reset, mmPrj := Vector.replicate 64 MinMax.reset,
    mmRaw := Vector.replicate 384 MinMax.reset }

def Stream.reset (mib : BitVec 12) : Stream :=
  { nextSeq := 0, openRec := none, tailAt := 0, ring := [], sizeMib := mib, recMax := 32, overwrites := 0, shedLc := none }

def Queue.reset : Queue :=
  { hwm := 48, lwm := 16, tailUs := 200, level := 0, prev := 0, hiLatch := false, loLatch := false, hiCount := 0,
    loCount := 0, outstanding := false, ecc := 0, upsets := [], fixAt := [] }

def Hoard.reset : Hoard :=
  { streams := (Vector.replicate 48 (Stream.reset 78)) ++ (Vector.replicate 6 (Stream.reset 32)),
    queues := Vector.replicate 76 Queue.reset, subs := Vector.replicate 64 none, marks := Vector.replicate 256 none,
    spilled := [], spillUntil := 0, ackStop := none, spillMib := 128, spillAge := 100, spillRefused := 0, spillAged := 0,
    taps := Vector.replicate 4 none }

def Coder.reset : Coder :=
  { enable := false, ratio := 0, alertEn := false, depthAlert := 0, staging := [], hist := Vector.replicate 8 none,
    stalled := false, refusing := false, refused := none, alertAt := none, alertMax := 0, maxDepth := 0,
    lastDepth := 0, blocks := 0, lossy := 0, histBlocks := 0, stalls := 0, stagingRefused := 0, selfcheck := 0 }

end Sys2Proof.Machine
end

