-- ==== Sys2Proof/Machine/StateLink.lean ====
section
/-! DEFINITION. The state of the serial lanes, the fabric and its uplinks, and of the command interface.
Docstrings end with (rule, chapter file; reset value). -/

namespace Sys2Proof.Machine

/-- RX_STATE (R382). -/
inductive RxState where
  | off | pll | acquire | locking | up | hiBer | quiet | test
  deriving DecidableEq, Repr

/-- TX_STATE (R382). -/
inductive TxState where
  | off | on | quiet | prbs
  deriving DecidableEq, Repr

/-- The wake of a transmitter in progress (R391): `pattern` until WAKE_US ends, then `idles` for 2 µs. -/
inductive WakeStep where
  | none | pattern | idles
  deriving DecidableEq, Repr

/-- The three transmit taps (R384). -/
structure TxTaps where
  /-- PRE, 4 bits (R384, 14; 4 at RATE 1, 0 at RATE 0) -/
  pre : BitVec 4
  /-- MAIN, 6 bits (R384, 14; 51 at RATE 1, 55 at RATE 0) -/
  main : BitVec 6
  /-- POST, 5 bits (R384, 14; 8) -/
  post : BitVec 5
  deriving DecidableEq, Repr

/-- An error injection (R395). -/
structure Injector where
  /-- INJ_TARGET LINE (R402, 14; none) -/
  line : Bool
  /-- BURST_LEN, 1 to 64 (R402, 14; none) -/
  burst : Nat
  /-- injections still to be made (R395, 14; none) -/
  left : Nat
  /-- INTERVAL_LOG2, 6 bits (R402, 14; none) -/
  interval : Nat
  deriving DecidableEq, Repr

/-- One serial lane. -/
structure Lane where
  /-- SETTINGS: ENABLE, RATE, PROTO, FEC, TX_INV, RX_INV, LOOPBACK as bits 0 to 7 (R400, 14; 0x02: RATE 1) -/
  settings : Byte
  /-- RX_STATE (R382, 14; OFF) -/
  rx : RxState
  /-- TX_STATE (R382, 14; OFF) -/
  tx : TxState
  /-- SIGNAL, 1 bit (R400, 14; 0) -/
  signal : Bool
  /-- INVALID_HDR, 32 bits, saturating (R400, 14; 0) -/
  invalidHdr : Word
  /-- LOCK_LOSSES, 32 bits, saturating (R400, 14; 0) -/
  lockLosses : Word
  /-- RETRAINS, 32 bits, saturating (R400, 14; 0) -/
  retrains : Word
  /-- LOS_COUNT, 32 bits, saturating (R400, 14; 0) -/
  losCount : Word
  /-- transmit taps in force (R401, 14; reset values of R384) -/
  tapsNow : TxTaps
  /-- transmit tap targets (R384, 14; reset values of R384) -/
  tapsT : TxTaps
  /-- LC of the last tap step or new target (R384, 14; 0) -/
  tapAt : Nat
  /-- ADAPT_CTLE, 1 bit (R401, 14; 1) -/
  adaptCtle : Bool
  /-- ADAPT_DFE, 1 bit (R401, 14; 1) -/
  adaptDfe : Bool
  /-- receiver values in force (R401, 14; CTLE 8, taps 0) -/
  rxNow : RxCoef
  /-- snapshot (R386, 14; none) -/
  snapshot : Option RxCoef
  /-- SNAP_QUALIFIED, 1 bit (R401, 14; 0) -/
  snapQualified : Bool
  /-- CLAMPED, 1 bit (R401, 14; 0) -/
  clamped : Bool
  /-- consecutive idle-dominated intervals (R387, 14; 0) -/
  idleRun : Nat
  /-- CLAMP_HITS, 32 bits, saturating (R401, 14; 0) -/
  clampHits : Word
  /-- the lock being gained follows a retrain (R386, 14; 0) -/
  retraining : Bool
  /-- TX_QUIET as set, 1 bit (R404, 14; 0) -/
  txQuiet : Bool
  /-- RX_QUIET as set, 1 bit (R404, 14; 0) -/
  rxQuiet : Bool
  /-- AUTO_WAKE, 1 bit (R404, 14; 1) -/
  autoWake : Bool
  /-- WAKE_US, 7 bits (R404, 14; 5) -/
  wakeUs : BitVec 7
  /-- RXQ_BY_PEER, 1 bit (R404, 14; 0) -/
  rxqByPeer : Bool
  /-- wake in progress on the transmitter (R391, 14; none) -/
  wake : WakeStep
  /-- a receiver wake is in progress: LC of its detection (R391, 14; none) -/
  rxWakeAt : Option Nat
  /-- WAKES, 32 bits, saturating (R404, 14; 0) -/
  wakes : Word
  /-- TX_EN, TX_PAT, TX_PINV, RX_EN, RX_PAT as bits 6 to 12 of word 0 of LANE_PRBS (R402, 14; TX_PAT and RX_PAT 0b11) -/
  prbs : BitVec 7
  /-- LOCKED, 1 bit (R402, 14; 0) -/
  prbsLocked : Bool
  /-- ERR_BITS, 32 bits, saturating with SAT (R402, 14; 0) -/
  errBits : Word
  /-- BITS up to the last accounting, 64 bits (R402, 14; 0) -/
  bits : Word64
  /-- LC of that accounting, while the checker is locked (R394, 14; 0) -/
  prbsAt : Nat
  /-- SYNC_LOSSES, 32 bits, saturating (R402, 14; 0) -/
  syncLosses : Word
  /-- injection in progress: INJ_BUSY (R402, 14; none) -/
  inj : Option Injector
  /-- INJ_DONE, 8 bits (R402, 14; 0) -/
  injDone : Byte
  /-- margin scan in progress: DWELL_LOG2, LC of its start and the request (R398, R403, 14; none) -/
  scan : Option (Nat × Nat × ReplyTo)
  deriving DecidableEq, Repr

/-- The lanes and their PLLs. -/
structure Lanes where
  /-- the 32 lanes (R375, 14; as in Lane) -/
  lanes : Vector Lane 32
  /-- lane PLL locked, index 2 × group + RATE (R376, 14; 0) -/
  pll : Vector Bool 4
  /-- LREFCLK of each lane group is present (R46, 02; DC 4: 1) -/
  refPresent : Vector Bool 2
  deriving DecidableEq, Repr

/-- A frame waiting in an output queue (R415, R416). -/
structure Queued where
  /-- input port, none for a local source (R415, 15; none) -/
  input : Option Port
  /-- LC of its arrival (R408, 15; none) -/
  since : Nat
  /-- the frame (R405, 15; none) -/
  frame : Frame
  deriving DecidableEq, Repr

/-- One class of one port: its output queue and its link state in both directions. -/
structure PortClass where
  /-- output queue, oldest first (R415, 15; empty) -/
  queue : List Queued
  /-- deficits of the sub-queues by input port, 32 for local, in the order of service (R416, 15; empty) -/
  deficit : List (Nat × Nat)
  /-- LSEQ of the next frame sent, 16 bits (R409, 15; 0) -/
  txSeq : BitVec 16
  /-- LSEQ expected of the next frame received, 16 bits (R409, 15; 0) -/
  rxSeq : BitVec 16
  /-- credits held, units of 256 bytes (R412, 15; 0) -/
  credits : Nat
  /-- INIT grant received since link-up (R412, 15; 0) -/
  initRx : Bool
  /-- bytes of this port's frames held in the shared buffer as input (R408, R412, 15; 0) -/
  held : Nat
  /-- unacknowledged frames, oldest first, each with the LC at which it was last sent (R410, R411, 15; empty) -/
  unacked : List (Frame × Nat)
  /-- replays of the oldest unacknowledged frame without acknowledgement (R410, 15; 0) -/
  replays : Nat
  /-- LC of the last NAK sent (R410, 15; none) -/
  nakAt : Option Nat
  /-- age discards, saturating (R408, 15; 0) -/
  aged : Word
  deriving DecidableEq, Repr

/-- One port of the fabric. -/
structure FabPort where
  /-- the six classes (R408, 15; as in PortClass) -/
  classes : Vector PortClass 6
  /-- INIT grants sent since the lane came up (R412, 15; 0) -/
  initTx : Bool
  /-- NEIGHBOUR, 10 bits (R436, 15; none) -/
  neighbour : Option (BitVec 10)
  /-- neighbour STATE, 3 bits (R436, 15; 0) -/
  nbState : BitVec 3
  /-- neighbour MODE, 4 bits (R436, 15; 0) -/
  nbMode : BitVec 4
  /-- VERSION_DIFF, 1 bit (R436, 15; 0) -/
  verDiff : Bool
  /-- WEIGHTS, 24 bits (R435, 15; 0x444444) -/
  weights : BitVec 24
  /-- ACK_WAIT_US, 8 bits (R435, 15; 80) -/
  ackWait : Byte
  /-- SPILL_THRESH_KIB, 8 bits (R435, 15; 64) -/
  spillThresh : Byte
  /-- last frame started on the line (R416, 15; none) -/
  lastTx : Option Frame
  /-- link control blocks sent and not yet taken by the line, newest first (R407, 15; empty) -/
  linkCtl : List (BitVec 56)
  /-- FRAMES_TX, 32 bits, saturating (R436, 15; 0) -/
  framesTx : Word
  /-- FRAMES_RX, 32 bits, saturating (R436, 15; 0) -/
  framesRx : Word
  /-- RETRIES, 32 bits, saturating (R436, 15; 0) -/
  retries : Word
  /-- LINK_DOWNS, 32 bits, saturating (R436, 15; 0) -/
  linkDowns : Word
  /-- LINKDOWN_DROP, 32 bits, saturating (R436, 15; 0) -/
  linkDownDrop : Word
  /-- BAD_FRAME, 32 bits, saturating (R436, 15; 0) -/
  badFrame : Word
  /-- STOMPED, 32 bits, saturating (R436, 15; 0) -/
  stomped : Word
  /-- NO_ROUTE, 32 bits, saturating (R436, 15; 0) -/
  noRoute : Word
  /-- SPILLED frames, 32 bits, saturating (R436, 15; 0) -/
  spilled : Word
  /-- SAFETY_STALE, 32 bits, saturating (R436, 15; 0) -/
  safetyStale : Word
  deriving DecidableEq, Repr

/-- An uplink endpoint (R423, R438). -/
structure Endpoint where
  /-- EP_IPV4, 32 bits (R438, 15; 0) -/
  ip : Word
  /-- EP_UDP, 16 bits (R438, 15; 0) -/
  udp : BitVec 16
  /-- EP_ENABLE, 1 bit (R438, 15; 0) -/
  enable : Bool
  /-- MAC address resolved by ARP (R438, 15; none) -/
  mac : Option (BitVec 48)
  deriving DecidableEq, Repr

/-- What an uplink sends outside SWL (R421). -/
inductive EthOut where
  /-- a request for the address of an endpoint or of the gateway -/
  | arpRequest (target : Word)
  /-- the answer to a request for this port's own address -/
  | arpReply (ip : Word) (mac : BitVec 48)
  /-- the answer to an echo request, with what that carried -/
  | echoReply (ip : Word) (ident seq : BitVec 16) (data : List Byte)
  deriving DecidableEq, Repr

/-- An Ethernet uplink (R421). -/
structure Uplink where
  /-- MAC address, 48 bits (R438, 15; 0) -/
  mac : BitVec 48
  /-- MTU, 14 bits (R438, 15; 9,000) -/
  mtu : BitVec 14
  /-- IPV4, 32 bits (R438, 15; 0) -/
  ip : Word
  /-- GATEWAY, 32 bits (R438, 15; 0) -/
  gateway : Word
  /-- UDP_PORT, 16 bits (R438, 15; 40,384) -/
  udpPort : BitVec 16
  /-- PREFIX, 6 bits (R438, 15; 24) -/
  pfx : BitVec 6
  /-- endpoints 0 to 15 (R423, 15; as in Endpoint) -/
  eps : Vector Endpoint 16
  /-- gateway MAC, GW_RESOLVED when present (R438, 15; none) -/
  gwMac : Option (BitVec 48)
  /-- frames and datagrams discarded (R421, R422, 15; 0) -/
  discards : Word
  /-- LC of the last ARP refresh (R421, 15; 0) -/
  arpAt : Nat
  /-- addresses asked for by ARP and replies made, newest first: what the port has sent outside SWL (R421, 15; empty) -/
  sentOut : List EthOut
  deriving DecidableEq, Repr

/-- What is known of a hub from its latest beacon (R424, R425). -/
structure Member where
  /-- hub ID (R424, 15; none) -/
  hub : BitVec 10
  /-- BSEQ, 32 bits (R424, 15; none) -/
  bseq : Word
  /-- TERM, 32 bits (R424, 15; none) -/
  term : Word
  /-- LEADER, 10 bits (R424, 15; none) -/
  leader : BitVec 10
  /-- LEAD_PRIORITY, 8 bits (R424, 15; none) -/
  priority : Byte
  /-- TQ, 4 bits (R424, 15; none) -/
  tq : BitVec 4
  /-- MODE, 4 bits (R424, 15; none) -/
  mode : BitVec 4
  /-- STATE, 3 bits (R424, 15; none) -/
  state : BitVec 3
  /-- ELIGIBLE, 1 bit (R424, 15; none) -/
  eligible : Bool
  /-- VER_MAJOR, 8 bits (R424, 15; none) -/
  verMajor : Byte
  /-- FAB_GEN, 32 bits (R424, 15; none) -/
  fabGen : Word
  /-- DIGEST, 64 bits (R424, 15; none) -/
  digest : Word64
  /-- LC of the last beacon (R425, 15; none) -/
  seenAt : Nat
  /-- consecutive beacons with TQ 3 or 4 (R428, 15; 0) -/
  tqGood : Nat
  /-- excluded on time (R428, 15; 0) -/
  timeOut : Bool
  deriving DecidableEq, Repr

/-- A fabric configuration image being received or waiting for its tick (R433, R437). -/
structure CfgImage where
  /-- words written, by index, strictly rising (R437, 15; empty) -/
  words : List (Nat × Word)
  /-- APPLY_TK chosen, once complete (R433, 15; none) -/
  applyTk : Option Nat
  deriving DecidableEq, Repr

/-- The fabric and the uplinks. -/
structure Fab where
  /-- HUB_ID, 10 bits (R434, R464, 15; 0) -/
  hubId : BitVec 10
  /-- HUB_ID_SET, 1 bit (R464, 16; 0) -/
  hubIdSet : Bool
  /-- JOIN, 1 bit (R434, 15; 1) -/
  join : Bool
  /-- LEAD_PRIORITY, 8 bits (R434, 15; 0) -/
  leadPriority : Byte
  /-- PORT_MASK, 32 bits (R434, 15; 0) -/
  portMask : Word
  /-- STATE, 3 bits (R425, 15; 0x0 ALONE) -/
  state : BitVec 3
  /-- TERM followed, 32 bits (R426, 15; 0) -/
  term : Word
  /-- LEADER followed, 10 bits (R426, 15; 0) -/
  leader : BitVec 10
  /-- this hub leads (R426, R251, 15; 0) -/
  leads : Bool
  /-- LC since which the hub has followed its term (R425, 15; 0) -/
  followSince : Nat
  /-- LC since which TQ 3 has been held under the current term (R426, 15; none) -/
  lockedSince : Option Nat
  /-- own BSEQ, 32 bits (R424, 15; 0) -/
  bseq : Word
  /-- LC of the last own beacon (R424, 15; 0) -/
  beaconAt : Nat
  /-- beacon table (R424, R426, 15; empty) -/
  members : List Member
  /-- ELECTIONS seen, 32 bits, saturating (R436, 15; 0) -/
  elections : Word
  /-- fabric configuration image in force, in words; FAB_GEN is its word 2 (R432, 15; empty) -/
  image : List Word
  /-- image being received (R437, 15; none) -/
  staged : Option CfgImage
  /-- complete image awaiting APPLY_TK (R433, 15; none) -/
  next : Option (List Word × Nat)
  /-- route of each hub ID: PRIMARY and ALTERNATE, 6 bits each (R414, R435, 15; 0x3F, 0x3F) -/
  routes : Vector (BitVec 6 × BitVec 6) 1024
  /-- ports 0 to 31 (R408, 15; as in FabPort) -/
  ports : Vector FabPort 32
  /-- uplinks P_00 to P_07 (R421, 15; as in Uplink) -/
  uplinks : Vector Uplink 8
  deriving DecidableEq, Repr

/-- An entry of a replay cache (R456, R457). -/
structure CacheEntry where
  /-- REQ_ID (R456, 16; none) -/
  reqId : Word
  /-- CRC of the request (R456, 16; none) -/
  crc : Word
  /-- reply: status, whether its results are dropped, result words; none while executing (R457, 16; none) -/
  reply : Option (BitVec 16 × Bool × List Word)
  deriving DecidableEq, Repr

/-- A replay cache (R455, R456). -/
structure Cache where
  /-- HIGH, once a request has been executed (R456, 16; none) -/
  high : Option Word
  /-- entries (R456, 16; empty) -/
  entries : List CacheEntry
  deriving DecidableEq, Repr

/-- An authenticated session (R451). -/
structure Session where
  /-- key slot of its principal, 3 bits (R453, 16; none) -/
  slot : Fin 8
  /-- K_S, 32 bytes (R453, 16; none) -/
  key : List Byte
  /-- LC of its opening or its last request that passed the MAC check (R454, 16; none) -/
  usedAt : Nat
  /-- replay cache (R455, 16; empty) -/
  cache : Cache
  deriving DecidableEq, Repr

/-- A request that is executing: its reply is not made yet (R449). -/
structure Running where
  /-- the request (R449, 16; none) -/
  packet : Packet
  deriving DecidableEq, Repr

/-- A request forwarded to another hub whose reply is awaited (R446). -/
structure Forwarded where
  /-- SESSION of the request (R446, 16; none) -/
  session : Byte
  /-- REQ_ID (R446, 16; none) -/
  reqId : Word
  /-- bytes of its header, for the reply UNREACHABLE (R446, 16; none) -/
  header : List Byte
  /-- LC of the forwarding (R446, 16; none) -/
  since : Nat
  deriving DecidableEq, Repr

/-- An N_B issued and not yet used (R453). -/
structure Nonce where
  /-- origin that asked for it (R453, 16; none) -/
  origin : Origin
  /-- N_B, 128 bits (R453, 16; none) -/
  value : BitVec 128
  /-- LC of its issue (R453, 16; none) -/
  since : Nat
  deriving DecidableEq, Repr

/-- The snapshots of the split values (R465); each is valid from its _LO read to the read of its last word. -/
structure Snapshots where
  /-- LC snapshot (R465, 16; invalid) -/
  lc : Option Word64
  /-- TK snapshot (R465, 16; invalid) -/
  tk : Option Word64
  /-- NT snapshot: NT_LO, NT_MID, NT_HI (R465, 16; invalid) -/
  nt : Option (Word × Word × Word)
  /-- counter snapshot: CNT_LO, CNT_HI, CNT_FLAGS (R465, 16; invalid) -/
  counter : Option (Word × Word × Word)
  deriving DecidableEq, Repr

/-- A notice or health event as raised: CODE and body words (R322). -/
structure Notice where
  /-- CODE, 16 bits (R322, 12; none) -/
  code : BitVec 16
  /-- body words; LEN is their number (R322, 12; none) -/
  body : List Word
  deriving DecidableEq, Repr

/-- The command interface: control port, register window, sessions and caches. -/
structure Cmd where
  /-- packets received and not yet begun, with their OPCODE, oldest first (R441, 16; empty) -/
  inbox : List (BitVec 16 × Packet)
  /-- packets of the control port received whose replies have not been collected, 0 to 4 (R441, 16; 0) -/
  held : Nat
  /-- replies waiting for collection, as bytes, oldest first (R441, 16; empty) -/
  replies : List (List Byte)
  /-- CP_DROPPED, 8 bits, saturating (R464, 16; 0) -/
  dropped : Byte
  /-- BAD_INSTR, 1 bit (R464, 16; 0) -/
  badInstr : Bool
  /-- WR_IGNORED, 1 bit (R464, 16; 0) -/
  wrIgnored : Bool
  /-- TEAR, 1 bit (R464, 16; 0) -/
  tear : Bool
  /-- TEAR_ADDR, 12 bits (R464, 16; 0) -/
  tearAddr : BitVec 12
  /-- EVENT_SUMMARY, 32 bits (R468, 16; 0) -/
  eventSummary : Word
  /-- NQ_FILTER, 32 bits (R466, 16; 0x000101E1) -/
  nqFilter : Word
  /-- notice queue, oldest first, at most 16 (R466, 16; empty) -/
  nq : List Notice
  /-- NQ_LOST, 8 bits, saturating (R464, 16; 0) -/
  nqLost : Byte
  /-- CNT_SEL, 16 bits (R464, 16; 0) -/
  cntSel : BitVec 16
  /-- snapshots of the split values (R465, 16; invalid) -/
  snap : Snapshots
  /-- word last read from the register window by REG_READ or RPL_READ (R439, 16; 0: model's own) -/
  lastRead : Word
  /-- sessions 1 to 8 (R451, 16; closed) -/
  sessions : Vector (Option Session) 8
  /-- session-0 caches by origin, most recently used first, at most 16 (R455, 16; empty) -/
  caches : List (Origin × Cache)
  /-- the boot loader's own session-0 cache (R447, 16; empty) -/
  bootCache : Cache
  /-- N_B values issued (R453, 16; none) -/
  nonces : List Nonce
  /-- requests executing (R449, 16; none) -/
  running : List Running
  /-- requests forwarded (R446, 16; none) -/
  forwarded : List Forwarded
  /-- replies sent to hubs and uplinks, as frames handed to the fabric, newest first (R446, 16; empty: model's own) -/
  sentReplies : List (Origin × List Byte)
  deriving DecidableEq, Repr

def TxTaps.reset (rate1 : Bool) : TxTaps :=
  if rate1 then { pre := 4, main := 51, post := 8 } else { pre := 0, main := 55, post := 8 }

def RxCoef.factory : RxCoef := { ctle := 8, tap1 := 0, tap2 := 0, tap3 := 0, tap4 := 0, tap5 := 0 }

def Lane.reset : Lane :=
  { settings := 2, rx := .off, tx := .off, signal := false, invalidHdr := 0, lockLosses := 0, retrains := 0,
    losCount := 0, tapsNow := TxTaps.reset true, tapsT := TxTaps.reset true, tapAt := 0, adaptCtle := true,
    adaptDfe := true, rxNow := RxCoef.factory, snapshot := none, snapQualified := false, clamped := false, idleRun := 0,
    clampHits := 0, retraining := false, txQuiet := false, rxQuiet := false, autoWake := true, wakeUs := 5,
    rxqByPeer := false, wake := .none, rxWakeAt := none, wakes := 0, prbs := 0x66, prbsLocked := false, errBits := 0,
    bits := 0, prbsAt := 0, syncLosses := 0, inj := none, injDone := 0, scan := none }

def Lanes.reset : Lanes :=
  { lanes := Vector.replicate 32 Lane.reset, pll := Vector.replicate 4 false, refPresent := Vector.replicate 2 true }

def PortClass.reset : PortClass :=
  { queue := [], deficit := [], txSeq := 0, rxSeq := 0, credits := 0, initRx := false, held := 0, unacked := [],
    replays := 0, nakAt := none, aged := 0 }

def FabPort.reset : FabPort :=
  { classes := Vector.replicate 6 PortClass.reset, initTx := false, neighbour := none, nbState := 0, nbMode := 0,
    verDiff := false, weights := 0x444444, ackWait := 80, spillThresh := 64, lastTx := none, linkCtl := [],
    framesTx := 0, framesRx := 0, retries := 0, linkDowns := 0, linkDownDrop := 0, badFrame := 0, stomped := 0,
    noRoute := 0, spilled := 0, safetyStale := 0 }

def Endpoint.reset : Endpoint := { ip := 0, udp := 0, enable := false, mac := none }

def Uplink.reset : Uplink :=
  { mac := 0, mtu := 9000, ip := 0, gateway := 0, udpPort := 40384, pfx := 24, eps := Vector.replicate 16 Endpoint.reset,
    gwMac := none, discards := 0, arpAt := 0, sentOut := [] }

def Fab.reset : Fab :=
  { hubId := 0, hubIdSet := false, join := true, leadPriority := 0, portMask := 0, state := 0, term := 0, leader := 0,
    leads := false, followSince := 0, lockedSince := none, bseq := 0, beaconAt := 0, members := [], elections := 0,
    image := [], staged := none, next := none, routes := Vector.replicate 1024 (0x3F, 0x3F),
    ports := Vector.replicate 32 FabPort.reset, uplinks := Vector.replicate 8 Uplink.reset }

def Cache.empty : Cache := { high := none, entries := [] }

def Snapshots.invalid : Snapshots := { lc := none, tk := none, nt := none, counter := none }

def Cmd.reset : Cmd :=
  { inbox := [], held := 0, replies := [], dropped := 0, badInstr := false, wrIgnored := false, tear := false,
    tearAddr := 0, eventSummary := 0, nqFilter := 0x000101E1, nq := [], nqLost := 0, cntSel := 0,
    snap := Snapshots.invalid, lastRead := 0, sessions := Vector.replicate 8 none, caches := [],
    bootCache := Cache.empty, nonces := [], running := [], forwarded := [], sentReplies := [] }

end Sys2Proof.Machine
end

