-- ==== Sys2Proof/Machine/StateSys.lean ====
section
/-! DEFINITION. The state of the safety core, the two-party protection, the pair and the health monitor.
Docstrings end with (rule, chapter file; reset value). -/

namespace Sys2Proof.Machine

/-- An SO entry of the safety parameter block (R494). -/
structure SoEntry where
  demandMask : BitVec 16
  restartManual : Bool
  widthMax : Nat
  periodMax : Nat
  deriving DecidableEq, Repr

/-- An SI entry of the block (R494). -/
structure SiEntry where
  demandMask : BitVec 16
  latch : Bool
  filterCyc : Nat
  deriving DecidableEq, Repr

/-- A sett descriptor of the block (R494). -/
structure SettDesc where
  sett : Nat
  preset : BitVec 3
  burst : Bool
  lowPower : Bool
  excMode : BitVec 2
  ilim : BitVec 4
  vcode : Byte
  scales : BitVec 24
  enabled : Byte
  deriving DecidableEq, Repr

/-- A monitor input: a channel or a projection (R471). -/
structure MonInput where
  isPrj : Bool
  index : Nat
  deriving DecidableEq, Repr

/-- A monitor entry of the block (R494). -/
structure MonEntry where
  kind : BitVec 2
  primary : MonInput
  fallback : Option MonInput
  invTol : Nat
  dir : Bool
  demandMask : BitVec 16
  check : Option MonInput
  limA : Int
  limB : Int
  speedUs : Nat
  plausTol : Nat
  plausCyc : Nat
  deriving DecidableEq, Repr

/-- A connection entry of the block (R494). -/
structure ConnEntry where
  partner : BitVec 10
  send : Bool
  recv : Bool
  sendMask : BitVec 16
  acceptMask : BitVec 16
  lossMask : BitVec 16
  deriving DecidableEq, Repr

/-- A safety parameter block as R493 and R494 lay it out, with its words. -/
structure Block where
  words : List Word
  safetyId : Word
  settMask : BitVec 48
  soUsed : Byte
  siUsed : BitVec 4
  pair01 : Bool
  pair23 : Bool
  discMs : Nat
  planDigest : Word64
  sos : List SoEntry
  sis : List SiEntry
  setts : List SettDesc
  prjs : List (Nat × PrjDef)
  mons : List MonEntry
  conns : List ConnEntry
  deriving DecidableEq, Repr

/-- One monitor SM_i (R472 to R475). -/
structure Mon where
  /-- MON_TRIPPED, 1 bit (R503, 17; 0) -/
  tripped : Bool
  /-- demand bits that the trip still latches, 16 bits (R475, R505, 17; 0) -/
  held : BitVec 16
  /-- MON_INVALID in the last cycle, 1 bit (R503, 17; 0) -/
  invalid : Bool
  /-- MON_FALLBACK in the last cycle, 1 bit (R503, 17; 0) -/
  fallback : Bool
  /-- consecutive invalid cycles (R472, 17; 0) -/
  invalidRun : Nat
  /-- consecutive implausible cycles (R474, 17; 0) -/
  plausRun : Nat
  /-- consecutive cycles with the check input invalid (R474, 17; 0) -/
  chkInvalid : Nat
  /-- valid values and input instants of the primary over the last 256 cycles, newest first (R473, 17; empty) -/
  histP : List (Option (Int × Int))
  /-- valid values and input instants of the fallback over the last 256 cycles, newest first (R473, 17; empty) -/
  histF : List (Option (Int × Int))
  /-- m of SDI, once its reference point has been reached (R473, 17; none) -/
  m : Option Int
  /-- newest x used (R475, 17; 0) -/
  x : Int
  /-- valid, within limits and plausible in the last cycle, so its trip may be released (R475, 17; 0) -/
  fit : Bool
  deriving DecidableEq, Repr

/-- One safety input (R476). -/
structure Si where
  /-- filtered level (R503, 17; DC 4: 0, which demands) -/
  filtered : Bool
  /-- consecutive cycles that read the other level (R476, 17; 0) -/
  run : Nat
  /-- level read in the last cycle (R476, 17; 0) -/
  level : Bool
  /-- demand bits that it latches, 16 bits (R476, R505, 17; 0) -/
  held : BitVec 16
  deriving DecidableEq, Repr

/-- One safety output (R478 to R482, R504). -/
structure So where
  /-- SO_n energised (R503, 17; 0) -/
  on : Bool
  /-- RESTART_MANUAL: a reset has been accepted since it was last de-energised (R478, 17; 0) -/
  resetSeen : Bool
  /-- SOFB_n level last read (R503, 17; DC 4: 0) -/
  sofb : Bool
  /-- LC at which SOFB_n began to differ from the commanded state (R480, 17; none) -/
  differSince : Option Nat
  /-- LC since which SOFB_n has read low (R505, 17; 0) -/
  lowSince : Nat
  /-- WIDTH_US, 10 bits (R504, 17; 200) -/
  width : BitVec 10
  /-- PERIOD_DS, 10 bits (R504, 17; 20) -/
  period : BitVec 10
  /-- T_FALL, 8 bits (R504, 17; 0) -/
  tFall : Byte
  /-- T_RISE, 8 bits (R504, 17; 0) -/
  tRise : Byte
  /-- SKIPPED, 16 bits, saturating (R504, 17; 0) -/
  skipped : BitVec 16
  /-- an off-pulse is due (R481, 17; 0) -/
  due : Bool
  /-- LC from which due times are counted (R481, 17; 0) -/
  dueFrom : Nat
  /-- number of due times passed (R481, 17; 0) -/
  dueCount : Nat
  /-- start LC of the off-pulse in progress (R481, 17; none) -/
  pulse : Option Nat
  /-- a demand, a mode or a failure has taken over the pulse in progress (R482, 17; 0) -/
  pulseTaken : Bool
  /-- WIDTH_US of the pulse that is due, 10 bits (R504, 17; 200) -/
  dueWidth : BitVec 10
  /-- WIDTH_US of the pulse in progress, 10 bits (R504, 17; 200) -/
  pulseWidth : BitVec 10
  /-- LC up to which the rise of the last pulse is read back (R481, 17; 0) -/
  readUntil : Nat
  deriving DecidableEq, Repr

/-- One safety connection (R485 to R487). -/
structure Conn where
  /-- synchronised (R487, 17; 0) -/
  synced : Bool
  /-- a resynchronising frame has been taken (R487, 17; 0) -/
  resync : Bool
  /-- last accepted SEQ, 16 bits (R486, 17; 0) -/
  lastSeq : BitVec 16
  /-- LC of the last accepted frame (R486, 17; 0) -/
  acceptAt : Nat
  /-- demand bits of the last accepted frame AND ACCEPT_MASK, 16 bits (R486, 17; 0) -/
  demand : BitVec 16
  /-- bits of LOSS_MASK that its loss latches, 16 bits (R486, R505, 17; 0) -/
  held : BitVec 16
  /-- CONN_LOST, 1 bit (R503, 17; 0) -/
  lost : Bool
  /-- LC since which frames have been accepted without loss (R486, R487, 17; 0) -/
  okSince : Nat
  /-- SEQ of the next frame sent, 16 bits (R485, 17; 0) -/
  sendSeq : BitVec 16
  /-- bits last sent, 16 bits (R485, 17; 0) -/
  sentBits : BitVec 16
  /-- LC of the last periodic frame (R485, 17; 0) -/
  sentAt : Nat
  /-- the extra frame of this interval has been sent (R485, 17; 0) -/
  extraSent : Bool
  deriving DecidableEq, Repr

/-- The safety core Owl. -/
structure Owl where
  /-- Owl runs (R470, 17; 0) -/
  running : Bool
  /-- staging copy: words written, by index, strictly rising (R501, 17; empty) -/
  staged : List (Nat × Word)
  /-- block in force (R499, 17; none) -/
  block : Option Block
  /-- SCV of the block in force, 32 bits (R503, 17; 0) -/
  scv : Word
  /-- SCV_BAD, 1 bit (R503, 17; 0) -/
  scvBad : Bool
  /-- READY, 1 bit (R503, 17; 0) -/
  ready : Bool
  /-- Test has been entered, and no cycle since its end has found every monitor valid (R36, 01; 0) -/
  testHold : Bool
  /-- CONFIG_MISMATCH, 1 bit (R503, 17; 0) -/
  mismatch : Bool
  /-- SO_FAULT: readback failure latched, 1 bit (R503, 17; 0) -/
  soFault : Bool
  /-- OWL_FAIL, 1 bit (R503, 17; 0) -/
  fail : Bool
  /-- the 16 monitors (R472, 17; as in Mon) -/
  mons : Vector Mon 16
  /-- the 4 safety inputs (R476, 17; as in Si) -/
  sis : Vector Si 4
  /-- LC since which the two inputs of a pair differ, pairs 01 and 23 (R477, 17; none) -/
  discSince : Vector (Option Nat) 2
  /-- SI_DISC, 2 bits (R503, 17; 0) -/
  siDisc : BitVec 2
  /-- demand bits that SI_DISC latches, of each pair, 16 bits (R477, R505, 17; 0) -/
  discHeld : Vector (BitVec 16) 2
  /-- the 8 outputs (R478, 17; as in So) -/
  sos : Vector So 8
  /-- the 8 connections (R485, 17; as in Conn) -/
  conns : Vector Conn 8
  /-- DEMAND, 16 bits (R503, 17; 0) -/
  demand : BitVec 16
  /-- MISSED, 32 bits, saturating (R503, 17; 0) -/
  missed : Word
  /-- CYCLES, 32 bits, wrapping (R503, 17; 0) -/
  cycles : Word
  /-- PULSE_FAIL, 32 bits, saturating (R503, 17; 0) -/
  pulseFail : Word
  /-- LC of the last cycle (R470, 17; 0) -/
  cycleAt : Nat
  /-- level of COMM_EN (R50, R499, 02; DC 4: 0) -/
  commEn : Bool
  /-- the alive signal to the supervisor (R490, 17; 0) -/
  alive : Bool
  deriving DecidableEq, Repr

/-- A key slot (R507, R520). -/
structure KeySlot where
  /-- 256-bit key, 32 bytes, or none (R507, 18; none) -/
  key : Option (List Byte)
  /-- role mask, 4 bits (R507, 18; 0) -/
  roles : BitVec 4
  /-- consecutive failed authentications, in PD_AON (R520, 18; 0) -/
  fails : Nat
  /-- PD_AON time at which the lockout ends (R520, 18; none) -/
  lockedUntil : Option Nat
  deriving DecidableEq, Repr

/-- A held proposal (R512, R513). -/
structure Proposal where
  /-- ACTION, 2 bits (R512, 18; none) -/
  action : BitVec 2
  /-- OPCODE of the change, 16 bits (R525, 18; none) -/
  opcode : BitVec 16
  /-- parameter words of the change as it would be applied; an INSTALL's key unwrapped (R511, R517, 18; none) -/
  params : List Word
  /-- change digest, 32 bytes (R511, 18; none) -/
  digest : List Byte
  /-- proposer's slot, 3 bits (R514, 18; none) -/
  slot : Fin 8
  /-- LC at which it was recorded (R514, 18; none) -/
  since : Nat
  deriving DecidableEq, Repr

/-- STAGE_STATE (R522). -/
inductive StageState where
  | empty | receiving | verified | rejected
  deriving DecidableEq, Repr

/-- Two-party protection, keys and firmware. -/
structure Prot where
  /-- key slots 0 to 7 (R507, 18; empty) -/
  slots : Vector KeySlot 8
  /-- proposals 0 to 7 (R513, 18; none) -/
  proposals : Vector (Option Proposal) 8
  /-- protection configuration: DEBUG_PERMIT and SEC_FLOOR, 32 bits (R518, 18; 0) -/
  cfg : Word
  /-- LC at which debug access closes (R519, 18; none) -/
  debugUntil : Option Nat
  /-- staging area: image words by index, strictly rising (R522, 18; empty) -/
  staged : List (Nat × Word)
  /-- STAGE_STATE, 2 bits (R522, 18; 0b00) -/
  stage : StageState
  /-- RESULT, 4 bits (R522, 18; 0x0) -/
  result : BitVec 4
  /-- FW_VERSION of the firmware that runs, 24 bits (R464, 16; 0) -/
  fwVersion : BitVec 24
  /-- firmware activation confirmed: the staged image is about to be switched to (R523, 18; 0) -/
  switching : Bool
  deriving DecidableEq, Repr

/-- PARTNER_STATE (R551). -/
inductive Partner where
  | unseen | syncing | ready | unfit | lost
  deriving DecidableEq, Repr

/-- Where a planned handover stands (R549). -/
inductive YieldStep where
  | none | stopping | writing | sending
  deriving DecidableEq, Repr

/-- What a checkpoint write holds when it is complete (R539, R540). -/
structure Checkpoint where
  /-- a full checkpoint rather than a delta (R540, 19; none) -/
  isFull : Bool
  /-- the words as written (R540, 19; none) -/
  words : List Word
  /-- LC at which the write began (R539, 19; none) -/
  since : Nat
  /-- the last checkpoint of a yield, with RES equal to NEXT_SEQ (R549, 19; none) -/
  final : Bool
  deriving DecidableEq, Repr

/-- What a start from a checkpoint still has to restore (R546, R547). -/
structure Restore where
  /-- the rest sections, until they are loaded: TYPE and words (R544, 19; none) -/
  rest : List (Nat × List Word)
  /-- the rest sections are loaded (R547, 19; none) -/
  loaded : Bool
  /-- subscriptions and marks of section 0x12, in words (R541, 19; none) -/
  subs : List Word
  /-- NEXT_SEQ and RES of each stream in the newest valid write, 48 bits each (R542, 19; none) -/
  seqs : List (BitVec 48 × BitVec 48)
  /-- WRITE_SEQ of that write, 32 bits (R553, 19; none) -/
  writeSeq : Word
  /-- TK_AT_WRITE of that write, 64 bits (R547, 19; none) -/
  tk : Word64
  deriving DecidableEq, Repr

/-- State kept by one hub of a pair, and the pair memory it reads and writes. -/
structure Pair where
  /-- PAIRED, AUTO_YIELD, HB_LOSS_ACLK as bits 1 to 8 of PAIR_CONFIG word 0 (R550, 19; HB_LOSS_ACLK 48) -/
  word0 : Word
  /-- SYNC_ID, TIME_WAIT_MS, RESYNC_H as PAIR_CONFIG word 1 (R550, 19; 0, 2, 24) -/
  word1 : Word
  /-- this hub drives PAIR_OWN high (R529, 19; 0) -/
  owns : Bool
  /-- level of PAIR_OWN (R551, 19; DC 4: 0) -/
  ownLine : Bool
  /-- PAIR_TERM in force, 32 bits (R551, 19; 0) -/
  term : Word
  /-- this hub is a standby in Hibernate (R533, 19; 0) -/
  standby : Bool
  /-- it entered Hibernate after a standby sync or a yield (R533, 19; 0) -/
  cold : Bool
  /-- armed (R533, 19; 0) -/
  armed : Bool
  /-- PD_AON time of the last valid heartbeat frame (R533, 19; 0) -/
  hbAt : Nat
  /-- valid frames arrive: none has been missed for HB_LOSS_ACLK periods (R533, R535, 19; 0) -/
  hbHeard : Bool
  /-- PARTNER_STATE (R551, 19; NONE) -/
  partner : Partner
  /-- last STATE the partner sent, 3 bits (R535, 19; 0) -/
  partnerSent : BitVec 3
  /-- PD_AON time at which a sync of the partner was last seen (R535, 19; 0) -/
  syncSeen : Nat
  /-- a standby sync is in progress here (R536, 19; 0) -/
  syncing : Bool
  /-- this standby is unfit (R536, 19; 0) -/
  unfit : Bool
  /-- the wait for TQ 3 has been given up (R536, 19; 0) -/
  tqGaveUp : Bool
  /-- COLD_NEXT is being sent: the PD_AON time at which it began (R536, 19; none) -/
  coldNext : Option Nat
  /-- PD_AON time of this standby's last sync (R536, 19; 0) -/
  lastSync : Nat
  /-- RETAIN_VALID (R551, 19; 0) -/
  retainValid : Bool
  /-- retained lane snapshots (R537, 19; none) -/
  retainLanes : Vector (Option RxCoef) 32
  /-- retained settings of the lanes, as section 0x06 has them (R537, R544, 19; log entry 51; empty) -/
  retainPorts : List Word
  /-- retained interpolator maps (R537, 19; empty) -/
  retainMaps : Vector (List Rat) 66
  /-- retained DRAM training results: a training has been retained (R537, 19; 0) -/
  retainDram : Bool
  /-- WRITE_SEQ of the write last begun, 32 bits (R539, 19; 0) -/
  writeNo : Word
  /-- WRITE_SEQ of the last completed write, 32 bits (R551, 19; 0) -/
  writeSeq : Word
  /-- WRITE_FAILS, 32 bits, saturating (R551, 19; 0) -/
  writeFails : Word
  /-- TAKEOVERS, 32 bits (R551, 19; 0) -/
  takeovers : Word
  /-- LC of the last completed full checkpoint (R551, 19; none) -/
  fullAt : Option Nat
  /-- LC of the last completed delta (R551, 19; none) -/
  deltaAt : Option Nat
  /-- LC of the last due time of a full checkpoint and of a delta (R539, 19; 0) -/
  dueAt : Nat × Nat
  /-- write in progress (R539, 19; none) -/
  writing : Option Checkpoint
  /-- a full checkpoint and a delta that fell due during another write (R539, 19; 0) -/
  queued : Bool × Bool
  /-- requests answered when the next full checkpoint completes (R552, 19; none) -/
  nowReqs : List ReplyTo
  /-- next slot of each kind: full, delta (R539, 19; 0) -/
  nextSlot : Bool × Bool
  /-- that STALE has begun has been reported since the last completed write (R542, 19; 0) -/
  stale : Bool
  /-- yield in progress, with the PAIR_YIELD request when there is one (R549, 19; none) -/
  yieldStep : YieldStep
  /-- request of the yield in progress (R549, 19; none) -/
  yieldReq : Option ReplyTo
  /-- LC of the yield's current step (R549, 19; 0) -/
  yieldAt : Nat
  /-- heartbeat frame last sent, 32 bits (R532, 19; 0) -/
  hbSent : Word
  /-- PD_AON time of that frame (R532, 19; 0) -/
  hbSentAt : Nat
  /-- ownership word and its copy in the pair memory, in words (R531, 19; DC 9: blank) -/
  ownWords : Vector (List Word) 2
  /-- full slots 0 and 1, delta slots 0 and 1 of the pair memory, in words (R538, 19; DC 9: blank) -/
  slots : Vector (List Word) 4
  /-- LC of the claim (R542, 19; 0) -/
  claimAt : Nat
  /-- CAUSE of the CHECKPOINT_FAIL that this start owes: no valid checkpoint, or a failed claim (R548, R553, 19; none) -/
  claimCause : Option (BitVec 2)
  /-- TK is provisional (R545, 19; 0) -/
  provisional : Bool
  /-- what a start from a checkpoint still has to restore (R547, 19; none) -/
  restore : Option Restore
  deriving DecidableEq, Repr

/-- One margin of the ageing monitor (R561, R562). -/
structure Margin where
  /-- THRESHOLD, signed 32 bits (R561, 20; table "Margins") -/
  threshold : Int
  /-- LIMIT, signed 32 bits (R561, 20; table "Margins") -/
  limit : Int
  /-- ACT_EN, 1 bit (R571, 20; 1) -/
  actEn : Bool
  /-- SAMPLES today (R571, 20; 0) -/
  samples : Nat
  /-- sum of today's samples (R562, 20; 0) -/
  sum : Int
  /-- daily values, newest first, at most 30 (R562, 20; empty) -/
  daily : List Rat
  /-- DAILY_COUNT, 16 bits (R571, 20; 0) -/
  dailyCount : Nat
  /-- STEPS, 5 bits (R571, 20; 0) -/
  steps : Nat
  /-- delay taps have been re-centred once, so the next action applies (R564, 20; 0) -/
  recentred : Bool
  /-- LC at which its next sample is due, for a margin sampled at an interval of its own (R561, 20; 0) -/
  nextAt : Nat
  deriving DecidableEq, Repr

/-- The transient faults of one unit: LC of the last two counted (R555). -/
structure Unit2 where
  /-- LC of the previous counted transient (R555, 20; none) -/
  last : Option Nat
  /-- LC of the second-previous counted transient (R555, 20; none) -/
  prev : Option Nat
  /-- LC of the counted transient before that one (R18, 01; none) -/
  old : Option Nat
  /-- TRANSIENTS, INSTABILITY, CM_FAULT; OC_TRIPS, RESTARTS, REG_LOST; or REF_FAILS, CURRENT_FAULTS (R560, 20; 0) -/
  counts : Vector Word 3
  deriving DecidableEq, Repr

/-- Faults, counters and ageing. -/
structure Health where
  /-- transients of each channel (R555, 20; none) -/
  chans : Vector Unit2 384
  /-- transients of each sett (R555, 20; none) -/
  setts : Vector Unit2 48
  /-- transients of each den (R555, 20; none) -/
  dens : Vector Unit2 4
  /-- uncorrectable ECC errors of each queue, 32 bits, saturating (R560, 20; 0) -/
  queueUncorr : Vector Word 76
  /-- DRAM corrected and uncorrectable ECC errors, 32 bits each, saturating (R560, 20; 0) -/
  dram : Word × Word
  /-- the 24 margins (R561, 20; as in Margin) -/
  margins : Vector Margin 24
  /-- HORIZON_D, 16 bits (R571, 20; 90) -/
  horizon : BitVec 16
  /-- BASELINE, 1 bit (R570, 20; 1) -/
  baseline : Bool
  /-- hours left of the baseline when LC was 0, from which BASELINE_H is reckoned, 7 bits (R563, R570, 20; 72) -/
  baselineH : Nat
  /-- powered hours when LC was 0, from which POWERED_H is reckoned, 32 bits (R563, R570, 20; 0) -/
  poweredH : Word
  /-- LC of the last daily fold (R562, 20; 0) -/
  foldAt : Nat
  /-- VCORE_FAILED, 1 bit (R570, 20; 0) -/
  vcoreFailed : Bool
  /-- PD_AON time of the last VCORE_REQ notice whose outcome is awaited (R67, 03; none) -/
  vcoreAt : Option Nat
  /-- PRESETS_ALLOWED, 6 bits (R570, 20; 0x3F) -/
  presets : BitVec 6
  /-- REFRESH_X of each DRAM die, 2 bits (R565, R570, 20; 0) -/
  refresh : Vector (BitVec 2) 2
  /-- transmit re-tuning steps taken on each port (R565, 20; 0) -/
  retunes : Vector Nat 32
  /-- smallest eye last measured on each port: EYE_H, EYE_W (R561, 20; none) -/
  eyes : Vector (Option (Nat × Nat)) 32
  /-- LC at which the ageing monitor's next scan of each lane is due (R561, 20; 0) -/
  eyeNext : Vector Nat 32
  /-- restorations pending: LEVEL, INDEX and the TK of the plan-frame boundary (R567, 20; none) -/
  restores : List (BitVec 2 × Nat × Nat)
  deriving DecidableEq, Repr

def Mon.reset : Mon :=
  { tripped := false, held := 0, invalid := false, fallback := false, invalidRun := 0, plausRun := 0, chkInvalid := 0, histP := [],
    histF := [], m := none, x := 0, fit := false }

def Si.reset : Si := { filtered := false, run := 0, level := false, held := 0 }

def So.reset : So :=
  { on := false, resetSeen := false, sofb := false, differSince := none, lowSince := 0, width := 200, period := 20,
    tFall := 0, tRise := 0, skipped := 0, due := false, dueFrom := 0, dueCount := 0, pulse := none, pulseTaken := false,
    dueWidth := 200, pulseWidth := 200, readUntil := 0 }

def Conn.reset : Conn :=
  { synced := false, resync := false, lastSeq := 0, acceptAt := 0, demand := 0, held := 0, lost := false,
    okSince := 0, sendSeq := 0, sentBits := 0, sentAt := 0, extraSent := false }

def Owl.reset : Owl :=
  { running := false, staged := [], block := none, scv := 0, scvBad := false, ready := false, testHold := false, mismatch := false,
    soFault := false, fail := false, mons := Vector.replicate 16 Mon.reset, sis := Vector.replicate 4 Si.reset,
    discSince := Vector.replicate 2 none, siDisc := 0, discHeld := Vector.replicate 2 0, sos := Vector.replicate 8 So.reset,
    conns := Vector.replicate 8 Conn.reset, demand := 0, missed := 0, cycles := 0, pulseFail := 0, cycleAt := 0,
    commEn := false, alive := false }

def KeySlot.reset : KeySlot := { key := none, roles := 0, fails := 0, lockedUntil := none }

def Prot.reset : Prot :=
  { slots := Vector.replicate 8 KeySlot.reset, proposals := Vector.replicate 8 none, cfg := 0, debugUntil := none,
    staged := [], stage := .empty, result := 0, fwVersion := 0, switching := false }

def Pair.reset : Pair :=
  { word0 := 48 <<< 3, word1 := (24 <<< 16) ||| (2 <<< 10), owns := false, ownLine := false, term := 0,
    standby := false, cold := false, armed := false, hbAt := 0, hbHeard := false, partner := .unseen, partnerSent := 0, syncSeen := 0,
    syncing := false, unfit := false, tqGaveUp := false, coldNext := none, lastSync := 0, retainValid := false,
    retainLanes := Vector.replicate 32 none, retainPorts := [], retainMaps := Vector.replicate 66 [], retainDram := false, writeNo := 0, writeSeq := 0,
    writeFails := 0, takeovers := 0, fullAt := none, deltaAt := none, dueAt := (0, 0), writing := none,
    queued := (false, false), nowReqs := [], nextSlot := (false, false), stale := false, yieldStep := .none, yieldReq := none, yieldAt := 0, hbSent := 0,
    hbSentAt := 0, ownWords := Vector.replicate 2 [], slots := Vector.replicate 4 [], claimAt := 0, claimCause := none,
    provisional := false, restore := none }

def Margin.reset (threshold limit : Int) : Margin :=
  { threshold := threshold, limit := limit, actEn := true, samples := 0, sum := 0, daily := [], dailyCount := 0,
    steps := 0, recentred := false, nextAt := 0 }

/-- The margins in the order of the table "Margins" (R561). -/
def Margin.table : Vector Margin 24 :=
  #v[.reset (-20000) (-40000), .reset (-20000) (-40000), .reset (-20000) (-40000), .reset (-20000) (-40000),
     .reset 25 8, .reset 25 8, .reset 25 8, .reset 25 8, .reset 300 500, .reset 300 500, .reset 300 500, .reset 300 500,
     .reset 200 80, .reset 200 80, .reset 200 80, .reset 200 80, .reset 60 30, .reset 16 8, .reset 60 30, .reset 16 8,
     .reset 96 32, .reset 96 32, .reset 12 16, .reset 120 180]

def Unit2.reset : Unit2 := { last := none, prev := none, old := none, counts := Vector.replicate 3 0 }

def Health.reset : Health :=
  { chans := Vector.replicate 384 Unit2.reset, setts := Vector.replicate 48 Unit2.reset,
    dens := Vector.replicate 4 Unit2.reset, queueUncorr := Vector.replicate 76 0, dram := (0, 0),
    margins := Margin.table, horizon := 90, baseline := true, baselineH := 72, poweredH := 0, foldAt := 0, vcoreFailed := false,
    vcoreAt := none, presets := 0x3F, refresh := Vector.replicate 2 0, retunes := Vector.replicate 32 0,
    eyes := Vector.replicate 32 none, eyeNext := Vector.replicate 32 0, restores := [] }

end Sys2Proof.Machine
end

