-- ==== Sys2Proof/Machine/State.lean ====
section
/-! DEFINITION. The state of the NH384 as one structure of plain data, the reasons a step can stop, and the state
after reset. -/

namespace Sys2Proof.Machine

/-- The whole block. -/
structure State where
  factory : Factory
  sup : Sup
  boot : Startup
  time : Time
  chans : Vector Channel 384
  setts : Vector Sett 48
  chains : Vector Chain 48
  coders : Vector Coder 48
  dens : Vector Den 4
  plan : Plan
  tdc : Tdc
  quad : Vector Slot 24
  red : Red
  hoard : Hoard
  lanes : Lanes
  fab : Fab
  cmd : Cmd
  owl : Owl
  prot : Prot
  pair : Pair
  health : Health
  /-- Counter from which each free value is drawn: the model's own, not the spec's (0; DC 2). -/
  free : Nat
  /-- The commands that wait, first in first out (empty). -/
  pending : List Instr
  deriving DecidableEq, Repr

/-- Reasons a step can stop with a fault. No command of this block faults: every event of the spec is carried out or,
where what it names cannot occur in the state, leaves the state as it is (log entry 1). The one constructor stands for
a queue the model cannot hold and is raised by nothing: safe. -/
inductive Fault where
  /-- Raised by nothing (safe). -/
  | impossible
  deriving DecidableEq, Repr

/-- Reasons a command has no next state. -/
inductive Refusal where
  /-- A command with no meaning yet, by its mnemonic; raised by the dispatch alone (safe: nothing is claimed of it). -/
  | notModelled (mnemonic : String)
  /-- A JTAG instruction of the debug access beyond boundary scan: R61 names the access and gives it no effect; raised
  by JTAG_INSTRUCTION (safe: nothing is claimed of the state after it). -/
  | debugInstruction
  deriving DecidableEq, Repr

/-- The block right after reset: unpowered, every register at the value the spec states for reset (log entry 4 where
it states none). -/
def State.reset : State :=
  { factory := Factory.reset, sup := Sup.reset, boot := Startup.reset, time := Time.reset,
    chans := Vector.replicate 384 Channel.reset, setts := Vector.replicate 48 Sett.reset,
    chains := Factory.reset.tAnPs.map Chain.reset, coders := Vector.replicate 48 Coder.reset,
    dens := Vector.replicate 4 Den.reset, plan := Plan.reset, tdc := Tdc.reset,
    quad := Vector.replicate 24 Slot.reset, red := Red.reset, hoard := Hoard.reset, lanes := Lanes.reset,
    fab := Fab.reset, cmd := Cmd.reset, owl := Owl.reset, prot := Prot.reset, pair := Pair.reset,
    health := Health.reset, free := 0, pending := [] }

end Sys2Proof.Machine
end

