-- ==== Sys2Proof/Machine/Operands.lean ====
section
/-! DEFINITION. Operand forms: fields of words, packing of words, signed values, bytes, masks and lists, and the
saturating counters (R4, R445, R558). -/

namespace Sys2Proof.Machine

/-- Bits [hi:lo] of a word, as a number. -/
def bits (w : Word) (hi lo : Nat) : Nat := (w.toNat / 2 ^ lo) % 2 ^ (hi + 1 - lo)

/-- Bit i of a word. -/
def bit (w : Word) (i : Nat) : Bool := w.getLsbD i

/-- A number of `n` bits read as two's complement. -/
def signedOf (n v : Nat) : Int := if v < 2 ^ (n - 1) then (v : Int) else (v : Int) - 2 ^ n

/-- Bits [hi:lo] of a word in two's complement. -/
def sbits (w : Word) (hi lo : Nat) : Int := signedOf (hi + 1 - lo) (bits w hi lo)

/-- An integer reduced to its low `n` bits. -/
def lowBits (n : Nat) (v : Int) : Nat := (v % 2 ^ n).toNat

/-- A field of `n` bits at bit `lo` of a word under construction. -/
def fld (lo n v : Nat) : Nat := (v % 2 ^ n) * 2 ^ lo

def b2n (b : Bool) : Nat := if b then 1 else 0

/-- One bit of a word under construction. -/
def flag (lo : Nat) (b : Bool) : Nat := b2n b * 2 ^ lo

/-- A word from a number, modulo 2^32. -/
def w32 (n : Nat) : Word := BitVec.ofNat 32 n

/-- A word from an integer in two's complement. -/
def w32i (v : Int) : Word := BitVec.ofInt 32 v

/-- The two words of a 64-bit value, low word first (R4). -/
def words64 (n : Nat) : List Word := [w32 n, w32 (n / 2 ^ 32)]

/-- A 64-bit value from its two words, low word first. -/
def nat64 (lo hi : Word) : Nat := lo.toNat + hi.toNat * 2 ^ 32

/-- Parameter word k; a missing word reads as 0. -/
def pw (ws : List Word) (k : Nat) : Word := ws.getD k 0

/-- The words of a list all hold 0 from position k on. -/
def zeroFrom (ws : List Word) (k : Nat) : Bool := (ws.drop k).all (· == 0)

/-- Bits [hi:lo] of a word are 0: a reserved field as R6 wants it. -/
def resv (w : Word) (hi lo : Nat) : Bool := bits w hi lo == 0

/-- The bytes of a word, least significant first (R4). -/
def wordBytes (w : Word) : List Byte :=
  [w.extractLsb' 0 8, w.extractLsb' 8 8, w.extractLsb' 16 8, w.extractLsb' 24 8]

def bytesOfWords (ws : List Word) : List Byte := ws.flatMap wordBytes

/-- A word from four bytes, least significant first. -/
def wordOf (a b c d : Byte) : Word := w32 (a.toNat + b.toNat * 256 + c.toNat * 65536 + d.toNat * 16777216)

/-- Whole words of a list of bytes; an incomplete word at the end is dropped. -/
def wordsOfBytes : List Byte → List Word
  | a :: b :: c :: d :: t => wordOf a b c d :: wordsOfBytes t
  | _ => []

/-- The `n` bytes of a number, least significant first. -/
def leBytes (n v : Nat) : List Byte := (List.range n).map fun i => BitVec.ofNat 8 (v / 256 ^ i)

/-- The number that bytes spell, least significant first. -/
def leNat (bs : List Byte) : Nat := bs.foldr (fun b acc => b.toNat + 256 * acc) 0

/-- The number that bytes spell, most significant first. -/
def beNat (bs : List Byte) : Nat := bs.foldl (fun acc b => 256 * acc + b.toNat) 0

/-- The indexes below n whose mask bit is 1, ascending. -/
def maskFins (n m : Nat) : List (Fin n) := (List.finRange n).filter fun i => m.testBit i.val

/-- The mask of the indexes below n that satisfy p. -/
def maskOf (n : Nat) (p : Fin n → Bool) : Nat :=
  (List.finRange n).foldl (fun acc i => if p i then acc + 2 ^ i.val else acc) 0

/-- Number of ones among the low n bits. -/
def popCount (n m : Nat) : Nat := (List.range n).countP fun i => m.testBit i

/-- Entry i of a vector replaced. -/
def vset {α : Type} {n : Nat} (v : Vector α n) (i : Fin n) (x : α) : Vector α n := v.set i x

/-- Entry i of a vector changed by f. -/
def vmod {α : Type} {n : Nat} (v : Vector α n) (i : Fin n) (f : α → α) : Vector α n := v.set i (f v[i])

/-- Every entry of a vector changed by f, which sees its index. -/
def vmapI {α β : Type} {n : Nat} (v : Vector α n) (f : Fin n → α → β) : Vector β n := Vector.ofFn fun i => f i v[i]

/-- A state after f has been applied for each index of a list, in order. -/
def forEach {α σ : Type} (l : List α) (f : σ → α → σ) (s : σ) : σ := l.foldl f s

/-- A counter that holds at its largest value (R558). -/
def satInc {n : Nat} (c : BitVec n) : BitVec n := if c = BitVec.allOnes n then c else c + 1

/-- k added to a counter that holds at its largest value (R558). -/
def satAdd {n : Nat} (c : BitVec n) (k : Nat) : BitVec n := BitVec.ofNat n (min (c.toNat + k) (2 ^ n - 1))

/-- SAT of a counter: it holds its largest value (R558; log entry 13). -/
def satOf {n : Nat} (c : BitVec n) : Bool := c == BitVec.allOnes n

/-- Sequence a is older than sequence b (R321). -/
def seqOlder (a b : BitVec 48) : Bool :=
  let d := (b - a).toNat
  1 ≤ d && d < 2 ^ 47

/-- a is older than b in serial comparison modulo 2^32 (R321, R456). -/
def serialOlder (a b : Word) : Bool :=
  let d := (b - a).toNat
  1 ≤ d && d < 2 ^ 31

/-- The two words a 48-bit sequence takes, with STREAM in bits [23:16] of the second (R347). -/
def seqWords (q : BitVec 48) (stream : Nat) : List Word :=
  [w32 q.toNat, w32 (fld 0 16 (q.toNat / 2 ^ 32) + fld 16 8 stream)]

/-- a / b rounded to the nearest integer, halves upward; b > 0. -/
def roundDiv (a : Int) (b : Nat) : Int := (2 * a + b) / (2 * b)

/-- A fraction rounded to the nearest integer, halves upward. -/
def ratRound (q : Rat) : Int := (2 * q + 1).floor / 2

/-- A value held within bounds. -/
def clamp (lo hi v : Int) : Int := if v < lo then lo else if hi < v then hi else v

/-- A square root rounded down, by halving an interval. -/
def isqrtGo : Nat → Nat → Nat → Nat → Nat
  | 0, lo, _, _ => lo
  | k + 1, lo, hi, n =>
    let mid := (lo + hi + 1) / 2
    if mid * mid ≤ n then isqrtGo k mid hi n else isqrtGo k lo (mid - 1) n

/-- The square root of n < 2^256, rounded down. -/
def isqrt (n : Nat) : Nat := isqrtGo 129 0 (2 ^ 128) n

/-- Insertion of a pair into a list whose keys rise strictly; an equal key is replaced. -/
def putAt {α : Type} (k : Nat) (v : α) : List (Nat × α) → List (Nat × α)
  | [] => [(k, v)]
  | (j, x) :: t => if k < j then (k, v) :: (j, x) :: t else if k = j then (k, v) :: t else (j, x) :: putAt k v t

/-- The value at a key. -/
def getAt {α : Type} (k : Nat) (l : List (Nat × α)) : Option α := (l.find? fun p => p.1 == k).map (·.2)

/-- Consecutive values put from key k on. -/
def putAll {α : Type} (k : Nat) : List α → List (Nat × α) → List (Nat × α)
  | [], l => l
  | v :: t, l => putAll (k + 1) t (putAt k v l)

/-- Words 0 to n - 1 of a sparse image; a word not written reads as 0. -/
def imageWords (n : Nat) (l : List (Nat × Word)) : List Word := (List.range n).map fun k => (getAt k l).getD 0

end Sys2Proof.Machine
end

