-- ==== Sys2Proof/Machine/Crypto.lean ====
section
/-! DEFINITION. CRC-32C (R443), SHA-256 and HMAC-SHA-256 (R452, R453, R587) and the check of an ECDSA signature on
P-256 (R521). -/

namespace Sys2Proof.Machine

/-- One bit of a reflected CRC with polynomial `p`. -/
def crcStep (p : Word) (c : Word) : Word := if c.getLsbD 0 then (c >>> 1) ^^^ p else c >>> 1

/-- One byte into a reflected CRC. -/
def crcByte (p : Word) (c : Word) (b : Byte) : Word :=
  (List.range 8).foldl (fun c _ => crcStep p c) (c ^^^ b.setWidth 32)

/-- CRC-32C: polynomial 0x1EDC6F41 reflected, initial value and final XOR 0xFFFFFFFF (R443). -/
def crc32c (bs : List Byte) : Word := bs.foldl (crcByte 0x82F63B78) 0xFFFFFFFF ^^^ 0xFFFFFFFF

/-- CRC-32C of words, each least significant byte first. -/
def crcWords (ws : List Word) : Word := crc32c (bytesOfWords ws)

/-- The eight 32-bit words of a 256-bit number, the highest first. -/
def wordsOf256 (n : Nat) : List Word := (List.range 8).map fun k => w32 (n >>> (224 - 32 * k))

/-- The additive constant of each of the 64 rounds of SHA-256, eight rounds to a number. -/
def shaK : List Word :=
  ([0x428a2f9871374491b5c0fbcfe9b5dba53956c25b59f111f1923f82a4ab1c5ed5,
    0xd807aa9812835b01243185be550c7dc372be5d7480deb1fe9bdc06a7c19bf174,
    0xe49b69c1efbe47860fc19dc6240ca1cc2de92c6f4a7484aa5cb0a9dc76f988da,
    0x983e5152a831c66db00327c8bf597fc7c6e00bf3d5a7914706ca635114292967] ++
   [0x27b70a852e1b21384d2c6dfc53380d13650a7354766a0abb81c2c92e92722c85,
    0xa2bfe8a1a81a664bc24b8b70c76c51a3d192e819d6990624f40e3585106aa070,
    0x19a4c1161e376c082748774c34b0bcb5391c0cb34ed8aa4a5b9cca4f682e6ff3,
    0x748f82ee78a5636f84c878148cc7020890befffaa4506cebbef9a3f7c67178f2]).flatMap wordsOf256

/-- The hash value that SHA-256 starts from. -/
def shaInit : List Word := wordsOf256 0x6a09e667bb67ae853c6ef372a54ff53a510e527f9b05688c1f83d9ab5be0cd19

/-- A word from four bytes, most significant first. -/
def beWord (a b c d : Byte) : Word := wordOf d c b a

def beWords : List Byte → List Word
  | a :: b :: c :: d :: t => beWord a b c d :: beWords t
  | _ => []

def beBytes (w : Word) : List Byte := (wordBytes w).reverse

/-- Padding of a message to whole 64-byte blocks. -/
def shaPad (bs : List Byte) : List Byte :=
  let n := bs.length
  let z := (119 - n % 64) % 64
  bs ++ [0x80] ++ List.replicate z 0 ++ (leBytes 8 (8 * n)).reverse

/-- The message schedule: each new word is put in front, so the list runs newest first. -/
def shaExtend : Nat → List Word → List Word
  | 0, w => w
  | k + 1, w =>
    let a := w.getD 14 0
    let b := w.getD 1 0
    let s0 := a.rotateRight 7 ^^^ a.rotateRight 18 ^^^ (a >>> 3)
    let s1 := b.rotateRight 17 ^^^ b.rotateRight 19 ^^^ (b >>> 10)
    shaExtend k ((w.getD 15 0 + s0 + w.getD 6 0 + s1) :: w)

/-- One round on the eight working words. -/
def shaRound (h : List Word) (kw : Word × Word) : List Word :=
  match h with
  | [a, b, c, d, e, f, g, i] =>
    let s1 := e.rotateRight 6 ^^^ e.rotateRight 11 ^^^ e.rotateRight 25
    let ch := (e &&& f) ^^^ (~~~e &&& g)
    let t1 := i + s1 + ch + kw.1 + kw.2
    let s0 := a.rotateRight 2 ^^^ a.rotateRight 13 ^^^ a.rotateRight 22
    let maj := (a &&& b) ^^^ (a &&& c) ^^^ (b &&& c)
    [t1 + s0 + maj, a, b, c, d + t1, e, f, g]
  | _ => h

def shaBlock (h : List Word) (block : List Word) : List Word :=
  let w := (shaExtend 48 block.reverse).reverse
  let r := (shaK.zip w).foldl shaRound h
  List.zipWith (· + ·) h r

/-- Blocks of sixteen words folded in, for at most `k` blocks. -/
def shaBlocks : Nat → List Word → List Word → List Word
  | 0, h, _ => h
  | k + 1, h, ws => if ws.isEmpty then h else shaBlocks k (shaBlock h (ws.take 16)) (ws.drop 16)

/-- SHA-256, 32 bytes. -/
def sha256 (bs : List Byte) : List Byte :=
  let ws := beWords (shaPad bs)
  (shaBlocks (ws.length / 16) shaInit ws).flatMap beBytes

/-- The first 64 bits of a digest as one value, byte 0 lowest (R587). -/
def digest64 (d : List Byte) : Nat := leNat (d.take 8)

/-- HMAC-SHA-256 with a key of at most 64 bytes. -/
def hmac (key msg : List Byte) : List Byte :=
  let k := key ++ List.replicate (64 - key.length) 0
  let inner := sha256 (k.map (· ^^^ 0x36) ++ msg)
  sha256 (k.map (· ^^^ 0x5C) ++ inner)

/-- The prime of P-256. -/
def p256p : Nat := 0xffffffff00000001000000000000000000000000ffffffffffffffffffffffff
/-- The order of P-256. -/
def p256n : Nat := 0xffffffff00000000ffffffffffffffffbce6faada7179e84f3b9cac2fc632551
/-- The coefficient b of P-256. -/
def p256b : Nat := 0x5ac635d8aa3a93e7b3ebbd55769886bc651d06b0cc53b0f63bce3c3e27d2604b
/-- The base point of P-256. -/
def p256g : Nat × Nat :=
  (0x6b17d1f2e12c4247f8bce6e563a440f277037d812deb33a0f4a13945d898c296,
   0x4fe342e2fe1a7f9b8ee7eb4a7c0f9e162bce33576b315ececbb6406837bf51f5)

/-- b^e mod m for an exponent of at most k bits. -/
def powMod (m : Nat) : Nat → Nat → Nat → Nat
  | 0, _, _ => 1 % m
  | k + 1, b, e =>
    let r := powMod m k (b * b % m) (e / 2)
    if e % 2 = 1 then r * b % m else r

/-- The inverse modulo a prime of 256 bits. -/
def invMod (m a : Nat) : Nat := powMod m 256 (a % m) (m - 2)

/-- Addition on P-256; none is the point at infinity. -/
def p256Add (p q : Option (Nat × Nat)) : Option (Nat × Nat) :=
  match p, q with
  | none, q => q
  | p, none => p
  | some (x1, y1), some (x2, y2) =>
    if x1 = x2 ∧ (y1 + y2) % p256p = 0 then none
    else
      let l :=
        if x1 = x2 then (3 * x1 * x1 + p256p - 3) * invMod p256p (2 * y1) % p256p
        else (y2 + p256p - y1) * invMod p256p (x2 + p256p - x1) % p256p
      let x3 := (l * l + 2 * p256p - x1 - x2) % p256p
      some (x3, (l * (x1 + p256p - x3) + p256p - y1) % p256p)

/-- k·P for a scalar of at most n bits. -/
def p256Mul : Nat → Nat → Option (Nat × Nat) → Option (Nat × Nat)
  | 0, _, _ => none
  | n + 1, k, p =>
    let r := p256Mul n (k / 2) (p256Add p p)
    if k % 2 = 1 then p256Add r p else r

/-- The point lies on P-256. -/
def p256On (q : Nat × Nat) : Bool :=
  q.1 < p256p && q.2 < p256p && (q.2 * q.2) % p256p == (q.1 * q.1 * q.1 + (p256p - 3) * q.1 + p256b) % p256p

/-- ECDSA verification of (r, s) over a digest with public point q. -/
def p256Verify (q : Nat × Nat) (digest : List Byte) (r s : Nat) : Bool :=
  let z := beNat digest
  let w := invMod p256n s
  let u1 := z * w % p256n
  let u2 := r * w % p256n
  p256On q && 1 ≤ r && r < p256n && 1 ≤ s && s < p256n &&
    match p256Add (p256Mul 256 u1 (some p256g)) (p256Mul 256 u2 (some q)) with
    | none => false
    | some (x, _) => x % p256n == r

end Sys2Proof.Machine
end

