-- ==== Sys2Proof/Machine/Blocks.lean ====
section
/-! DEFINITION. The block coder's arithmetic: quantisation, prediction, the depth search, the block layout and its
decoding (R356 to R366). -/

namespace Sys2Proof.Machine

/-- One byte into the CRC16 of R363: x^16 + x^12 + x^5 + 1, not reflected. -/
def crc16Byte (c : BitVec 16) (b : Byte) : BitVec 16 :=
  (List.range 8).foldl (fun c _ => if c.getLsbD 15 then (c <<< 1) ^^^ 0x1021 else c <<< 1)
    (c ^^^ (b.setWidth 16 <<< 8))

/-- CRC16 of R363: initial value 0xFFFF, no final XOR. -/
def crc16 (bs : List Byte) : BitVec 16 := bs.foldl crc16Byte 0xFFFF

/-- One byte into the CRC8 of R363: x^8 + x^2 + x + 1, not reflected. -/
def crc8Byte (c : Byte) (b : Byte) : Byte :=
  (List.range 8).foldl (fun c _ => if c.getLsbD 7 then (c <<< 1) ^^^ 0x07 else c <<< 1) (c ^^^ b)

/-- CRC8 of R363: initial value 0x00. -/
def crc8 (bs : List Byte) : Byte := bs.foldl crc8Byte 0

/-- Block bytes by RATIO (R356). -/
def blockBytes (ratio : BitVec 2) : Nat := if ratio = 0 then 48 else if ratio = 1 then 64 else 72

/-- W_MAX by RATIO (R356). -/
def widthMax (ratio : BitVec 2) : Nat := if ratio = 0 then 9 else if ratio = 1 then 13 else 15

/-- The coded value of v at depth d (R358). -/
def quantise (d : Nat) (v : Int) : Int :=
  if d = 0 then v else clamp (-(2 ^ (23 - d))) (2 ^ (23 - d) - 1) ((v + 2 ^ (d - 1)) / 2 ^ d)

/-- The reconstructed value (R358). -/
def restore (d : Nat) (u : Int) : Int := u * 2 ^ d

/-- The values of a block at a depth, an INV sample (none) repeating the value before it (R358, R361). -/
def quantiseFrom (d : Nat) : Int → List (Option Int) → List Int
  | _, [] => []
  | _, some v :: t => quantise d v :: quantiseFrom d (quantise d v) t
  | p, none :: t => p :: quantiseFrom d p t

/-- What stands before the block for a substitute: the history, else the first valid sample, else 0 (R361). -/
def substitute (d : Nat) (hist : Option (Int × Int)) (vals : List (Option Int)) : Int :=
  match hist with
  | some (h, _) => quantise d h
  | none => quantise d ((vals.filterMap id).headD 0)

/-- The 32 coded values at a depth: a short block repeats its last sample (R361). -/
def codedValues (d : Nat) (hist : Option (Int × Int)) (vals : List (Option Int)) : List Int :=
  let u := quantiseFrom d (substitute d hist vals) vals
  u ++ List.replicate (32 - u.length) (u.getLastD 0)

/-- The residual of a sample from the two before it (R359). -/
def residual (order : Nat) (u p1 p2 : Int) : Int :=
  match order with
  | 0 => u
  | 1 => u - p1
  | _ => u - 2 * p1 + p2

def residualsFrom (order : Nat) : Int → Int → List Int → List Int
  | _, _, [] => []
  | p1, p2, u :: t => residual order u p1 p2 :: residualsFrom order u p1 t

/-- The residuals of a block: of samples 0 to 31, or of 1 to 31 without history (R359). -/
def residuals (order : Nat) (hist : Option (Int × Int)) (d : Nat) (u : List Int) : List Int :=
  match hist, u with
  | some (h1, h2), _ => residualsFrom order (quantise d h1) (quantise d h2) u
  | none, u0 :: u1 :: t => residual (min order 1) u1 u0 0 :: residualsFrom order u1 u0 t
  | none, _ => []

/-- A value fits w bits of two's complement, and 0 bits when it is 0 (R362). -/
def fitsWidth (w : Nat) (r : Int) : Bool :=
  if w = 0 then r == 0 else decide (-(2 ^ (w - 1)) ≤ r) && decide (r ≤ 2 ^ (w - 1) - 1)

/-- The smallest width every residual fits (R362). -/
def widthOf (rs : List Int) : Nat := ((List.range 32).find? fun w => rs.all (fitsWidth w)).getD 32

/-- The best order at a depth: the smallest width within W_MAX, the lower order on a tie (R362). -/
def bestOrder (wmax : Nat) (hist : Option (Int × Int)) (d : Nat) (u : List Int) : Option (Nat × Nat) :=
  [0, 1, 2].foldl (fun best o =>
    let w := widthOf (residuals o hist d u)
    if w ≤ wmax && (match best with
      | none => true
      | some (_, b) => decide (w < b)) then some (o, w) else best) none

/-- A coded block with what the coder chose, the history it leaves, and whether it stands for one that failed its decode
check (R362, R364, R370). -/
structure CodedBlock where
  depth  : Nat
  order  : Nat
  exp    : Nat
  bytes  : List Byte
  hist   : Option (Int × Int)
  failed : Bool
  deriving DecidableEq, Repr

/-- Residuals packed from bit `lo` on (R357). -/
def packResiduals (w : Nat) : Nat → List Int → Nat
  | _, [] => 0
  | lo, r :: t => lowBits w r * 2 ^ lo + packResiduals w (lo + w) t

/-- Three bytes of a VALUE, an INV sample as 0x800000 (R363). -/
def valueBytes (v : Option Int) : List Byte := leBytes 3 (lowBits 24 (v.getD (-8388608)))

/-- CRC16 over the samples of a block (R363). -/
def samplesCrc (vals : List (Option Int)) : BitVec 16 := crc16 (vals.flatMap valueBytes)

/-- CRC8 over the coded payload, block bytes 0 to 2 and 6 to the end (R363). -/
def payloadCrc (bs : List Byte) : Byte := crc8 (bs.take 3 ++ bs.drop 6)

/-- Header and RESID of a block as one number, both checks 0 (R356, R357). -/
def blockNumber (depth order exp : Nat) (hist : Option (Int × Int)) (flags : Byte) (mask : Nat) (u : List Int) : Nat :=
  fld 0 5 exp + fld 5 4 depth + flag 9 hist.isNone + fld 10 2 order + fld 12 8 (flags &&& 0xFC).toNat + fld 48 32 mask +
  2 ^ 80 * (match hist with
    | some _ => packResiduals exp 0 (residuals order hist depth u)
    | none => lowBits 24 (u.headD 0) + packResiduals exp 24 (residuals order hist depth u))

/-- INV_MASK of the samples of a block (R356). -/
def invMask (vals : List (Option Int)) : Nat := maskOf 32 fun i => vals[i.val]? == some none

/-- The depth search: the first depth at which an order fits (R362). -/
def searchDepth (wmax : Nat) (hist : Option (Int × Int)) (vals : List (Option Int)) : Nat × Nat × Nat :=
  ((List.range 16).findSome? fun d =>
    (bestOrder wmax hist d (codedValues d hist vals)).map fun b => (d, b.1, b.2)).getD (15, 0, 0)

/-- The bytes of a block with both checks in place (R356, R363). -/
def withChecks (bs : List Byte) (vals : List (Option Int)) : List Byte :=
  bs.take 3 ++ [payloadCrc bs] ++ leBytes 2 (samplesCrc vals).toNat ++ bs.drop 6

/-- One block of up to 32 samples; none is an INV sample (R356 to R363). -/
def encodeBlock (ratio : BitVec 2) (hist : Option (Int × Int)) (vals : List (Option Int)) (flags : Byte) : CodedBlock :=
  let (d, o, w) := searchDepth (widthMax ratio) hist vals
  let u := codedValues d hist vals
  let v := (u.take vals.length).map (restore d)
  { depth := d, order := o, exp := w
    bytes := withChecks (leBytes (blockBytes ratio) (blockNumber d o w hist flags (invMask vals) u)) vals
    hist := some (v.getLastD 0, v.dropLast.getLastD 0), failed := false }

/-- Coded values rebuilt from residuals (R359, R364). -/
def rebuildFrom (order : Nat) : Int → Int → List Int → List Int
  | _, _, [] => []
  | p1, p2, r :: t =>
    let u := match order with
      | 0 => r
      | 1 => r + p1
      | _ => r + 2 * p1 - p2
    u :: rebuildFrom order u p1 t

/-- What a decoder reads from a block: the check code of DECODE_TEST, the choices, and the samples, none for INV
(R364, R365, R374). -/
structure Decoded where
  check : Nat
  depth : Nat
  order : Nat
  exp   : Nat
  flags : Byte
  vals  : List (Option Int)
  deriving DecidableEq, Repr

/-- One block decoded for n real samples (R364, R365). -/
def decodeBlock (ratio : BitVec 2) (hist : Int × Int) (n : Nat) (bs : List Byte) : Decoded :=
  let b := leNat bs
  let f := fun (lo k : Nat) => b / 2 ^ lo % 2 ^ k
  let w := f 0 5
  let d := f 5 4
  let noHist := f 9 1 == 1
  let o := f 10 2
  let mask := f 48 32
  let res := fun (lo : Nat) => if w = 0 then 0 else signedOf w (f lo w)
  let u := if noHist then
      let a := signedOf 24 (f 80 24)
      let r1 := res 104
      let u1 := if min o 1 = 0 then r1 else r1 + a
      a :: u1 :: rebuildFrom o u1 a ((List.range 30).map fun i => res (104 + (i + 1) * w))
    else rebuildFrom o (quantise d hist.1) (quantise d hist.2) ((List.range 32).map fun i => res (80 + i * w))
  let vals := ((List.range n).zip u).map fun (i, x) => if mask.testBit i then none else some (restore d x)
  let bad := f 20 4 != 0 || o == 3 || decide (widthMax ratio < w) || decide (24 - widthMax ratio < d)
  let check :=
    if bad then 3
    else if d = 0 then (if (samplesCrc vals).toNat = f 32 16 then 0 else 2)
    else if (payloadCrc bs).toNat = f 24 8 then 1 else 2
  { check := check, depth := d, order := o, exp := w, flags := BitVec.ofNat 8 (f 12 8), vals := vals }

/-- The samples that a block coded at a depth stands for; none is INV (R358, R361, R364). -/
def codedSamples (d : Nat) (hist : Option (Int × Int)) (vals : List (Option Int)) : List (Option Int) :=
  (vals.zip (codedValues d hist vals)).map fun (v, u) => v.map fun _ => restore d u

/-- The block that takes the place of one that failed its decode check: every sample INV, no history left (R370). -/
def failedBlock (ratio : BitVec 2) (hist : Option (Int × Int)) (n : Nat) (flags : Byte) : CodedBlock :=
  { depth := 0, order := 0, exp := 0
    bytes := withChecks (leBytes (blockBytes ratio) (blockNumber 0 0 0 hist flags (2 ^ 32 - 1) [])) (List.replicate n none)
    hist := none, failed := true }

/-- A block is decoded again and compared with what it stands for before it is written (R370). -/
def checkedBlock (ratio : BitVec 2) (hist : Option (Int × Int)) (vals : List (Option Int)) (flags : Byte) : CodedBlock :=
  let b := encodeBlock ratio hist vals flags
  let x := decodeBlock ratio (hist.getD (0, 0)) vals.length b.bytes
  if decide (x.check < 2) && x.vals == codedSamples b.depth hist vals then b else failedBlock ratio hist vals.length flags

/-- The flags of a block's samples: OVR, STL, TU, LP, CALX and RET of FLAGS, and RP with a depth above 0 (R366). -/
def Decoded.sampleFlags (x : Decoded) : Nat := (x.flags &&& 0xFC).toNat + b2n (0 < x.depth)

/-- The decoded samples as words under R7: INV by the mask; all INV when the check failed (R364 to R366). A reconstruction of
−8,388,608 is delivered as 0x800001 with OVR (R8). -/
def Decoded.words (x : Decoded) : List Word :=
  x.vals.map fun v =>
    if 2 ≤ x.check then 0x80000002
    else
      match v with
      | none => w32 (0x80000000 + (x.sampleFlags ||| 2))
      | some a =>
        if a = -8388608 then w32 (0x80000100 + (x.sampleFlags ||| 0x80)) else w32 (fld 8 24 (lowBits 24 a) + x.sampleFlags)

end Sys2Proof.Machine
end

