-- ==== Sys2Proof/Machine/Ops.lean ====
section
/-! DEFINITION. The shared operations of the block: updates of one unit, network time, notices, records and rings,
watermarks, and the outcomes of a meaning. -/

namespace Sys2Proof.Machine

/-- What a meaning answers. -/
abbrev Out := Host.Outcome State Fault Refusal

/-- An event that cannot occur in the state leaves it as it is (log entry 1). -/
def guardNext (p : Bool) (s s' : State) : Out := .next (if p then s' else s)

def State.modSup (s : State) (f : Sup → Sup) : State := { s with sup := f s.sup }
def State.modBoot (s : State) (f : Startup → Startup) : State := { s with boot := f s.boot }
def State.modTime (s : State) (f : Time → Time) : State := { s with time := f s.time }
def State.modChan (s : State) (c : Chan) (f : Channel → Channel) : State := { s with chans := vmod s.chans c f }
def State.modSett (s : State) (k : SettId) (f : Sett → Sett) : State := { s with setts := vmod s.setts k f }
def State.modChain (s : State) (k : SettId) (f : Chain → Chain) : State := { s with chains := vmod s.chains k f }
def State.modCoder (s : State) (k : SettId) (f : Coder → Coder) : State := { s with coders := vmod s.coders k f }
def State.modDen (s : State) (d : DenId) (f : Den → Den) : State := { s with dens := vmod s.dens d f }
def State.modPlan (s : State) (f : Plan → Plan) : State := { s with plan := f s.plan }
def State.modTdc (s : State) (f : Tdc → Tdc) : State := { s with tdc := f s.tdc }
def State.modSlot (s : State) (q : Fin 24) (f : Slot → Slot) : State := { s with quad := vmod s.quad q f }
def State.modRed (s : State) (f : Red → Red) : State := { s with red := f s.red }
def State.modPrj (s : State) (p : Fin 64) (f : Prj → Prj) : State :=
  s.modRed fun r => { r with prjs := vmod r.prjs p f }
def State.modHoard (s : State) (f : Hoard → Hoard) : State := { s with hoard := f s.hoard }
def State.modStream (s : State) (t : Fin 54) (f : Stream → Stream) : State :=
  s.modHoard fun h => { h with streams := vmod h.streams t f }
def State.modQueue (s : State) (q : Fin 76) (f : Queue → Queue) : State :=
  s.modHoard fun h => { h with queues := vmod h.queues q f }
def State.modLane (s : State) (p : Port) (f : Lane → Lane) : State :=
  { s with lanes := { s.lanes with lanes := vmod s.lanes.lanes p f } }
def State.modFab (s : State) (f : Fab → Fab) : State := { s with fab := f s.fab }
def State.modPort (s : State) (p : Port) (f : FabPort → FabPort) : State :=
  s.modFab fun b => { b with ports := vmod b.ports p f }
def State.modClass (s : State) (p : Port) (c : Fin 6) (f : PortClass → PortClass) : State :=
  s.modPort p fun q => { q with classes := vmod q.classes c f }
def State.modUplink (s : State) (u : Fin 8) (f : Uplink → Uplink) : State :=
  s.modFab fun b => { b with uplinks := vmod b.uplinks u f }
def State.modCmd (s : State) (f : Cmd → Cmd) : State := { s with cmd := f s.cmd }
def State.modOwl (s : State) (f : Owl → Owl) : State := { s with owl := f s.owl }
def State.modProt (s : State) (f : Prot → Prot) : State := { s with prot := f s.prot }
def State.modPair (s : State) (f : Pair → Pair) : State := { s with pair := f s.pair }
def State.modHealth (s : State) (f : Health → Health) : State := { s with health := f s.health }

def State.lane (s : State) (p : Port) : Lane := s.lanes.lanes[p]
def State.prj (s : State) (p : Fin 64) : Prj := s.red.prjs[p]
def State.port (s : State) (p : Port) : FabPort := s.fab.ports[p]

/-- LC as a number (R226). -/
def State.lcN (s : State) : Nat := s.time.lc.toNat

/-- TK as a number (R195). -/
def State.tkN (s : State) : Nat := s.time.tk.toNat

/-- The sett of a channel (R3). -/
def settOf (c : Chan) : SettId := ⟨c.val / 8, by omega⟩

/-- The den of a sett (R3). -/
def denOf (k : SettId) : DenId := ⟨k.val / 12, by omega⟩

/-- Channel j of sett k (R3). -/
def chanOf (k : SettId) (j : Fin 8) : Chan := ⟨8 * k.val + j.val, by omega⟩

/-- The channels of a sett in order (R3). -/
def chansOf (k : SettId) : List Chan := (List.finRange 8).map (chanOf k)

/-- The setts of a den in order (R3). -/
def settsOf (d : DenId) : List SettId := (List.finRange 12).map fun j => ⟨12 * d.val + j.val, by omega⟩

def allSetts : List SettId := List.finRange 48

def allPorts : List Port := List.finRange 32

/-- Network time of an LC value, in units of 2^-16 ns (R227). -/
def State.ntAt (s : State) (lc : Int) : Int :=
  lc * 65536 + (lc * s.time.rate.toInt) / 2 ^ 24 + s.time.offset.toInt

/-- Network time now (R227). -/
def State.nt (s : State) : Int := s.ntAt s.lcN

/-- A span of network time or of ticks, in ns, as a span of LC: divided by 1 + RATE and rounded (R228). -/
def State.lcSpan (s : State) (ns : Int) : Int :=
  roundDiv (ns * 2 ^ 40) (2 ^ 40 + s.time.rate.toInt).toNat

/-- The mode code of R29. -/
def Mode.code : Mode → Nat
  | .off => 0 | .hibernate => 1 | .startup => 2 | .service => 3 | .safeCore => 4 | .test => 5

/-- A mode in which command packets are served (R448). -/
def State.served (s : State) : Bool :=
  s.sup.mode == .startup || s.sup.mode == .service || s.sup.mode == .safeCore || s.sup.mode == .test

/-- The mode is Service or Test. -/
def State.working (s : State) : Bool := s.sup.mode == .service || s.sup.mode == .test

/-- MODE_STATUS, the layout of the SYS_MODE_SET reply word (R32, R464). -/
def State.modeStatus (s : State) : Word := w32 (fld 0 4 s.sup.mode.code + fld 4 4 s.sup.causes.toNat)

/-- A fresh value of the free counter (log entry 2). -/
def State.draw (s : State) : Nat × State := (s.free, { s with free := s.free + 1 })

/-- A free word and the state with the counter advanced (log entry 2). -/
def State.drawWord (s : State) : Word × State := (Config.freeWord s.free, { s with free := s.free + 1 })

/-- FAB_GEN of the fabric configuration image in force, which records carry as CONFIG_GEN (R317, R432; log entry 14). -/
def State.fabGen (s : State) : Word := pw s.fab.image 2

/-! Records, rings and notices. -/

/-- An entry on its way into a stream's ingress queue (R319). `tick` is the instant tick of a continuous tick group and
the tick of the group that would follow it. -/
structure Entry where
  stream : Fin 54
  stamp  : Nat
  delay  : Nat
  preset : BitVec 4
  coded  : Bool
  count  : Nat
  tick   : Option (Nat × Nat)
  words  : List Word
  /-- TQ at the stamp and CONFIG_GEN at the delivery of the first tick group of a coded entry; of any other entry they are that at
  its stamp and that now -/
  early  : Option (BitVec 4 × Word) := none
  /-- stamp of the last tick group of a coded entry; of any other entry it is its stamp -/
  last   : Option Nat := none
  deriving DecidableEq, Repr

/-- What one append, close or crossing brings about next. -/
inductive Item where
  | entry (e : Entry)
  | notice (n : Notice)
  deriving DecidableEq, Repr

/-- Header words of a record whose payload has `len` bytes (R317). -/
def recordHeader (r : Record) (len : Nat) : List Word :=
  [w32 (fld 0 10 r.hub.toNat + fld 10 8 r.stream.toNat + fld 18 4 r.tq.toNat + fld 22 4 r.preset.toNat + flag 26 r.coded),
   w32 r.seq.toNat, w32 (fld 0 16 (r.seq.toNat / 2 ^ 32) + fld 16 16 r.epoch.toNat)] ++
  words64 r.lc.toNat ++ [r.delay, w32 (fld 0 16 r.count.toNat + fld 16 11 len), r.gen]

/-- LENGTH of a payload of n words: at least 32 bytes and a multiple of 8 (R317; log entry 15). -/
def recordLength (n : Nat) : Nat := max 32 ((4 * n + 7) / 8 * 8)

/-- The payload filled up with words of 0 to its LENGTH (R317; log entry 15). -/
def padPayload (p : List Word) : List Word := p ++ List.replicate (recordLength p.length / 4 - p.length) 0

/-- A record with its CRC over header and payload (R317). -/
def Record.seal (r : Record) : Record :=
  { r with crc := crcWords (recordHeader r (4 * r.payload.length) ++ r.payload) }

/-- A record as it is stored and sent: header, payload, CRC. -/
def Record.words (r : Record) : List Word := recordHeader r (4 * r.payload.length) ++ r.payload ++ [r.crc]

/-- Units of 64 bytes that a record takes in its ring (R330). -/
def Record.units (r : Record) : Nat := (36 + 4 * r.payload.length + 63) / 64

/-- The records of a ring that stay when `room` units may be held (R330). -/
def trimRing (room : Nat) : List Record → List Record
  | [] => []
  | r :: t => if ((r :: t).map Record.units).sum ≤ room then r :: t else trimRing room t

/-- Body of a GAP entry (R323). -/
def gapBody (stream : Nat) (sub : Option Nat) (cause : Nat) (first last : BitVec 48) (flc llc : Nat) : List Word :=
  [w32 (fld 0 8 stream + fld 8 6 (sub.getD 0) + flag 14 sub.isSome + fld 16 4 cause)] ++
  seqWords first 0 ++ seqWords last 0 ++ words64 flc ++ words64 llc

def gapNotice (stream : Nat) (sub : Option Nat) (cause : Nat) (first last : BitVec 48) (flc llc : Nat) : Notice :=
  { code := 0x0100, body := gapBody stream sub cause first last flc llc }

/-- Body of MARK_OVERTAKEN and MARK_AT_RISK (R322; log entry 16). -/
def markBody (mark stream : Nat) (q : BitVec 48) : List Word :=
  [w32 (fld 0 8 mark + fld 8 8 stream)] ++ seqWords q 0

/-- Depth in bytes of a configurable queue (R324). -/
def queueDepth (q : Fin 76) : Nat :=
  if q.val < 4 then 65536 else if q.val < 52 then 16384 else if q.val < 58 then 32768
  else if q.val < 60 then 262144 else 4096

/-- The ingress queue of a stream (R324). -/
def ingress (t : Fin 54) : Fin 76 := ⟨t.val + 4, by omega⟩

/-- Body of a WATERMARK notice (R322). -/
def watermarkBody (q : Fin 76) (u : Queue) : List Word :=
  [w32 (fld 0 7 q.val + flag 7 u.hiLatch + flag 8 u.loLatch + fld 16 8 u.hiCount.toNat + fld 24 8 u.loCount.toNat),
   w32 (fld 0 19 u.level)]

/-- One evaluation of the watermarks of a queue at a new level (R326), and the notice it emits. -/
def evalWatermark (q : Fin 76) (u : Queue) (level : Nat) : Queue × List Item :=
  let d := queueDepth q
  let hi := decide (u.hwm.toNat * d ≤ 64 * level) && decide (64 * u.level < u.hwm.toNat * d)
  let lo := decide (64 * level ≤ u.lwm.toNat * d) && decide (u.lwm.toNat * d < 64 * u.level)
  let u1 := { u with level := level, prev := level }
  let u2 := if hi then { u1 with hiLatch := true, hiCount := satInc u1.hiCount } else u1
  let u3 := if lo then { u2 with loLatch := true, loCount := satInc u2.loCount } else u2
  if (hi || lo) && !u.outstanding then
    ({ u3 with outstanding := true }, [.notice { code := 0x0101, body := watermarkBody q u3 }])
  else (u3, [])

/-- A queue takes a new level. -/
def setLevel (q : Fin 76) (level : Nat) (s : State) : State × List Item :=
  let r := evalWatermark q s.hoard.queues[q] level
  (s.modQueue q fun _ => r.1, r.2)

/-- LC as two body words. -/
def State.lcWords (s : State) : List Word := words64 s.lcN

/-- The errors corrected within 1 ms after n more at LC `lc`, and whether they are an ECC burst, 8 or more, which takes them
(R554). -/
def burstOf (lc n : Nat) (l : List Nat) : List Nat × Bool :=
  let m := List.replicate n lc ++ l.filter fun t => decide (lc < t + 1000000)
  if 8 ≤ m.length then ([], true) else (m, false)

/-- The body of the TRANSIENT event of an ECC burst, of which no unit keeps a count (R554, R566). -/
def burstBody (where_ : Nat) (s : State) : List Word := w32 ((Config.burstUnit where_).toNat + fld 11 5 5) :: s.lcWords

/-- The first n 64-bit words of a queue are read: corrected errors are counted, and each word that cannot be corrected raises a
health event (R325, R566), as an ECC burst does (R554). The answer names the words that cannot be corrected. -/
def readQueue (q : Fin 76) (n : Nat) (s : State) : State × List Nat × List Item :=
  let now := (s.hoard.queues[q]).upsets.filter fun x => decide (x.1 < n)
  let bad := (now.filter (·.2)).map (·.1)
  let fixed := now.countP fun x => !x.2
  let b := burstOf s.lcN fixed (s.hoard.queues[q]).fixAt
  (s.modQueue q fun u => { u with
      ecc := satAdd u.ecc fixed, fixAt := b.1
      upsets := (u.upsets.filter fun x => decide (n ≤ x.1)).map fun x => (x.1 - n, x.2) },
   bad,
   (bad.map fun _ => .notice { code := 0x1006, body := [w32 (fld 2 7 q.val), 1] }) ++
     (if b.2 then [.notice { code := 0x1000, body := burstBody q.val s }] else []))

/-- The 32-bit word i lies in a 64-bit word that cannot be corrected. -/
def hitWord (bad : List Nat) (i : Nat) : Bool := bad.contains (i / 2)

/-- What takes the place of a sample word that was lost: 0x800000 with INV (R325). -/
def lostSample : Word := 0x80000002

/-- Sample words with those lost replaced (R325); the first of them is word `at_` of the queue. -/
def mendSamples (bad : List Nat) (at_ : Nat) (ws : List Word) : List Word :=
  ws.mapIdx fun i w => if hitWord bad (at_ + i) then lostSample else w

/-- How many words of an entry come before its sample words; none when it holds no sample words (R319). -/
def stampWords (t : Fin 54) (o : OpenRec) : Option Nat :=
  if 48 ≤ t.val ∨ o.coded then none else some (if o.preset &&& 7 == 6 then 2 else 0)

/-- The entries of a record as they are read, and those dropped from it (R325). -/
def mendEntries (head : Option Nat) (bad : List Nat) : Nat → List EntrySpan → List Word → List (EntrySpan × List Word) × List EntrySpan
  | _, [], _ => ([], [])
  | at_, e :: t, ws =>
    let rest := mendEntries head bad (at_ + e.words) t (ws.drop e.words)
    let n := head.getD e.words
    if (List.range n).any fun i => hitWord bad (at_ + i) then (rest.1, e :: rest.2)
    else ((e, (ws.take n) ++ mendSamples bad (at_ + n) ((ws.drop n).take (e.words - n))) :: rest.1, rest.2)

/-- A record as its queue is read: what is left of it, and the entries dropped from it (R325). -/
def mendRecord (t : Fin 54) (bad : List Nat) (o : OpenRec) : Option OpenRec × List EntrySpan :=
  if bad.isEmpty then (some o, [])
  else
    let r := mendEntries (stampWords t o) bad 0 o.entries o.payload
    match r.1.head?, r.1.getLast? with
    | some a, some b =>
      (some { o with lc := a.1.first, lastLc := b.1.last, count := (r.1.map (·.1.count)).sum, entries := r.1.map (·.1),
                     payload := r.1.flatMap (·.2) }, r.2)
    | _, _ => (none, r.2)

/-- A unit passes a queue that its reader empties at once; the answer names the words of it that were lost (R325, R326). -/
def passQueue (q : Fin 76) (bytes : Nat) (s : State) : State × List Nat × List Item :=
  let a := setLevel q bytes s
  let b := readQueue q ((bytes + 7) / 8) a.1
  let c := setLevel q 0 b.1
  (c.1, b.2.1, a.2 ++ b.2.2 ++ c.2)

/-- LC bounds of the records of a ring, as a cursor keeps them of records no longer held. -/
def recordBounds (l : List Record) : List (BitVec 48 × Nat × Nat) :=
  l.map fun r => (r.seq, r.lc.toNat, r.lastLc.toNat)

/-- A cursor after its ring has come to hold nothing older than `oldest` (R338). `gone` gives the LC bounds of records
that are no longer held. -/
def overrunCursor (sub : Nat) (stream : Nat) (gone : List (BitVec 48 × Nat × Nat)) (oldest : BitVec 48) (c : Cursor) :
    Cursor × List Item :=
  let first := c.acked + 1
  if c.stream = stream ∧ seqOlder first oldest then
    let lost := (c.past ++ gone).filter fun r => !seqOlder r.1 first && seqOlder r.1 oldest
    let flc := (lost.head?.map (·.2.1)).getD 0
    let llc := (lost.getLast?.map (·.2.2)).getD 0
    ({ c with acked := oldest - 1, nextSend := oldest, skip := true, skips := satInc c.skips, past := [],
              sentAt := c.sentAt.filter fun p => !seqOlder p.1 oldest },
     if stream = 53 then [] else [.notice (gapNotice stream (some sub) 2 first (oldest - 1) flc llc)])
  else (c, [])

/-- Every cursor of a subscription after an overwrite (R338). -/
def overrunCursors (sub stream : Nat) (old : List (BitVec 48 × Nat × Nat)) (oldest : BitVec 48) :
    List Cursor → List Cursor × List Item
  | [] => ([], [])
  | c :: t =>
    let a := overrunCursor sub stream old oldest c
    let b := overrunCursors sub stream old oldest t
    (a.1 :: b.1, a.2 ++ b.2)

/-- The subscriptions after an overwrite (R338). -/
def overrunSubs (stream : Nat) (old : List (BitVec 48 × Nat × Nat)) (oldest : BitVec 48) (s : State) :
    State × List Item :=
  (List.finRange 64).foldl (fun (acc : State × List Item) i =>
    match acc.1.hoard.subs[i] with
    | none => acc
    | some u =>
      let r := overrunCursors i.val stream old oldest u.cursors
      (acc.1.modHoard fun h => { h with subs := vset h.subs i (some { u with cursors := r.1 }) }, acc.2 ++ r.2)) (s, [])

/-- The cursors of a stream remember the LC bounds of a record that its ring of size 0 does not keep (R329). -/
def passRecord (stream : Nat) (gone : List (BitVec 48 × Nat × Nat)) (s : State) : State :=
  s.modHoard fun h => { h with subs := h.subs.map fun u => u.map fun u =>
    { u with cursors := u.cursors.map fun c =>
        if c.stream = stream then { c with past := c.past ++ gone.filter fun r => seqOlder c.acked r.1 } else c } }

/-- One mark after a record has been written into a ring: overtaken (R342) or at risk (R343). `old` is what the ring
held before, `ring` what it holds now. -/
def judgeMark (m : Nat) (stream : Nat) (old ring : List Record) (k : Mark) : Mark × List Item :=
  match k.parts.find? fun p => p.1 == stream with
  | some (_, q, true) =>
    if old.any (·.seq == q) && !ring.any (·.seq == q) then
      ({ k with parts := k.parts.map fun p => if p.1 = stream then (p.1, p.2.1, false) else p },
       [.notice { code := 0x0102, body := markBody m stream q }])
    else
      let older := ((ring.filter fun r => seqOlder r.seq q).map Record.units).sum
      match k.guardMib with
      | some g =>
        if ring.any (·.seq == q) && older ≤ g * 16384 && !k.risked.contains stream then
          ({ k with risked := stream :: k.risked }, [.notice { code := 0x0103, body := markBody m stream q }])
        else (k, [])
      | none => (k, [])
  | _ => (k, [])

/-- The marks after a record has been written into a ring (R342, R343). -/
def judgeMarks (stream : Nat) (old ring : List Record) (s : State) : State × List Item :=
  (List.finRange 256).foldl (fun (acc : State × List Item) i =>
    match acc.1.hoard.marks[i] with
    | none => acc
    | some k =>
      let r := judgeMark i.val stream old ring k
      (acc.1.modHoard fun h => { h with marks := vset h.marks i (some r.1) }, acc.2 ++ r.2)) (s, [])

/-- The ring of a stream with a new record: what it overwrites goes first (R330). A ring of size 0 holds only the
newest record, for sending it live (R329; log entry 17). -/
def ringPut (t : Fin 54) (r : Record) (s : State) : State × List Item :=
  let st := s.hoard.streams[t]
  let kept := if st.sizeMib = 0 then [] else trimRing (st.sizeMib.toNat * 16384 - r.units) st.ring
  let ring := kept ++ [r]
  let gone := if st.sizeMib = 0 then 0 else st.ring.length - kept.length
  let s1 := s.modStream t fun x => { x with ring := ring, overwrites := satAdd x.overwrites gone }
  let oldest := (ring.head?.map (·.seq)).getD r.seq
  let a := if st.sizeMib = 0 then (passRecord t.val (recordBounds st.ring) s1, [])
    else if kept.length < st.ring.length then overrunSubs t.val (recordBounds st.ring) oldest s1 else (s1, [])
  let b := judgeMarks t.val st.ring ring a.1
  (b.1, a.2 ++ b.2)

/-- A record takes the next sequence number of its stream and enters the ring (R317, R320, R321). -/
def putRecord (t : Fin 54) (o : OpenRec) (s : State) : State × List Item :=
  let r : Record :=
    { stream := BitVec.ofNat 8 t.val, tq := o.tq, preset := o.preset, coded := o.coded,
      seq := s.hoard.streams[t].nextSeq, epoch := o.epoch, lc := BitVec.ofNat 64 o.lc, delay := w32 o.delay,
      count := BitVec.ofNat 16 o.count, gen := o.gen, hub := s.fab.hubId, payload := padPayload o.payload,
      lastLc := BitVec.ofNat 64 o.lastLc, minLc := BitVec.ofNat 64 (o.entries.foldl (fun m e => min m e.first) o.lc)
      maxLc := BitVec.ofNat 64 (o.entries.foldl (fun m e => max m e.last) o.lastLc), crc := 0 }
  ringPut t r.seal (s.modStream t fun x => { x with nextSeq := x.nextSeq + 1 })

/-- The GAP entries of entries that get no sequence number (R323). -/
def unplacedGaps (t : Fin 54) (cause : Nat) (l : List EntrySpan) (s : State) : List Item :=
  let q := s.hoard.streams[t].nextSeq
  l.map fun e => .notice (gapNotice t.val none cause q (q - 1) e.first e.last)

/-- The open record of a stream ends: its queue is read and it enters the ring (R320, R325). -/
def closeRecord (t : Fin 54) (s : State) : State × List Item :=
  match s.hoard.streams[t].openRec with
  | none => (s, [])
  | some o =>
    let a := readQueue (ingress t) ((o.payload.length + 1) / 2) s
    let m := mendRecord t a.2.1 o
    let s1 := a.1.modStream t fun x => { x with openRec := none, tailAt := s.lcN }
    let b := match m.1 with
      | some o => putRecord t o s1
      | none => (s1, [])
    let c := setLevel (ingress t) 0 b.1
    (c.1, b.2 ++ c.2 ++ a.2.2 ++ unplacedGaps t 5 m.2 c.1)

/-- The open record cannot take the entry (R320). -/
def recordEnds (s : State) (recMax : BitVec 6) (o : OpenRec) (e : Entry) : Bool :=
  decide (32 * recMax.toNat < 4 * (o.payload.length + e.words.length)) || o.epoch != s.time.epoch ||
  o.preset != e.preset || o.delay != e.delay || o.gen != (e.early.map (·.2)).getD s.fabGen || o.coded != e.coded ||
  (match o.nextTick, e.tick with
    | some n, some (t, _) => n != t
    | _, _ => false)

/-- The streams are shed in Safe-Core (R27): what they would have carried is declared on return (R28). -/
def noteShed (e : Entry) (s : State) : State :=
  if e.stream.val ≤ 48 then
    s.modStream e.stream fun x =>
      { x with shedLc := some (match x.shedLc with
                | none => (e.stamp, e.stamp)
                | some (a, _) => (a, e.stamp)) }
  else s

/-- TQ in force at an LC instant (R240). -/
def State.tqAt (s : State) (lc : Nat) : BitVec 4 :=
  ((s.time.tqWas.reverse.find? fun p => decide (lc < p.1)).map (·.2)).getD s.time.tq

/-- The stamp of the last tick group or sample that an entry holds (R319, R323, R355). -/
def Entry.lastStamp (e : Entry) : Nat := e.last.getD e.stamp

/-- What a record keeps of an entry beside its words. -/
def Entry.span (e : Entry) : EntrySpan := { words := e.words.length, count := e.count, first := e.stamp, last := e.lastStamp }

/-- An entry enters the record that is open, which is there; a record carries the TQ in force at its first sample (R240, R317). -/
def addEntry (e : Entry) (s : State) : State × List Item :=
  let st := s.hoard.streams[e.stream]
  let nt := e.tick.map (·.2)
  let o := match st.openRec with
    | some o => { o with lastLc := e.lastStamp, count := o.count + e.count, entries := o.entries ++ [e.span]
                         payload := o.payload ++ e.words, nextTick := nt }
    | none =>
      { tq := (e.early.map (·.1)).getD (s.tqAt e.stamp), preset := e.preset, epoch := s.time.epoch, lc := e.stamp, lastLc := e.lastStamp,
        delay := e.delay, count := e.count, gen := (e.early.map (·.2)).getD s.fabGen, coded := e.coded, nextTick := nt,
        entries := [e.span], payload := e.words }
  let s1 := s.modStream e.stream fun x =>
    { x with openRec := some o, tailAt := if st.openRec.isNone then s.lcN else x.tailAt }
  setLevel (ingress e.stream) (4 * o.payload.length) s1

/-- The ingress queue of an entry's stream has no room for it (R324, R328). -/
def ingressFull (e : Entry) (s : State) : Bool :=
  decide (queueDepth (ingress e.stream) < s.hoard.queues[ingress e.stream].level + 4 * e.words.length)

/-- A full queue refuses an entry: the record ends at the last one accepted, which empties the queue, and what was refused is
declared (R328). -/
def refuseEntry (e : Entry) (s : State) : State × List Item :=
  let a := closeRecord e.stream s
  (a.1, a.2 ++ unplacedGaps e.stream 1 [e.span] a.1 ++ [.notice { code := 0x1007, body := [w32 (ingress e.stream).val] }])

/-- One entry appended to its stream (R317 to R320, R328). -/
def appendEntry (e : Entry) (s : State) : State × List Item :=
  if s.sup.mode = .safeCore then (noteShed e s, [])
  else if ingressFull e s then refuseEntry e s
  else
    let st := s.hoard.streams[e.stream]
    let close := match st.openRec with
      | some o => recordEnds s st.recMax o e
      | none => false
    let a := if close then closeRecord e.stream s else (s, [])
    let b := addEntry e a.1
    (b.1, a.2 ++ b.2)

/-- The stream a notice code belongs to: health events on 52, every other notice on 53 (R322, R469). -/
def noticeStream (code : BitVec 16) : Fin 54 := if code.toNat < 0x1000 then 53 else 52

/-- The entry of a notice: its header and body (R322). -/
def noticeEntry (n : Notice) (s : State) : Entry :=
  { stream := noticeStream n.code, stamp := s.lcN, delay := 0, preset := 0, coded := false, count := 1, tick := none,
    words := w32 (fld 0 16 n.code.toNat + fld 16 8 n.body.length) :: n.body }

/-- EVENT_SUMMARY and the notice queue at a notice (R466, R468). -/
def windowNotice (n : Notice) (s : State) : State :=
  let k := n.code.toNat / 256
  s.modCmd fun c =>
    let c1 := { c with eventSummary := c.eventSummary ||| w32 (2 ^ k) }
    if k < 32 && c.nqFilter.getLsbD k then
      if c.nq.length < 16 then { c1 with nq := c.nq ++ [n] } else { c1 with nqLost := satInc c.nqLost }
    else c1

/-- One item carried out; a notice before the firmware runs is neither emitted nor queued (R592). -/
def pushOne (i : Item) (s : State) : State × List Item :=
  match i with
  | .entry e => appendEntry e s
  | .notice n => if s.boot.fwRuns then appendEntry (noticeEntry n s) (windowNotice n s) else (s, [])

/-- Items carried out in order, with what each brings about after the rest; `k` bounds their number. -/
def pushAll : Nat → List Item → State → State
  | 0, _, s => s
  | _, [], s => s
  | k + 1, i :: t, s => let r := pushOne i s; pushAll k (t ++ r.2) r.1

/-- The bound on the items that one operation brings about (log entry 18). -/
def pushLimit : Nat := 4096

/-- A notice or health event is raised (R466, R468, R592). -/
def raise (s : State) (code : Nat) (body : List Word) : State :=
  pushAll pushLimit [.notice { code := BitVec.ofNat 16 code, body := body }] s

/-- The bytes in spill staging: those that the rate of 6.4 GB/s has not moved yet, at 5/32 ns a byte (R345; log entry 221). -/
def State.spillBacklog (s : State) : Nat := (s.hoard.spillUntil - 32 * s.lcN + 4) / 5

/-- SPQ, the spill staging queue (R324). -/
def spillQueue : Fin 76 := 58

/-- RPQ, the replay and resend staging queue (R324). -/
def replayQueue : Fin 76 := 59

/-- The level of SPQ follows its backlog (R326, R345). -/
def settleSpill (s : State) : State :=
  if s.hoard.queues[spillQueue].level = s.spillBacklog then s
  else
    let r := setLevel spillQueue s.spillBacklog s
    pushAll pushLimit r.2 r.1

/-- Bytes written to the spill region or read from it take their part of the rate (R345). -/
def useSpillRate (bytes : Nat) (s : State) : State :=
  settleSpill (s.modHoard fun h => { h with spillUntil := max h.spillUntil (32 * s.lcN) + 5 * bytes })

/-- An entry is delivered to its stream. -/
def deliver (e : Entry) (s : State) : State := pushAll pushLimit [.entry e] s

/-! The block coder's records (R355 to R372). -/

/-- Codes the block of one channel: its words, with the choices and the history it leaves (R356 to R363, R370). -/
def codeChannel (c : Coder) (fresh : Bool) (gs : List TickGroup) (j : Fin 8) : CodedBlock :=
  let vals := gs.map fun g => let w := g.words[j]; if bit w 1 then none else some (sbits w 31 8)
  let flags := gs.foldl (fun (f : Byte) g => f ||| (g.words[j]).extractLsb' 0 8) 0
  checkedBlock c.ratio (if fresh then none else c.hist[j]) vals flags

/-- The coder's counters, depths and histories after a block set (R360, R370, R373). -/
def countBlocks (fresh : Bool) (bs : Vector CodedBlock 8) (c : Coder) : Coder :=
  let hists := if fresh then 8 else c.hist.toList.countP Option.isNone
  let deep := bs.toList.foldl (fun m b => max m b.depth) 0
  { c with hist := bs.map fun b => b.hist, blocks := satAdd c.blocks 8, histBlocks := satAdd c.histBlocks hists
           lossy := satAdd c.lossy (bs.toList.countP fun b => 0 < b.depth)
           selfcheck := satAdd c.selfcheck (bs.toList.countP (·.failed))
           lastDepth := BitVec.ofNat 4 (bs[7]).depth, maxDepth := BitVec.ofNat 4 (max c.maxDepth.toNat deep)
           alertMax := BitVec.ofNat 4 (max c.alertMax.toNat deep) }

/-- A CODER_SELFCHECK event for each block that failed its decode check (R370, R566). -/
def failedBlocks (k : SettId) (bs : Vector CodedBlock 8) : List Item :=
  ((List.finRange 8).filter fun j => bs[j].failed).map fun j =>
    .notice { code := 0x100C, body := [w32 (fld 0 6 k.val + fld 6 3 j.val)] }

/-- The CODER_DEPTH event of a block set, at most once per second (R372). -/
def depthAlert (k : SettId) (deep : Nat) (s : State) : State × List Item :=
  let c := s.coders[k]
  let due := match c.alertAt with
    | some t => decide (t + 1000000000 ≤ s.lcN)
    | none => true
  if c.alertEn && decide (c.depthAlert.toNat < deep) && due then
    (s.modCoder k fun c => { c with alertAt := some s.lcN, alertMax := 0 },
     [.notice { code := 0x100D, body := [w32 (fld 0 6 k.val + fld 6 4 c.alertMax.toNat)] }])
  else (s, [])

/-- The least RECORD_MAX_32 of a coded stream, by RATIO (R367). -/
def coderFloor (ratio : Nat) : Nat := if ratio = 0 then 12 else if ratio = 1 then 16 else 18

/-- The stream of a sett (R10). -/
def settStream (k : SettId) : Fin 54 := ⟨k.val, by omega⟩

/-- The entry of a block set before its words are known: what R320 needs of it. -/
def setEntry (k : SettId) (gs : List TickGroup) (words : List Word) : Entry :=
  let g := gs.head?
  { stream := settStream k, stamp := (g.map (·.stamp)).getD 0, delay := (g.map (·.delay)).getD 0,
    preset := (g.map (·.preset)).getD 0, coded := true, count := gs.length,
    tick := match g.bind (·.tick), gs.getLast?.bind (·.tick) with
      | some (a, _), some (_, b) => some (a, b)
      | _, _ => none
    words := words, early := g.map fun g => (g.tq, g.gen), last := gs.getLast?.map (·.stamp) }

/-- The first n staged tick groups are written as one block set, in a new record when the open one cannot take it
(R360, R367). -/
def writeSet (k : SettId) (n : Nat) (s : State) : State × List Item :=
  let t := settStream k
  let gs := (s.coders[k]).staging.take n
  let e0 := setEntry k gs (List.replicate (2 * blockBytes (s.coders[k]).ratio) 0)
  let st := s.hoard.streams[t]
  let full := match st.openRec with
    | some o => recordEnds s st.recMax o e0
    | none => false
  let a := if full then closeRecord t s else (s, [])
  let fresh := (a.1.hoard.streams[t].openRec).isNone
  let bs := Vector.ofFn (codeChannel (s.coders[k]) fresh gs)
  let s1 := (a.1.modCoder k fun c => { countBlocks fresh bs c with staging := c.staging.drop n }).modStream t
    fun x => { x with tailAt := s.lcN }
  let b := addEntry { e0 with words := wordsOfBytes (bs.toList.flatMap (·.bytes)) } s1
  let d := depthAlert k (bs.toList.foldl (fun m b => max m b.depth) 0) b.1
  (d.1, a.2 ++ b.2 ++ failedBlocks k bs ++ d.2)

/-- The ingress queue lacks room for a block set, so the coder stalls (R368). -/
def coderFull (k : SettId) (s : State) : Bool :=
  decide (queueDepth (ingress (settStream k)) < s.hoard.queues[ingress (settStream k)].level + 8 * blockBytes (s.coders[k]).ratio)

/-- Whole block sets are written while there are any and there is room (R367, R368). -/
def writeSets : Nat → SettId → State → State × List Item
  | 0, _, s => (s, [])
  | n + 1, k, s =>
    if (s.coders[k]).staging.length < 32 then (s, [])
    else if coderFull k s then
      (s.modCoder k fun c => if c.stalled then c else { c with stalled := true, stalls := satInc c.stalls }, [])
    else
      let a := writeSet k 32 (s.modCoder k fun c => { c with stalled := false })
      let b := writeSets n k a.1
      (b.1, a.2 ++ b.2)

/-- The staging buffer takes groups again once 32 are free; those refused are declared (R328, R368). -/
def endRefusal (k : SettId) (s : State) : State × List Item :=
  let c := s.coders[k]
  if c.refusing && decide (c.staging.length ≤ 32) then
    let q := s.hoard.streams[settStream k].nextSeq
    let gap := match c.refused with
      | some (a, b) => [Item.notice (gapNotice k.val none 1 q (q - 1) a b),
          .notice { code := 0x1007, body := [w32 (ingress (settStream k)).val] }]
      | none => []
    (s.modCoder k fun c => { c with refusing := false, refused := none }, gap)
  else (s, [])

/-- What is left after the whole sets is written as one short block set (R369). -/
def writeRest (k : SettId) (s : State) : State × List Item :=
  let n := (s.coders[k]).staging.length
  if n = 0 then (s, []) else writeSet k n s

/-- The coder flushes: whole sets, then the rest. One that is stalled has its record read first, which makes room; what the
staging buffer refused is declared (R368, R369). -/
def flushCoder (k : SettId) (s : State) : State × List Item :=
  let a := writeSets 2 k s
  let b := if 32 ≤ (a.1.coders[k]).staging.length then closeRecord (settStream k) a.1 else (a.1, [])
  let c := writeSets 2 k b.1
  let d := writeRest k c.1
  let e := endRefusal k d.1
  (e.1, a.2 ++ b.2 ++ c.2 ++ d.2 ++ e.2)

/-- The open record of a stream ends now, after its coder's flush, and what follows from it (R320, R369). -/
def endRecord (t : Fin 54) (s : State) : State :=
  let f := if h : t.val < 48 then flushCoder ⟨t.val, h⟩ s else (s, [])
  let r := closeRecord t f.1
  pushAll pushLimit (f.2 ++ r.2) r.1

/-- A tick group cannot join those staged: another PRESET, DELAY_NS or CONFIG_GEN, or not the next grid tick (R320). -/
def groupBreaks (last g : TickGroup) : Bool :=
  last.preset != g.preset || last.delay != g.delay || last.gen != g.gen ||
  (match last.tick, g.tick with
    | some (_, n), some (t, _) => n != t
    | _, _ => false)

/-- A tick group reaches the staging buffer of a coded stream (R366 to R369). -/
def stageGroup (k : SettId) (g : TickGroup) (s : State) : State :=
  let c := s.coders[k]
  if c.refusing || 64 ≤ c.staging.length then
    s.modCoder k fun c => { c with refusing := true, stagingRefused := satInc c.stagingRefused
                                   refused := some (((c.refused.map (·.1)).getD g.stamp), g.stamp) }
  else
    let s1 := match c.staging.getLast? with
      | some l => if groupBreaks l g then endRecord (settStream k) s else s
      | none => s
    let s2 := if (s1.coders[k]).staging.isEmpty then s1.modStream (settStream k) fun x => { x with tailAt := s.lcN } else s1
    let r := writeSets 2 k (s2.modCoder k fun c => { c with staging := c.staging ++ [g] })
    pushAll pushLimit r.2 r.1

/-- Every open record ends now (R243, R320). -/
def endRecords (s : State) : State := (List.finRange 54).foldl (fun s t => endRecord t s) s


/-- A GAP entry of the hub's own (R323). -/
def raiseGap (s : State) (stream : Nat) (cause : Nat) (first last : BitVec 48) (flc llc : Nat) : State :=
  raise s 0x0100 (gapBody stream none cause first last flc llc)

/-- UNIT as LEVEL and INDEX in a notice body: 0 channel, 1 sett, 2 den (R469, R566). -/
def unitField (level index : Nat) : Nat := fld 0 2 level + fld 2 9 index

/-- The ISOLATED notice (R469). -/
def raiseIsolated (s : State) (level index : Nat) : State := raise s 0x0005 (w32 (unitField level index) :: s.lcWords)

/-- A TRANSIENT event: the unit's field, KIND and the count within 10 s (R554, R566). -/
def raiseTransient (s : State) (unit kind count : Nat) : State :=
  raise s 0x1000 (w32 (unit + fld 11 5 kind + fld 16 2 count) :: s.lcWords)

/-- The SUB_SUSPENDED notice (R322; log entry 16). -/
def raiseSuspended (s : State) (sub stream : Nat) (q : BitVec 48) : State :=
  raise s 0x0104 ([w32 (fld 0 8 sub + fld 8 8 stream)] ++ seqWords q 0)

end Sys2Proof.Machine
end

