-- ==== Sys2Proof/Machine/Clock.lean ====
section
/-! DEFINITION. How time passes: LC, TK and the always-on time advance together, the edge queues drain, and an event
with a due instant moves the clocks forward to it (R195, R226, R229, R267; log entries 1 and 19). -/

namespace Sys2Proof.Machine

/-- An edge entry of stream 50 (R265). The stamp is in units of 2^-8 ns. -/
def edgeEntryWords (stamp : Stamp) (input : Nat) (rising : Bool) (kind mu : Nat) (coincident neg deg : Bool)
    (value : Int) : List Word :=
  let v := lowBits 40 value
  words64 (lowBits 64 (stamp / 256)) ++
  [w32 (fld 0 8 (lowBits 8 stamp) + fld 8 4 input + flag 12 rising + fld 13 2 kind + fld 15 3 mu + flag 18 coincident +
      flag 19 neg + flag 20 deg + fld 24 8 v), w32 (v / 256)]

/-- A LOSS entry (R265): the stamp of the first edge not recorded, and their number. -/
def lossWords (input : Nat) (deg : Bool) (stamp : Stamp) (n : Nat) : List Word :=
  edgeEntryWords stamp input false 2 0 false false deg (min n (2 ^ 40 - 1))

/-- The queue of an edge input (R324). -/
def edgeQueue (i : Fin 16) : Fin 76 := ⟨60 + i.val, by omega⟩

def State.modEdge (s : State) (i : Fin 16) (f : EdgeIn → EdgeIn) : State :=
  s.modTdc fun t => { t with inputs := vmod t.inputs i f }

/-- The queue of an input takes a new content, and its watermarks are evaluated (R326). -/
def setEdgeQueue (i : Fin 16) (q : List (List Word)) (s : State) : State :=
  let r := setLevel (edgeQueue i) (16 * q.length) (s.modEdge i fun e => { e with queue := q })
  pushAll pushLimit r.2 r.1

/-- Entries are made outside Safe-Core only (R268). -/
def State.edgeEntries (s : State) : Bool := s.sup.mode != .safeCore

/-- An entry joins the queue of an input, the last in the order of completion (R266). -/
def pushEdge (i : Fin 16) (w : List Word) (s : State) : State :=
  setEdgeQueue i (s.tdc.inputs[i].queue ++ [w]) (s.modTdc fun t => { t with order := t.order ++ [i] })

/-- The oldest span of edges not recorded leaves as one LOSS entry when the queue has room; that of a full calibration waits for its
end (R264, R267, R268). -/
def emitLoss (i : Fin 16) (s : State) : State :=
  let e := s.tdc.inputs[i]
  match e.losses with
  | x :: t =>
    if s.edgeEntries && (!x.cal || x.closed) && e.queue.length < 256 then
      pushEdge i (lossWords i.val e.calDeg x.first x.count) (s.modEdge i fun e => { e with losses := t })
    else s
  | [] => s

/-- One more edge not recorded joins the span under way, or begins one (R264, R267). -/
def addLoss (t : Stamp) (cal : Bool) (l : List LossSpan) : List LossSpan :=
  match l.getLast? with
  | some x =>
    if x.cal = cal ∧ !x.closed then l.dropLast ++ [{ x with count := x.count + 1 }]
    else l ++ [{ first := t, count := 1, cal := cal, closed := false }]
  | none => [{ first := t, count := 1, cal := cal, closed := false }]

/-- An edge or a result is not recorded: it counts in LOST and joins the span that a LOSS entry declares (R264, R267, R268). -/
def loseEdge (i : Fin 16) (t : Stamp) (cal : Bool) (s : State) : State :=
  if s.edgeEntries then s.modEdge i fun e => { e with lost := e.lost + 1, losses := addLoss t cal e.losses } else s

/-- An entry joins the queue of an input, or is lost when the queue is full (R267). -/
def queueEdge (i : Fin 16) (t : Stamp) (w : List Word) (s : State) : State :=
  if !s.edgeEntries then s
  else if 256 ≤ s.tdc.inputs[i].queue.length then loseEdge i t false s
  else pushEdge i w s

def State.modUnit (s : State) (m : Fin 8) (f : MeasUnit → MeasUnit) : State :=
  s.modTdc fun t => { t with units := vmod t.units m f }

/-- The result of a measurement: the stamp of the start and the difference (R271). -/
structure MuResult where
  start : Stamp
  value : Int
  deriving DecidableEq, Repr

/-- The INTERVAL entry of a result, in the queue of the start input (R265, R267, R272). -/
def emitInterval (m : Fin 8) (r : MuResult) (s : State) : State :=
  let u := s.tdc.units[m]
  let a := s.tdc.inputs[u.startIn.toFin]
  let b := s.tdc.inputs[u.stopIn.toFin]
  queueEdge u.startIn.toFin r.start
    (edgeEntryWords r.start u.startIn.toNat (!u.startFall) 1 m.val (r.value == 0) (decide (r.value < 0))
      (a.calDeg || b.calDeg) r.value) s

/-- The result that a tie holds back (R271). -/
def MuTie.result (x : MuTie) : MuResult :=
  if x.byStop then { start := x.other, value := x.stamp - x.other } else { start := x.stamp, value := x.other - x.stamp }

/-- A result that no edge can replace any more is emitted (R271, R272). -/
def flushTie (m : Fin 8) (s : State) : State :=
  match s.tdc.units[m].tie with
  | some x => emitInterval m x.result (s.modUnit m fun u => { u with tie := none })
  | none => s

/-- The results whose ties are over before an LC are emitted. -/
def flushTies (lc : Nat) (s : State) : State :=
  forEach (List.finRange 8) (fun s m => if ((s.tdc.units[m].tie).map fun x => decide (x.due < lc)) == some true then flushTie m s else s) s

/-- An edge entry as it is read from its queue: it enters stream 50, or is dropped when its words cannot be corrected (R325). -/
def takeEdge (i : Fin 16) (e : Entry) (s : State) : State :=
  let r := readQueue (edgeQueue i) 2 s
  if r.2.1.isEmpty then deliver e r.1 else pushAll pushLimit (r.2.2 ++ unplacedGaps 50 5 [e.span] r.1) r.1

/-- The oldest entry of an input's queue enters stream 50 (R266, R267). -/
def drainEdge (i : Fin 16) (s : State) : State :=
  match s.tdc.inputs[i].queue with
  | [] => s
  | w :: t =>
    let e : Entry := { stream := 50, stamp := nat64 (pw w 0) (pw w 1), delay := 0, preset := 0, coded := false, count := 1,
                       tick := none, words := w }
    emitLoss i (setEdgeQueue i t (takeEdge i e (s.modTdc fun t => { t with order := t.order.erase i })))

/-- The input whose entry is the next to leave: in the order of completion (R266). -/
def Tdc.nextEdge (t : Tdc) : Option (Fin 16) :=
  (t.order ++ List.finRange 16).find? fun i => !t.inputs[i].queue.isEmpty

/-- At most n entries leave the edge queues, in the order in which they were completed (R266, R267). -/
def drainEdges : Nat → State → State
  | 0, s => s
  | n + 1, s =>
    match s.tdc.nextEdge with
    | none => s
    | some i => drainEdges n (drainEdge i s)

/-- TIME_EPOCH increments and every open record ends (R243). -/
def newEpoch (s : State) : State := (endRecords s).modTime fun t => { t with epoch := t.epoch + 1 }

/-- Advance of the tick phase in one nanosecond, in 2^-40 ns: the ratio of R236. -/
def tickRate (t : Time) : Nat := (2 ^ 40 + t.rate.toInt + (t.rTk * 2 ^ 40).floor).toNat

/-- The length of a tick in 2^-40 ns (R195). -/
def tickLen : Nat := 50 * 2 ^ 40

/-- The three counts after dt nanoseconds: LC while TCLK is released, TK while SCLK is (R86, R226, R229). -/
def advanceTime (dt : Nat) (t : Time) : Time :=
  let ph := t.tkPhase + dt * tickRate t
  { t with
    aonNs := t.aonNs + dt
    lc := if t.tclk then t.lc + BitVec.ofNat 64 dt else t.lc
    tkPhase := if t.sclk then ph % tickLen else t.tkPhase
    tk := if t.sclk then t.tk + BitVec.ofNat 64 (ph / tickLen) else t.tk }

/-- dt nanoseconds pass. At a wrap of LC the epoch increments as at a step (R226). -/
def elapse (dt : Nat) (s : State) : State :=
  let n := (s.time.aonNs + dt) * 16 / 1000 - s.time.aonNs * 16 / 1000
  let s1 := settleSpill (drainEdges (min n 4096) (flushTies (s.lcN + dt) (s.modTime (advanceTime dt))))
  if s.time.tclk && decide (2 ^ 64 ≤ s.lcN + dt) then newEpoch s1 else s1

/-- The clocks move forward to an LC, when it is not reached yet. -/
def atLc (lc : Nat) (s : State) : State := if s.time.tclk then elapse (lc - s.lcN) s else s

/-- The clocks move forward to an instant of the always-on time, when it is not reached yet. -/
def atAon (ns : Nat) (s : State) : State := elapse (ns - s.time.aonNs) s

/-- The clocks move forward to a tick, when it is not reached yet. -/
def atTk (tk : Nat) (s : State) : State :=
  if s.time.sclk then
    let d := (tk - s.tkN) * tickLen - s.time.tkPhase
    elapse ((d + tickRate s.time - 1) / tickRate s.time) s
  else s

/-- An idle block lets one TCLK period pass (log entry 19). -/
def idle (s : State) : State := elapse 1 s

end Sys2Proof.Machine
end

