-- ==== Sys2Proof/Machine/Flags.lean ====
section
/-! DEFINITION. Sample words and their flags (R7 to R9). -/

namespace Sys2Proof.Machine

/-- Bits [7:0] of a sample word (R7). -/
def flagOvr : Byte := 0x80
def flagStl : Byte := 0x40
def flagTu : Byte := 0x20
def flagLp : Byte := 0x10
def flagCalx : Byte := 0x08
def flagRet : Byte := 0x04
def flagInv : Byte := 0x02
def flagRp : Byte := 0x01

/-- A flag when its condition holds. -/
def whenF (b : Bool) (f : Byte) : Byte := if b then f else 0

/-- The flag is set in a flag byte. -/
def hasF (fl f : Byte) : Bool := fl &&& f != 0

/-- A sample word from a value and its flags: 0x800000 exactly with INV, any other value held within 24 bits with OVR,
and −8,388,608 as 0x800001 with OVR (R8, R106). -/
def sampleWord (value : Int) (fl : Byte) : Word :=
  if hasF fl flagInv then w32 (0x80000000 + fl.toNat)
  else
    let v := clamp (-8388607) 8388607 value
    let f := fl ||| whenF (v != value) flagOvr
    w32 (fld 8 24 (lowBits 24 v) + f.toNat)

/-- VALUE of a sample word (R7). -/
def sampleValue (w : Word) : Int := sbits w 31 8

/-- The flags of a sample word (R7). -/
def sampleFlags (w : Word) : Byte := w.extractLsb' 0 8

end Sys2Proof.Machine
end

