-- ==== Sys2Proof/Machine/Frames.lean ====
section
/-! DEFINITION. SWL frames, link control blocks, output queues, spill and routing: the operations that every source of
frames shares (R405 to R419). -/

namespace Sys2Proof.Machine

/-- HCRC over header words 0 to 2 (R405). -/
def hcrcOf (w0 w1 w2 : Word) : Word := (crc16 (bytesOfWords [w0, w1, w2])).setWidth 32

end Sys2Proof.Machine

namespace Sys2Proof

open Machine

/-! Fields of a frame header (R405). -/
def Frame.lseq (f : Frame) : BitVec 16 := f.w0.extractLsb' 0 16
def Frame.cls (f : Frame) : Nat := bits f.w0 18 16
def Frame.isLocal (f : Frame) : Bool := bit f.w0 19
def Frame.hopsLeft (f : Frame) : Nat := bits f.w0 23 20
def Frame.type (f : Frame) : Nat := bits f.w0 31 24
def Frame.dst (f : Frame) : BitVec 10 := f.w1.extractLsb' 0 10
def Frame.src (f : Frame) : BitVec 10 := f.w1.extractLsb' 10 10
def Frame.len (f : Frame) : Nat := bits f.w1 31 20
def Frame.ep (f : Frame) : BitVec 4 := f.w2.extractLsb' 0 4
def Frame.epValid (f : Frame) : Bool := bit f.w2 4
def Frame.bcast (f : Frame) : Bool := bit f.w2 5

/-- The frame with its HCRC and its CRC-32C computed (R405). -/
def Frame.seal (f : Frame) : Frame :=
  let w3 := hcrcOf f.w0 f.w1 f.w2
  { f with w3 := w3, crc := crcWords ([f.w0, f.w1, f.w2, w3] ++ f.payload) }

/-- The frame's HCRC checks and its reserved bits and LENGTH are as R405 wants them. -/
def Frame.headerOk (f : Frame) : Bool :=
  f.w3 == hcrcOf f.w0 f.w1 f.w2 && f.len % 4 == 0 && f.len ≤ 2048 && f.len == 4 * f.payload.length &&
  resv f.w2 31 6 && f.cls < 6

/-- The frame's CRC-32C checks (R405). -/
def Frame.crcOk (f : Frame) : Bool := f.crc == crcWords ([f.w0, f.w1, f.w2, f.w3] ++ f.payload)

/-- The frame ends with the complement of its correct CRC-32C: it was stomped (R415). -/
def Frame.stomped (f : Frame) : Bool := f.crc == ~~~crcWords ([f.w0, f.w1, f.w2, f.w3] ++ f.payload)

/-- A frame type of R406 that goes with its class. -/
def Frame.typeOk (f : Frame) : Bool :=
  match f.type with
  | 0x01 => f.cls == 3 || f.cls == 4
  | 0x02 => f.cls == 0 || f.cls == 3
  | 0x03 => f.cls == 0
  | 0x04 | 0x05 => f.cls == 2 || f.cls == 5
  | 0x06 | 0x07 => f.cls == 2
  | 0x10 | 0x11 | 0x12 | 0x13 => f.cls == 1 && f.isLocal
  | 0x20 => f.cls == 1 && f.bcast
  | _ => false

/-- Bytes of a frame on the line (R405). -/
def Frame.bytes (f : Frame) : Nat := 20 + 4 * f.payload.length

/-- Credits a frame takes (R412). -/
def Frame.credits (f : Frame) : Nat := (f.bytes + 255) / 256

/-- The frame with another LSEQ, sealed again (R409). -/
def Frame.withSeq (f : Frame) (q : BitVec 16) : Frame :=
  { f with w0 := (f.w0 &&& 0xFFFF0000) ||| q.setWidth 32 }.seal

/-- The class of a frame as an index; a class above 5 counts as the last one. -/
def Frame.clsFin (f : Frame) : Fin 6 := ⟨min f.cls 5, by omega⟩

end Sys2Proof

namespace Sys2Proof.Machine

/-- A frame made by this hub, with HOPS_LEFT 15 (R405). -/
def mkFrame (s : State) (cls type : Nat) (isLocal bcast : Bool) (dst : BitVec 10) (ep : Option (BitVec 4))
    (payload : List Word) : Frame :=
  { w0 := w32 (fld 16 3 cls + flag 19 isLocal + fld 20 4 15 + fld 24 8 type)
    w1 := w32 (dst.toNat + fld 10 10 s.fab.hubId.toNat + fld 20 12 (4 * payload.length))
    w2 := w32 (((ep.map (·.toNat)).getD 0) + flag 4 ep.isSome + flag 5 bcast)
    w3 := 0, payload := payload, crc := 0 : Frame }.seal

/-- The hub at the other end of a port, 0 while no beacon has named it (R424). -/
def State.neighbourId (s : State) (p : Port) : BitVec 10 := ((s.port p).neighbour).getD 0

/-- A LINK_CTL block (R407). -/
def linkCtlBlock (cls : Nat) (nak init : Bool) (ack : BitVec 16) (credits : Nat) : BitVec 56 :=
  BitVec.ofNat 56 (fld 0 3 cls + flag 3 nak + flag 4 init + fld 5 16 ack.toNat + fld 21 16 credits)

/-- A link control block leaves on a port. -/
def sendLinkCtl (p : Port) (b : BitVec 56) (s : State) : State :=
  s.modPort p fun q => { q with linkCtl := b :: q.linkCtl }

/-- Bytes reserved for a class per input port (R408). -/
def classReserve (c : Fin 6) : Nat := #v[16, 8, 32, 192, 80, 24][c] * 1024

/-- Bytes reserved for a class for local sources (R408). -/
def localReserve (c : Fin 6) : Nat := #v[16, 8, 64, 512, 384, 40][c] * 1024

/-- The class is retried (R408). -/
def classRetried (c : Fin 6) : Bool := c.val != 1

/-- The class spills (R408). -/
def classSpills (c : Fin 6) : Bool := c.val == 3 || c.val == 4

/-- Bits [13:6] of LANE_CONFIG in force (R400). -/
def Lane.enable (l : Lane) : Bool := l.settings.getLsbD 0
def Lane.rate (l : Lane) : Bool := l.settings.getLsbD 1
def Lane.eth (l : Lane) : Bool := l.settings.getLsbD 2
def Lane.loopback (l : Lane) : Bool := l.settings.getLsbD 7

/-- A PRBS pattern or a loopback runs on the lane (R396). -/
def Lane.testUse (l : Lane) : Bool := l.loopback || l.prbs.getLsbD 0 || l.prbs.getLsbD 4

def State.isEth (s : State) (p : Port) : Bool := (s.lane p).eth

/-- The lane counts as UP for its link: a receiver that sleeps, or wakes from sleep, has not taken the link down
(R391; log entry 34). -/
def Lane.upForLink (l : Lane) : Bool := l.rx == .up || l.rx == .quiet || (l.rx == .locking && l.rxWakeAt.isSome)

/-- The link of a port is up for the fabric (R412): the lane is UP, without test use, and in SWL mode both sides have
their INIT grants. -/
def State.linkUp (s : State) (p : Port) : Bool :=
  let l := s.lane p
  l.upForLink && !l.testUse && (l.eth || ((s.port p).initTx && (s.port p).classes.all (·.initRx)))

/-- Bytes queued in a class of a port (R415). -/
def queueBytes (c : PortClass) : Nat := (c.queue.map fun q => q.frame.bytes).sum

/-- The uplink port that holds an endpoint in use: the lowest port with it (R423; log entry 21). -/
def State.endpointPort (s : State) (ep : BitVec 4) : Option (Fin 8) :=
  (List.finRange 8).find? fun u => s.isEth ⟨u.val, by omega⟩ && (s.fab.uplinks[u].eps[ep.toFin]).enable

/-- The endpoint has been resolved: it, or the gateway when it lies off the subnet, answers ARP (R413, R423). -/
def Uplink.onSubnet (u : Uplink) (ip : Word) : Bool :=
  let sh := 32 - u.pfx.toNat
  (u.ip >>> sh) == (ip >>> sh)

def Uplink.resolved (u : Uplink) (ep : BitVec 4) : Bool :=
  let e := u.eps[ep.toFin]
  e.enable && (if u.onSubnet e.ip then e.mac.isSome else u.gwMac.isSome)

/-- An output port counts as having no credits in a class (R413). -/
def State.noCredits (s : State) (p : Port) (c : Fin 6) : Bool :=
  let q := s.port p
  !s.linkUp p || ((s.lane p).tx == .quiet && !(s.lane p).autoWake) ||
  (if s.isEth p then decide (q.spillThresh.toNat * 1024 < queueBytes q.classes[c])
   else (c.val > 2 && (q.nbMode == 1 || q.nbMode == 4)))

/-- The port may start this frame now; in Safe-Core the samples and replays of this hub are shed (R27, R412, R413). -/
def State.mayStart (s : State) (p : Port) (c : Fin 6) (f : Frame) : Bool :=
  let q := s.port p
  (s.sup.mode != .safeCore || (c != 3 && c != 4)) && s.linkUp p && (s.lane p).tx == .on && !(s.lane p).txQuiet && (s.lane p).wake == .none &&
  (!q.verDiff || f.type == 0x20 || c.val == 5) &&
  (if s.isEth p then
    match (List.finRange 8).find? fun u => u.val == p.val with
    | some u => f.epValid && s.fab.uplinks[u].resolved f.ep
    | none => false
   else f.isLocal || (!(c.val > 2 && (q.nbMode == 1 || q.nbMode == 4)) && f.credits ≤ q.classes[c].credits))

/-- Credits return to the port a frame came in on (R412). -/
def returnCredits (p : Port) (c : Fin 6) (f : Frame) (s : State) : State :=
  if f.isLocal || s.isEth p then s
  else
    let k := (s.port p).classes[c]
    sendLinkCtl p (linkCtlBlock c.val false false (k.rxSeq - 1) f.credits)
      (s.modClass p c fun k => { k with held := k.held - f.bytes })

/-- Bytes in the spill region (R345). -/
def State.spillBytes (s : State) : Nat := (s.hoard.spilled.map fun x => x.frame.bytes).sum

/-- The port and class have frames in spill (R418). -/
def State.inSpill (s : State) (p : Port) (c : Fin 6) : Bool :=
  s.hoard.spilled.any fun x => x.port == p && x.replay == (c.val == 4)

/-- A frame may be spilled: it fits in the region, and spill staging has room for it, so that the rate holds (R346; log entry 221). -/
def State.spillRoom (s : State) (f : Frame) : Bool :=
  decide (s.spillBytes + f.bytes ≤ s.hoard.spillMib.toNat * 1048576) && decide (s.spillBacklog + f.bytes ≤ queueDepth spillQueue)

/-- A frame goes to the spill region, or is refused (R345, R346). -/
def spillFrame (p : Port) (c : Fin 6) (input : Option Port) (f : Frame) (s : State) : State :=
  let s1 := match input with
    | some i => returnCredits i c f s
    | none => s
  if s1.spillRoom f then
    useSpillRate f.bytes ((s1.modHoard fun h => { h with spilled := h.spilled ++
        [{ port := p, replay := c.val == 4, since := s.lcN, frame := f }] }).modPort p
      fun q => { q with spilled := satInc q.spilled })
  else s1.modHoard fun h => { h with spillRefused := satInc h.spillRefused }

/-- The transmitter leaves electrical idle: the wake pattern begins (R391). -/
def startWake (p : Port) (s : State) : State :=
  s.modLane p fun l => { l with tx := .on, txQuiet := false, wake := .pattern, wakes := satInc l.wakes }

/-- A frame joins the output queue of a port and class, or spills (R415, R418). A sleeping transmitter with AUTO_WAKE
wakes (R391). An uplink takes no SAFETY or TIME frame (R422). -/
def enqueueOut (p : Port) (c : Fin 6) (input : Option Port) (f : Frame) (s : State) : State :=
  let q := (s.port p).classes[c]
  let s1 := if (s.lane p).txQuiet && (s.lane p).autoWake then startWake p s else s
  if s.isEth p && decide (c.val < 2) then
    match input with
    | some i => returnCredits i c f s
    | none => s
  else if classSpills c && (s.inSpill p c ||
      ((s.port p).spillThresh.toNat * 1024 < queueBytes q && (s.noCredits p c || q.credits < f.credits && !s.isEth p))) then
    spillFrame p c input f s1
  else s1.modClass p c fun q => { q with queue := q.queue ++ [{ input := input, since := s.lcN, frame := f }] }

/-- A port number of the routing table; 0x3F and every number above 31 name none (R414, R435). -/
def routePort (x : BitVec 6) : Option Port := if h : x.toNat < 32 then some ⟨x.toNat, h⟩ else none

/-- The port by which a frame for a hub leaves (R414). -/
def State.route (s : State) (dst : BitVec 10) (c : Fin 6) : Option Port :=
  let e := s.fab.routes[dst.toFin]
  let up := fun (x : BitVec 6) => (routePort x).bind fun p => if s.linkUp p then some p else none
  match up e.1 with
  | some p => some p
  | none => match up e.2 with
    | some p => some p
    | none => if classSpills c then routePort e.1 else none

/-- A frame with no way out is discarded, and counted in NO_ROUTE of the PRIMARY port when its entry names one (R414; log entry
224). -/
def loseFrame (dst : BitVec 10) (s : State) : State :=
  match routePort (s.fab.routes[dst.toFin]).1 with
  | some p => s.modPort p fun q => { q with noRoute := satInc q.noRoute }
  | none => s

/-- A frame of this hub's own leaves for its destination: through its route, or through the endpoint when it is addressed
to this hub with EP_VALID (R414, R423). -/
def sendFrame (f : Frame) (s : State) : State :=
  let c := f.clsFin
  if f.dst = s.fab.hubId then
    if f.epValid then
      match s.endpointPort f.ep with
      | some u => enqueueOut ⟨u.val, by omega⟩ c none f s
      | none => s
    else s
  else
    match s.route f.dst c with
    | some p => enqueueOut p c none f s
    | none => loseFrame f.dst s

/-- A link-local or flooded frame of this hub's own leaves on one port (R406). -/
def sendOn (p : Port) (f : Frame) (s : State) : State := enqueueOut p f.clsFin none f s

/-- Bytes that local frames of a class hold in the shared buffer (R408). -/
def State.localBytes (s : State) (c : Fin 6) : Nat :=
  (allPorts.map fun p => (((s.port p).classes[c].queue.filter fun q => q.input.isNone).map fun q => q.frame.bytes).sum).sum

/-- The ports that carry fabric traffic (R434). -/
def State.fabricPorts (s : State) : List Port := allPorts.filter fun p => s.fab.portMask.getLsbD p.val && !s.isEth p

end Sys2Proof.Machine
end

