-- ==== Sys2Proof/Machine/Sections.lean ====
section
/-! DEFINITION. Settings as the parameter words that would restore them, and the sections of a boot configuration and of a
checkpoint that hold them (R97 to R99, R540 to R543; log entry 50). -/

namespace Sys2Proof.Machine

/-- A coefficient as the word that carries it (R184). -/
def coefWord (c : BitVec 24) : Word := c.setWidth 32

/-- A queue's settings as QUEUE_CONFIG word 1 (R353). -/
def queueSettings (u : Queue) : Word := w32 (fld 0 6 u.hwm.toNat + fld 6 6 u.lwm.toNat + fld 12 16 u.tailUs.toNat)

def tapsWord (t : TxTaps) : Nat := fld 0 4 t.pre.toNat + fld 4 6 t.main.toNat + fld 10 5 t.post.toNat

/-- Servo settings as a parameter word (R252). -/
def servoWord (c : TimeCfg) : Word :=
  w32 (fld 0 3 c.syncLog2.toNat + fld 3 4 c.kp.toNat + fld 7 5 c.ki.toNat + fld 12 4 c.holdover.toNat)

/-- A port's time settings as a parameter word (R252). -/
def timePortWord (c : TimeCfg) (p : Port) : Word := w32 (flag 0 c.timeEn[p] + fld 16 16 (c.asymPs[p]).toNat)

def sourceCode : TimeSource → Nat
  | .none => 0 | .ptp => 1 | .pps => 2

/-- EDGE_SEL, STAMP_EN and ELEC in force (R274). -/
def edgeSettings (e : EdgeIn) : Nat := e.sel.toNat + flag 2 e.stampEn + flag 3 e.cmos

/-- The settings of a measurement unit in the parameter layout (R275). -/
def unitWords (m : Fin 8) (u : MeasUnit) : List Word :=
  [w32 (fld 0 3 m.val + flag 4 u.enable + flag 5 u.bipolar + fld 6 4 u.startIn.toNat + flag 10 u.startFall +
     fld 11 4 u.stopIn.toNat + flag 15 u.stopFall), w32 u.wPre.toNat, w32 u.wPost.toNat]

/-- The definition in the layout of parameter words 1 onward (R313). -/
def PrjDef.words (d : PrjDef) : List Word :=
  [w32 d.period.toNat, w32 d.holdMax.toNat, w32 d.remoteLat.toNat] ++ words64 d.offsetP.toNat ++ words64 d.offsetF.toNat ++
  d.terms.flatMap fun t => words64 t.toNat

def coefWords (c : QuadCoef) : List Word := [c.ox, c.oy, c.k, c.phi]

/-- Words 1 to 4 of ETH_CONFIG for an interface and for an endpoint (R438); word 4 of an interface is GATEWAY and UDP_PORT
with PREFIX alike (log entry 39). -/
def interfaceWords (u : Uplink) : List Word :=
  [w32 u.mac.toNat, w32 (fld 0 16 (u.mac.toNat / 2 ^ 32) + fld 16 14 u.mtu.toNat), u.ip,
   w32 (fld 0 16 u.udpPort.toNat + fld 16 6 u.pfx.toNat)]

def endpointWords (e : Endpoint) : List Word := [e.ip, w32 (fld 0 16 e.udp.toNat + flag 16 e.enable), 0, 0]

/-- The lane port of an uplink. -/
def uplinkPort (u : Fin 8) : Port := ⟨u.val, by omega⟩

def Bank.word (b : Bank) (k : Nat) : Word64 := (getAt k b.words).getD 0

/-- Word k of the header. -/
def Bank.header (b : Bank) (k : Nat) : Word := w32 ((b.word (k / 2)).toNat / 2 ^ (32 * (k % 2)))

def Bank.count (b : Bank) : Nat := bits (b.header 3) 13 0

/-- The active bank (R218). -/
def Plan.bank (p : Plan) : Bank := p.banks[p.activeBank]

/-- The tick in which an LC instant falls, rounded down (R301): 50 ns ticks from the frame's start edge. -/
def State.tickOfLc (s : State) (lc : Int) : Int :=
  s.plan.frameTk + ((lc * 256 - s.plan.frameLc) * (2 ^ 40 + s.time.rate.toInt)) / (256 * 50 * 2 ^ 40)

/-- DIGEST of the image in force (R432). -/
def State.fabDigest (s : State) : Word64 :=
  if s.fab.image.isEmpty then Config.emptyDigest else BitVec.ofNat 64 (digest64 (bytesOfWords s.fab.image))

/-- PAIRED (R550). -/
def Pair.paired (p : Pair) : Bool := bit p.word0 1

/-- The records that a ring keeps; a ring of size 0 keeps none (R329). -/
def Stream.held (t : Stream) : List Record := if t.sizeMib = 0 then [] else t.ring

/-- OLDEST_SEQ; with nothing held it is the sequence of the next record (R330; log entry 29). -/
def Stream.oldest (t : Stream) : BitVec 48 := (t.held.head?.map (·.seq)).getD t.nextSeq

/-- The part of a mark for a stream: its sequence and whether it is valid (R341). -/
def Mark.part (m : Mark) (t : Nat) : Option (BitVec 48 × Bool) := (m.parts.find? fun p => p.1 == t).map (·.2)

/-- The index as a bounded number. -/
def finOf (n i : Nat) : Option (Fin n) := if h : i < n then some ⟨i, h⟩ else none

/-- A channel number as a parameter gives it (R3). -/
def chanAt (n : Nat) : Option Chan := finOf 384 n


/-! Commands of the sections, with WRITE set (R541). -/

/-- FAB_JOIN in force: it writes only once a hub ID has been set. -/
def joinWords (s : State) : List Word :=
  [w32 (fld 0 10 s.fab.hubId.toNat + flag 10 s.fab.hubIdSet + flag 11 s.fab.join + fld 12 8 s.fab.leadPriority.toNat), s.fab.portMask]

/-- PAIR_CONFIG in force. -/
def pairWords01 (p : Pair) : List Word := [p.word0 ||| 1, p.word1]

/-- The commands of section 0x02 for one sett. -/
def settWords (s : State) (k : SettId) : List Word :=
  let x := s.setts[k]
  let c := s.chains[k]
  let d := s.coders[k]
  ((chansOf k).flatMap fun ch =>
    let a := s.chans[ch]
    [w32 ch.val, w32 (flag 0 a.enable + fld 1 3 a.scale.toNat + flag 4 a.openDet + flag 5 a.refBg)]) ++
  ((chansOf k).map fun ch => w32 (ch.val + flag 9 true + fld 10 3 (s.chans[ch]).rangeInit.toNat)) ++
  [w32 k.val, w32 (fld 0 8 x.vcode.toNat + fld 8 2 x.excMode.toNat + flag 10 x.forceOff + fld 11 4 x.ilim.toNat),
   w32 (k.val + flag 6 true + flag 7 x.burstMode + flag 8 x.lowPower),
   w32 (k.val + flag 6 true + fld 7 3 c.preset.toNat),
   w32 (k.val + flag 6 true + flag 7 c.shift), c.shifts,
   w32 (k.val + flag 6 true + flag 7 d.enable + fld 8 2 d.ratio.toNat + flag 10 d.alertEn + fld 11 4 d.depthAlert.toNat),
   w32 (k.val + flag 6 true + fld 7 8 c.adjMs.toNat), c.trimPs]

/-- The setts whose filters run, or whose start has been accepted, or that a start will run. -/
def State.runSetts (s : State) : Nat :=
  maskOf 48 fun k => ((s.setts[k]).run || (s.chains[k]).startAt.isSome || s.boot.runMask.getLsbD k.val) && (s.chains[k]).stopAt.isNone

def section02 (s : State) : List Word := (allSetts.flatMap (settWords s)) ++ words64 s.runSetts

/-- A record of section 0x03: the range in force and its targets (R99). -/
def section03 (s : State) : List Word :=
  s.chans.toList.flatMap fun x =>
    let c := x.coefs.toList.getD x.range.toNat CoefSet.reset
    [w32 (fld 0 3 x.range.toNat + fld 3 10 c.trimT.toNat), c.offsetT, c.gainT, 0]

def section04 (s : State) : List Word :=
  (List.finRange 24).flatMap fun q =>
    let x := s.quad[q]
    if x.enable then
      [w32 (q.val + flag 5 true + flag 6 true + flag 7 x.adapt + flag 8 x.invert + flag 9 x.refRequired + flag 11 true +
         fld 12 4 x.winLog2.toNat + fld 16 8 x.pairBase.toNat + fld 24 8 x.adjMs.toNat),
       w32 (fld 0 16 x.minSpeed.toNat + fld 16 8 x.radMin.toNat), 0, 0] ++ coefWords x.target
    else []

def section05 (s : State) : List Word :=
  let c := s.time.cfg
  [1, servoWord c] ++ (allPorts.flatMap fun p => [w32 (3 + fld 2 5 p.val), timePortWord c p]) ++
  [w32 (fld 0 2 (sourceCode c.source) + flag 2 c.srcRequired + fld 3 3 c.ptpPort.toNat + flag 6 c.ptpUdp + fld 7 7 c.ptpDomain.toNat),
   w32 (fld 0 16 c.ppsDelay.toNat + fld 16 16 c.srcLock.toNat), 0, 0,
   w32 (1 + fld 1 14 c.stepLimit.toNat + fld 15 7 c.slewMax.toNat)]

/-- LANE_SLEEP carries no sleep request: the port is brought up before it may sleep again. -/
def section06 (s : State) : List Word :=
  allPorts.flatMap fun p =>
    let l := s.lane p
    if l.enable then
      [w32 (p.val + flag 5 true + fld 6 8 l.settings.toNat), w32 (p.val + flag 5 true), w32 (tapsWord l.tapsT), 0, 0,
       w32 (p.val + flag 5 true + flag 8 l.autoWake + fld 9 7 l.wakeUs.toNat)]
    else []

def section07 (s : State) : List Word :=
  ((List.finRange 1024).flatMap fun d =>
    let r := s.fab.routes[d]
    if r.1 == 0x3F && r.2 == 0x3F then [] else [w32 (d.val + flag 10 true), w32 (fld 0 6 r.1.toNat + fld 6 6 r.2.toNat), 0]) ++
  (allPorts.flatMap fun p =>
    let q := s.port p
    [w32 (p.val + flag 10 true + flag 11 true), w32 q.weights.toNat, w32 (fld 0 8 q.ackWait.toNat + fld 8 8 q.spillThresh.toNat)]) ++
  (List.finRange 8).flatMap fun u =>
    let x := s.fab.uplinks[u]
    if s.isEth (uplinkPort u) then
      (w32 (u.val + flag 3 true) :: interfaceWords x) ++
      (List.finRange 16).flatMap fun e =>
        if x.eps[e].enable || x.eps[e].ip != (0 : Word) then w32 (u.val + flag 3 true + flag 4 true + fld 5 4 e.val) :: endpointWords x.eps[e] else []
    else []

/-- The words of a plan image (R219). -/
def Bank.image (b : Bank) : List Word := (List.range (8 + b.count)).flatMap fun k => words64 (b.word k).toNat

/-- The reservation RES of a stream (R542). -/
def reservation (full : Bool) (q : BitVec 48) : BitVec 48 := if full then q + 0x1000000 else q

/-- Section 0x09: NEXT_SEQ and RES of each stream; the last checkpoint of a yield reserves nothing (R541, R542, R549). -/
def section09 (reserve : Bool) (s : State) : List Word :=
  s.hoard.streams.toList.flatMap fun t => seqWords t.nextSeq 0 ++ seqWords (reservation reserve t.nextSeq) 0

/-- A record of section 0x10 for each channel and range that holds stored coefficients (R99). -/
def section10 (s : State) : List Word :=
  (List.finRange 384).flatMap fun c => (List.finRange 5).flatMap fun r =>
    let x := (s.chans[c]).coefs[r]
    if x.stored then [w32 (c.val + fld 9 3 r.val + fld 12 10 x.trimT.toNat), x.offsetT, x.gainT, 0] else []

/-- ACC_CONFIG of an accumulator whose settings are not those of reset. -/
def accWords (kind i : Nat) (base a : Acc) : List Word :=
  if a.enable == base.enable && a.nLog2 == base.nLog2 && a.emit == base.emit && a.oob == base.oob then []
  else [w32 (fld 0 2 kind + fld 2 9 i + flag 12 true + flag 13 a.enable + fld 14 5 a.nLog2.toNat + flag 19 a.emit + fld 20 8 a.oob.toNat)]

/-- Section 0x11: the number of PRJ_DEFINE commands, these, PRJ_ENABLE and the ACC_CONFIG words. -/
def section11 (s : State) : List Word :=
  let ps := (List.finRange 64).filter fun p => !(s.prj p).defn.terms.isEmpty
  let on := maskOf 64 fun p => (s.prj p).enabled
  [w32 ps.length] ++
  (ps.flatMap fun p =>
    let d := (s.prj p).defn
    w32 (p.val + flag 6 true + fld 7 6 d.terms.length + fld 13 6 d.outShift.toNat) :: d.words) ++
  words64 on ++ [(1 : Word)] ++
  ((List.finRange 384).flatMap fun i => accWords 0 i.val Acc.reset s.red.accCh[i]) ++
  ((List.finRange 64).flatMap fun i => accWords 1 i.val Acc.reset s.red.accPrj[i]) ++
  (List.finRange 384).flatMap fun i => accWords 2 i.val Acc.rawReset s.red.accRaw[i]

/-- QUEUE_CONFIG of every queue, ring and of the spill region. -/
def queueCommands (s : State) : List Word :=
  ((List.finRange 76).flatMap fun q => [w32 (q.val + flag 9 true), queueSettings s.hoard.queues[q]]) ++
  ((List.finRange 54).flatMap fun t =>
    let x := s.hoard.streams[t]
    [w32 (t.val + fld 7 2 1 + flag 9 true), w32 (fld 0 12 x.sizeMib.toNat + fld 12 6 x.recMax.toNat)]) ++
  [w32 (fld 7 2 2 + flag 9 true), w32 (fld 0 11 s.hoard.spillMib.toNat + fld 11 16 s.hoard.spillAge.toNat)]

/-- The tick of the first entry of a record, or of the next one where it is not held. -/
def State.entryTick (s : State) (stream : Nat) (q : BitVec 48) : Nat :=
  match (finOf 54 stream).bind fun t => s.hoard.streams[t].held.find? fun r => r.seq == q with
  | some r => (s.tickOfLc r.lc.toNat).toNat
  | none => s.tkN

/-- A subscription: SUB_OPEN, RUN with the number of cursors, and each cursor's ACKED and tick. -/
def subWords (s : State) (i : Fin 64) (u : Sub) : List Word :=
  let m := (u.cursors.map fun c => 2 ^ c.stream).sum
  [w32 (i.val + flag 16 u.uplink + fld 17 10 u.dest.toNat)] ++ words64 m ++
  [w32 (fld 0 13 u.window.toNat + fld 13 4 u.maxResends.toNat), w32 u.ackUs.toNat, w32 (fld 0 8 u.run.toNat + fld 8 8 u.cursors.length)] ++
  u.cursors.flatMap fun c => seqWords c.acked c.stream ++ words64 (s.entryTick c.stream (c.acked + 1))

/-- Section 0x12: QUEUE_CONFIG, the number of subscriptions with each one, and the marks with their stream masks. What a start from a
checkpoint has yet to restore is written as it was read. -/
def section12 (s : State) : List Word :=
  match s.pair.restore with
  | some r => queueCommands s ++ r.subs
  | none =>
  let us := (List.finRange 64).filterMap fun i => (s.hoard.subs[i]).map fun u => (i, u)
  queueCommands s ++ [w32 us.length] ++ (us.flatMap fun u => subWords s u.1 u.2) ++
  (List.finRange 256).flatMap fun m => match s.hoard.marks[m] with
    | some k => w32 (m.val + flag 8 k.guardMib.isSome + fld 9 16 (k.guardMib.getD 0)) :: words64 ((k.parts.map fun p => 2 ^ p.1).sum)
    | none => []

def section13 (s : State) : List Word :=
  match s.owl.block with
  | none => []
  | some b => b.words ++ [s.owl.scv] ++ (List.finRange 8).flatMap fun n =>
      if b.soUsed.getLsbD n.val then
        [w32 (n.val + flag 3 true + fld 4 10 (s.owl.sos[n]).width.toNat + fld 14 10 (s.owl.sos[n]).period.toNat)]
      else []

/-- A slot record of section 0x14; an image for the host carries no key (R99, R100). -/
def slotWords (keys : Bool) (k : KeySlot) : List Word :=
  match k.key with
  | none => List.replicate 12 0
  | some b => [w32 k.roles.toNat] ++ (if keys then (wordsOfBytes b).take 8 else List.replicate 8 0) ++
      (wordsOfBytes (sha256 b)).take 2 ++ [0]

def section14 (keys : Bool) (s : State) : List Word := (s.prot.slots.toList.flatMap (slotWords keys)) ++ [s.prot.cfg]

/-- FLT_COEF_LOAD of one pass, in chunks of at most 128 coefficients: the first words of each and its coefficients. -/
def coefChunks (k pass at_ : Nat) : Nat → List (BitVec 24) → List (Word × List Word)
  | 0, _ => []
  | n + 1, l =>
    if l.isEmpty then []
    else (w32 (k + fld 7 2 pass + fld 9 8 at_ + fld 17 8 (l.take 128).length), (l.take 128).map coefWord) ::
      coefChunks k pass (at_ + 128) n (l.drop 128)

/-- The commands that load a custom table: the last one completes it (R184, R185). -/
def tableCommands (k : SettId) (t : FirTable) : List (List Word) :=
  let cs := coefChunks k.val 0 0 3 (t.coefs.take t.tapsA) ++ coefChunks k.val 1 0 3 (t.coefs.drop t.tapsA)
  let tail := [w32 (fld 0 9 t.tapsA + fld 9 9 t.tapsB + flag 18 t.linear + fld 19 3 t.cicOrder.toNat), w32 t.gdNs,
    crcWords (t.coefs.map coefWord)]
  (cs.dropLast.map fun c => [c.1, 0, 0, 0] ++ c.2) ++ (cs.drop (cs.length - 1)).map fun c => [c.1 + w32 (flag 25 true)] ++ tail ++ c.2

/-- A measurement unit whose settings TDC_WINDOW would take. -/
def MeasUnit.settable (u : MeasUnit) : Bool :=
  decide (4 ≤ u.wPost.toNat) && decide (u.wPost.toNat ≤ 1000000000) && !(u.startIn == u.stopIn && u.startFall == u.stopFall)

/-- Section 0x15: the number of FLT_COEF_LOAD commands, these, TDC_CONFIG of each input, and TDC_WINDOW. -/
def section15 (s : State) : List Word :=
  let cs := allSetts.flatMap fun k => match (s.chains[k]).custom with
    | some t => tableCommands k t
    | none => []
  [w32 cs.length] ++ cs.flatten ++
  ((List.finRange 16).flatMap fun i => [w32 (i.val + flag 4 true), w32 (edgeSettings s.tdc.inputs[i]), (s.tdc.inputs[i]).delayPs]) ++
  (List.finRange 8).flatMap fun m =>
    if (s.tdc.units[m]).settable then
      match unitWords m s.tdc.units[m] with
      | w :: t => (w + w32 (flag 3 true)) :: t
      | [] => []
    else []

/-- Nanoseconds of an hour. -/
def hourNs : Nat := 3600000000000

/-- Powered hours: those of the margin plan and those of LC since the start (R563). -/
def State.poweredHours (s : State) : Nat := s.health.poweredH.toNat + s.lcN / hourNs

/-- Hours left of the baseline (R563, R570). -/
def State.baselineLeft (s : State) : Nat := if s.health.baseline then s.health.baselineH - s.lcN / hourNs else 0

/-- A margin with its history: three words for a daily value, numerator and denominator. -/
def marginWords (m : Margin) : List Word :=
  [w32i m.threshold, w32i m.limit,
   w32 (flag 0 m.actEn + flag 1 m.recentred + fld 2 5 m.steps + fld 7 5 m.daily.length + fld 12 16 m.dailyCount), w32 m.samples] ++
  words64 (lowBits 64 m.sum) ++ m.daily.flatMap fun q => words64 (lowBits 64 q.num) ++ [w32 q.den]

/-- Section 0x16, in a layout of the hub's own: the margin plan, and at its end the retirement map (R99, R556). -/
def section16 (s : State) : List Word :=
  let h := s.health
  [1, w32 s.poweredHours,
   w32 (flag 0 h.baseline + fld 1 7 s.baselineLeft + flag 8 h.vcoreFailed + fld 9 6 h.presets.toNat + fld 15 2 (h.refresh[0]).toNat +
     fld 17 2 (h.refresh[1]).toNat + fld 19 8 s.sup.vcoreReq.toNat), w32 h.horizon.toNat] ++
  words64 ((List.finRange 32).map fun p => h.retunes[p] * 4 ^ p.val).sum ++
  h.margins.toList.flatMap marginWords ++
  (List.range 12).map (fun k => w32 (maskOf 384 (fun c => (s.chans[c]).retired) / 2 ^ (32 * k))) ++
  words64 (maskOf 48 fun k => (s.setts[k]).isolated) ++ [w32 (maskOf 4 fun d => (s.dens[d]).isolated)]

/-- Section 0x01 of a checkpoint adds FAB_GEN, DIGEST, CONFIG_GEN and PLAN_ID (R98, R541; log entry 14). -/
def section01 (checkpoint : Bool) (s : State) : List Word :=
  joinWords s ++ pairWords01 s.pair ++
  if checkpoint then [s.fabGen] ++ words64 s.fabDigest.toNat ++ [s.fabGen, s.plan.bank.header 5] else []

/-- The bytes of a plan image that a checkpoint may carry (R541). -/
def planLimit : Nat := 8256

/-- The plan image as section 0x08: a checkpoint leaves out one that is larger than its limit. -/
def section08 (checkpoint : Bool) (b : Bank) (active : Bool) : List (Nat × List Word) :=
  let w := b.image
  if active && (!checkpoint || decide (4 * w.length ≤ planLimit)) then [(0x08, w)] else []

/-- The resume sections of a full checkpoint, given the bank whose plan it carries. -/
def resumeSections (reserve : Bool) (b : Bank) (active : Bool) (s : State) : List (Nat × List Word) :=
  [(0x01, section01 true s), (0x02, section02 s), (0x03, section03 s), (0x04, section04 s), (0x05, section05 s), (0x06, section06 s),
   (0x07, section07 s)] ++ section08 true b active ++ [(0x09, section09 reserve s)]

/-- The rest sections of a full checkpoint. -/
def restSections (s : State) : List (Nat × List Word) :=
  [(0x10, section10 s), (0x11, section11 s), (0x12, section12 s), (0x13, section13 s), (0x14, section14 true s), (0x15, section15 s),
   (0x16, section16 s), (0x17, s.fab.image)]

/-- The sections of a delta (R541). -/
def deltaSections (reserve : Bool) (s : State) : List (Nat × List Word) := [(0x09, section09 reserve s), (0x12, section12 s)]

/-- The sections of a boot configuration for which there is content (R98, R100). -/
def bootSections (s : State) : List (Nat × List Word) :=
  ([(0x01, section01 false s), (0x02, section02 s), (0x04, section04 s), (0x05, section05 s), (0x06, section06 s), (0x07, section07 s)] ++
    section08 false s.plan.bank s.plan.active ++
    [(0x10, section10 s), (0x11, section11 s), (0x13, section13 s), (0x14, section14 false s), (0x15, section15 s), (0x16, section16 s),
     (0x17, s.fab.image)]).filter fun x => !x.2.isEmpty

/-! Sizes (R540, R543). -/

/-- Bytes of a header, a directory and sections. -/
def sectionBytes (l : List (Nat × List Word)) : Nat := 64 + (l.map fun x => 8 + 4 * x.2.length).sum

/-- A checkpoint under the configuration in force exceeds its slot, a delta its own, or the resume part its bound; a plan whose swap
is pending counts as well (R543). -/
def State.overLimits (s : State) : Bool :=
  let banks := (s.plan.bank, s.plan.active) :: (if s.plan.swap.isSome then [(s.plan.banks[1 - s.plan.activeBank], true)] else [])
  let rest := restSections s
  banks.any (fun b =>
    let r := resumeSections true b.1 b.2 s
    decide (360448 < sectionBytes (r ++ rest)) || decide (20480 < sectionBytes r + 8 * rest.length)) ||
  decide (131072 < sectionBytes (deltaSections true s))

end Sys2Proof.Machine
end

