-- ==== Sys2Proof/Machine/Serve.lean ====
section
/-! DEFINITION. How a request is served: sessions, lockout, MAC, replay cache, access, mode and length, and the reply
(R443 to R461, R520). Each command's meaning is `serve` of its own CmdSpec. -/

namespace Sys2Proof.Machine

/-! Status codes (R459). -/
def stOk : Nat := 0x0000
def stDuplicate : Nat := 0x0001
def stInProgress : Nat := 0x0002
def stRetryLater : Nat := 0x0003
def stBusy : Nat := 0x0010
def stCalBusy : Nat := 0x0011
def stPreempted : Nat := 0x0012
def stCalBounds : Nat := 0x0013
def stBadOpcode : Nat := 0x0020
def stBadParam : Nat := 0x0021
def stBadLength : Nat := 0x0022
def stBadCrc : Nat := 0x0023
def stUnreachable : Nat := 0x0024
def stAuthFail : Nat := 0x0030
def stSecondParty : Nat := 0x0031
def stProtected : Nat := 0x0032
def stLockedOut : Nat := 0x0033
def stNoSession : Nat := 0x0034
def stStale : Nat := 0x0040
def stOvertaken : Nat := 0x0050
def stNotInMode : Nat := 0x0060
def stPlanInvalid : Nat := 0x0070
def stSafeLocked : Nat := 0x0080
def stMismatch : Nat := 0x0090

/-- What is known of a request when its own checks begin: the packet, its session and principal. `replay` marks a
section of a boot configuration or checkpoint applied as the hub's own state (R98, R541). -/
structure Ctx where
  packet  : Packet
  session : Option (Fin 8)
  slot    : Option (Fin 8)
  roles   : BitVec 4
  replay  : Bool
  deriving DecidableEq, Repr

/-- What a command's own checks and effect answer: a reply now, a reply with a MAC under a key of its own (R453), or a
reply that is made available later (R449). -/
inductive Res where
  | done (status : Nat) (words : List Word) (s : State)
  | keyed (status : Nat) (words : List Word) (key : List Byte) (s : State)
  | deferred (s : State)

/-- A refusal: no result words, no effect. -/
def refuse (status : Nat) (s : State) : Res := .done status [] s

/-- An opcode's catalogue entry (R461): code, access (step 11 of R450), mode (step 12; 0 accepts), length (step 13), and
the command's own checks and effect (step 14). -/
structure CmdSpec where
  code   : Nat
  access : Ctx → List Word → State → Bool
  mode   : List Word → State → Nat
  length : List Word → Bool
  body   : Ctx → List Word → State → Res

/-! Access classes (R460). -/
def accAny (_ : Ctx) : Bool := true
def accOp (c : Ctx) : Bool := c.session.isSome
def accEng (c : Ctx) : Bool := c.session.isSome && c.roles &&& 0b1010 != 0
def accSaf (c : Ctx) : Bool := c.session.isSome && c.roles &&& 0b0100 != 0
def accSvc (c : Ctx) : Bool := c.session.isSome && c.roles &&& 0b1000 != 0
def accRoles (mask : BitVec 4) (c : Ctx) : Bool := c.session.isSome && c.roles &&& mask != 0

/-- Served in every mode that serves commands (R448). -/
def modeAll (_ : List Word) (_ : State) : Nat := stOk

/-- The status of a mode check. -/
def modeIf (b : Bool) : Nat := if b then stOk else stNotInMode

/-- A mode check that depends on a parameter field: that field's own checks come first (step 12 of R450). -/
def modeField (fieldOk inMode : Bool) : Nat := if fieldOk then modeIf inMode else stBadParam

/-! Fields of the packet header (R443). -/
def reqAuth (p : Packet) : Bool := p.flags.getLsbD 1
def reqLocal (p : Packet) : Bool := p.flags.getLsbD 2

/-- The header of the request as it stood in the packet. -/
def requestHeader (code : Nat) (p : Packet) : List Word :=
  [w32 (fld 0 16 code + fld 16 8 p.flags.toNat + fld 24 8 p.session.toNat), p.reqId,
   w32 (4 * p.params.length + fld 16 10 p.hubId.toNat + fld 26 6 p.resv.toNat), p.word3]

/-- The reply packet (R443, R444). -/
def replyBytes (code : Nat) (p : Packet) (hub : BitVec 10) (status orig : Nat) (dropped : Bool) (words : List Word)
    (key : Option (List Byte)) : List Byte :=
  let flags := 1 + flag 1 key.isSome + flag 2 (reqLocal p) + flag 3 dropped
  let head := bytesOfWords ([w32 (fld 0 16 code + fld 16 8 flags + fld 24 8 p.session.toNat), p.reqId,
    w32 (4 * words.length + fld 16 10 hub.toNat), w32 (fld 0 16 status + fld 16 16 orig)] ++ words)
  let mac := match key with
    | some k => (hmac k head).take 16
    | none => []
  let all := head ++ mac
  all ++ wordBytes (crc32c all)

/-- A reply goes back where its request came from: it waits on the control port, or travels in a REPLY frame to the hub or
to the uplink address (R441, R446). -/
def sendReply (p : Packet) (bytes : List Byte) (s : State) : State :=
  match p.origin with
  | .controlPort => s.modCmd fun c => { c with replies := c.replies ++ [bytes] }
  | .hub src =>
    sendFrame (mkFrame s 2 0x05 false false src p.ep (wordsOfBytes bytes))
      (s.modCmd fun c => { c with sentReplies := (p.origin, bytes) :: c.sentReplies })
  | .uplink _ _ _ => s.modCmd fun c => { c with sentReplies := (p.origin, bytes) :: c.sentReplies }

/-- A session that is open: 600 s without an authenticated request close it (R454). -/
def State.openSession (s : State) (i : Fin 8) : Option Session :=
  match s.cmd.sessions[i] with
  | some x => if s.lcN < x.usedAt + 600000000000 then some x else none
  | none => none

/-- SESSION of a request as an index: 1 to 8 (R451). -/
def sessionIndex (n : Byte) : Option (Fin 8) :=
  if h : 1 ≤ n.toNat ∧ n.toNat ≤ 8 then some ⟨n.toNat - 1, by omega⟩ else none

/-- SESSIONS_OPEN: bit n for session n (R462). -/
def State.sessionsOpen (s : State) : Nat := 2 * maskOf 8 fun i => (s.openSession i).isSome

/-- The slot is locked out (R520). -/
def State.lockedOut (s : State) (k : Fin 8) : Bool :=
  match s.prot.slots[k].lockedUntil with
  | some t => decide (s.time.aonNs < t)
  | none => false

def State.modSlotKey (s : State) (k : Fin 8) (f : KeySlot → KeySlot) : State :=
  s.modProt fun p => { p with slots := vmod p.slots k f }

/-- The lockout of a slot ends: the count is 0, and a LOCKOUT notice with CLEARED says so (R520). -/
def endLockout (k : Fin 8) (s : State) : State :=
  raise (s.modSlotKey k fun x => { x with fails := 0, lockedUntil := none }) 0x0703 [w32 (k.val + 8)]

/-- A failed authentication of a slot: the fifth in a row locks it out for 900 s (R520). A lockout that is over by now has ended
first. -/
def failAuth (k : Fin 8) (s0 : State) : State :=
  if s0.lockedOut k then s0
  else
    let s := if s0.prot.slots[k].lockedUntil.isSome then endLockout k s0 else s0
    let n := s.prot.slots[k].fails + 1
    if n < 5 then s.modSlotKey k fun x => { x with fails := n }
    else
      raise (s.modSlotKey k fun x => { x with fails := 0, lockedUntil := some (s.time.aonNs + 900000000000) })
        0x0703 [w32 k.val]

/-- An authentication that succeeds resets the count (R520). -/
def passAuth (k : Fin 8) (s : State) : State := s.modSlotKey k fun x => { x with fails := 0 }

def State.modSession (s : State) (i : Fin 8) (f : Session → Session) : State :=
  s.modCmd fun c => { c with sessions := vmod c.sessions i fun x => x.map f }

/-- A session closes, with its cache (R454). -/
def closeSession (i : Fin 8) (s : State) : State :=
  s.modCmd fun c => { c with sessions := vset c.sessions i none }

/-- Every session of a slot closes (R454, R517). -/
def closeSlotSessions (k : Fin 8) (s : State) : State :=
  forEach (List.finRange 8) (fun s i =>
    match s.cmd.sessions[i] with
    | some x => if x.slot = k then closeSession i s else s
    | none => s) s

/-- The replay cache of a request (R447, R455). -/
def State.cacheOf (s : State) (p : Packet) : Cache :=
  match sessionIndex p.session with
  | some i => match s.cmd.sessions[i] with
    | some x => x.cache
    | none => Cache.empty
  | none =>
    if !s.boot.fwRuns then s.cmd.bootCache
    else ((s.cmd.caches.find? fun c => c.1 == p.origin).map (·.2)).getD Cache.empty

/-- The replay cache of a request written back; among the session-0 caches it becomes the one used last, and the 17th
origin drops the one least recently used (R455). -/
def putCache (p : Packet) (c : Cache) (s : State) : State :=
  match sessionIndex p.session with
  | some i => s.modSession i fun x => { x with cache := c }
  | none =>
    if !s.boot.fwRuns then s.modCmd fun m => { m with bootCache := c }
    else s.modCmd fun m =>
      { m with caches := ((p.origin, c) :: m.caches.filter fun x => x.1 != p.origin).take 16 }

/-- What steps 7 and 8 find (R456). -/
inductive Seen where
  | stale | reuse | executing | duplicate (e : CacheEntry) | fresh
  deriving DecidableEq, Repr

/-- HIGH of a cache; an empty one counts as one below the request (R456). -/
def cacheHigh (c : Cache) (r : Word) : Word := c.high.getD (r - 1)

/-- The age of a request in its cache (R456). -/
def cacheAge (c : Cache) (r : Word) : Nat := (cacheHigh c r - r).toNat

/-- Step 7 of R450 (R456). -/
def lookCache (c : Cache) (p : Packet) : Seen :=
  let age := cacheAge c p.reqId
  if 64 ≤ age ∧ age < 2 ^ 31 then .stale
  else match c.entries.find? fun e => e.reqId == p.reqId with
    | none => .fresh
    | some e => if e.crc ≠ p.crc then .reuse else if e.reply.isNone then .executing else .duplicate e

/-- The cache once the request executes (R456). -/
def enterCache (c : Cache) (p : Packet) : Cache :=
  let h := if 2 ^ 31 ≤ cacheAge c p.reqId then p.reqId else cacheHigh c p.reqId
  { high := some h
    entries := { reqId := p.reqId, crc := p.crc, reply := none } ::
      c.entries.filter fun e => decide ((h - e.reqId).toNat < 64) }

/-- The cache with the reply of a request kept: results beyond 512 bytes are dropped (R457). -/
def keepReply (c : Cache) (p : Packet) (status : Nat) (words : List Word) : Cache :=
  let d := decide (128 < words.length)
  { c with entries := c.entries.map fun e =>
      if e.reqId = p.reqId ∧ e.crc = p.crc then { e with reply := some (BitVec.ofNat 16 status, d, if d then [] else words) } else e }

/-- The key for the MAC of a reply: that of the request's session (R444). -/
def State.macKey (s : State) (p : Packet) : Option (List Byte) :=
  match sessionIndex p.session with
  | some i => (s.cmd.sessions[i]).map (·.key)
  | none => none

/-- A refusal before step 8: it leaves no entry in the cache (R450). -/
def early (code : Nat) (p : Packet) (status : Nat) (key : Option (List Byte)) (s : State) : State :=
  sendReply p (replyBytes code p s.fab.hubId status 0 false [] key) s

/-- The reply of a request that has executed: kept in its cache and sent (R457). -/
def answerWith (code : Nat) (p : Packet) (key : Option (List Byte)) (status : Nat) (words : List Word) (s : State) : State :=
  sendReply p (replyBytes code p s.fab.hubId status 0 false words key)
    (putCache p (keepReply (s.cacheOf p) p status words) s)

/-- Where the reply of a request goes that is made later, with the key of its session as it stands now (R444, R449). -/
def Ctx.replyTo (c : Ctx) (s : State) : ReplyTo := { packet := c.packet, key := s.macKey c.packet }

/-- The reply of a request that was deferred (R449). -/
def answerLater (code : Nat) (r : ReplyTo) (status : Nat) (words : List Word) (s : State) : State :=
  answerWith code r.packet r.key status words
    (s.modCmd fun c => { c with running := c.running.filter fun x => x.packet != r.packet })

/-- Step 9: the reserved parts of the header (R443). -/
def headerClean (p : Packet) : Bool := p.flags &&& 0xF9 == 0 && p.resv == 0 && p.word3 == 0

/-- Steps 9 to 14 of R450: the status of the first check that fails, or what the command does. -/
def runSpec (sp : CmdSpec) (c : Ctx) (p : Packet) (s : State) : Res :=
  if !headerClean p then refuse stBadParam s
  else if !sp.access c p.params s then refuse stProtected s
  else if sp.mode p.params s ≠ stOk then refuse (sp.mode p.params s) s
  else if !sp.length p.params then refuse stBadLength s
  else sp.body c p.params s

/-- On a paired hub a command is refused that would take a checkpoint, a delta or the resume part beyond its limit (R543). -/
def State.breaksLimits (s s2 : State) : Bool := s.pair.paired && s2.overLimits && !s.overLimits

/-- A request that has passed step 8 executes: its entry goes into the cache, then its reply (R449, R457, R543). -/
def execute (sp : CmdSpec) (c : Ctx) (p : Packet) (s : State) : State :=
  let key := s.macKey p
  let s1 := putCache p (enterCache (s.cacheOf p) p) s
  match runSpec sp c p s1 with
  | .done st ws s2 =>
    if st == stOk && s1.breaksLimits s2 then answerWith sp.code p key stBadParam [] s1 else answerWith sp.code p key st ws s2
  | .keyed st ws k s2 => answerWith sp.code p (some k) st ws s2
  | .deferred s2 => s2.modCmd fun m => { m with running := m.running ++ [{ packet := p }] }

/-- SYS_RESET answered from the REQ_ID kept in PD_AON: within 10 s of the entry to Start-up that followed it (R80). -/
def State.resetRepeated (s : State) (code : Nat) (p : Packet) : Bool :=
  code == 0x0102 && s.sup.lastSysReset == some p.reqId && s.sup.sysResetDue.isNone &&
  (match s.sup.resetEntry with
    | some t => decide (s.time.aonNs < t + 10000000000)
    | none => false)

/-- Steps 7 and 8 of R450, then execution (R456). -/
def afterAuth (sp : CmdSpec) (c : Ctx) (p : Packet) (s : State) : State :=
  let key := s.macKey p
  if s.resetRepeated sp.code p then
    sendReply p (replyBytes sp.code p s.fab.hubId stDuplicate stOk false [] key) s
  else match lookCache (s.cacheOf p) p with
    | .stale => early sp.code p stStale key s
    | .reuse => early sp.code p stBadParam key s
    | .executing => early sp.code p stInProgress key s
    | .duplicate e =>
      match e.reply with
      | some (st, d, ws) => sendReply p (replyBytes sp.code p s.fab.hubId stDuplicate st.toNat d ws key) s
      | none => s
    | .fresh => if 16 ≤ s.cmd.running.length then early sp.code p stRetryLater key s else execute sp c p s

/-- The MAC of the request verifies under a key (R452). -/
def macOk (code : Nat) (p : Packet) (key : List Byte) : Bool :=
  (hmac key (bytesOfWords (requestHeader code p ++ p.params))).take 16 == p.mac

/-- Steps 4 to 6 of R450 (R451, R452, R520), then the rest. -/
def servePacket (sp : CmdSpec) (p : Packet) (s : State) : State :=
  if p.session = 0 then
    if reqAuth p then early sp.code p stAuthFail none s
    else afterAuth sp { packet := p, session := none, slot := none, roles := 0, replay := false } p s
  else match (sessionIndex p.session).bind fun i => (s.openSession i).map fun x => (i, x) with
    | none => early sp.code p stNoSession none s
    | some (i, x) =>
      if !reqAuth p then early sp.code p stAuthFail none s
      else if s.lockedOut x.slot then early sp.code p stLockedOut none s
      else if !macOk sp.code p x.key then early sp.code p stAuthFail none (failAuth x.slot s)
      else
        afterAuth sp { packet := p, session := some i, slot := some x.slot, roles := s.prot.slots[x.slot].roles, replay := false }
          p ((passAuth x.slot s).modSession i fun y => { y with usedAt := s.lcN })

/-- The firmware boot step has begun, so packets are accepted (R442). -/
def State.accepting (s : State) : Bool := s.served && s.boot.fwMem && !s.prot.switching

/-- PKT_READY (R441). -/
def State.pktReady (s : State) : Bool := s.accepting && decide (s.cmd.held < 4)

/-- The control port answers at all: not in reset, Hibernate or Off, and from step 0x2 on (R442). -/
def State.portLive (s : State) : Bool := s.served && s.boot.domains

/-- CP_DROPPED counts a packet that was discarded (R441). -/
def dropPacket (s : State) : State := s.modCmd fun c => { c with dropped := satInc c.dropped }

/-- The boot loader serves this request (R447): control port, session 0, SYS_INFO, SYS_RESET and FW_STAGE. -/
def bootServes (code : Nat) : Bool := code == 0x0100 || code == 0x0102 || code == 0x0E04

/-- The opcode as the boot loader meets it: any other one is refused with NOT_IN_MODE (R447). -/
def bootSpec (sp : CmdSpec) : CmdSpec :=
  if bootServes sp.code then { sp with access := fun c _ _ => accAny c }
  else { sp with access := fun c _ _ => accAny c, mode := fun _ _ => stNotInMode }

/-- The request is taken up: from the inbox when PKT_WRITE or a frame has put it there, else as it arrives (R441). None
when it is discarded. -/
def takeUp (code : Nat) (p : Packet) (s : State) : Option State :=
  let e := (BitVec.ofNat 16 code, p)
  if s.cmd.inbox.contains e then some (s.modCmd fun c => { c with inbox := c.inbox.erase e })
  else if p.origin = .controlPort then
    if s.pktReady then some (s.modCmd fun c => { c with held := c.held + 1 }) else none
  else some s

/-- A request is served (R446 to R450). -/
def serveState (sp : CmdSpec) (p : Packet) (s : State) : State :=
  if !s.portLive then s
  else if !s.accepting then (if p.origin = .controlPort then dropPacket s else s)
  else match takeUp sp.code p s with
    | none => dropPacket s
    | some s1 =>
      if s.boot.fwRuns then servePacket sp p s1
      else if p.origin = .controlPort then servePacket (bootSpec sp) p s1 else s

/-- The meaning of an opcode row. -/
def serve (sp : CmdSpec) (p : Packet) (s : State) : Out := .next (serveState sp p s)

/-- A request of the hub's own: a section of a boot configuration or checkpoint (R98, R541). -/
def replayPacket (words : List Word) : Packet :=
  { origin := .controlPort, ep := none, flags := 0, session := 0, reqId := 0, hubId := 0, resv := 0, word3 := 0,
    params := words, mac := [], crc := 0 }

def replayCtx (words : List Word) : Ctx :=
  { packet := replayPacket words, session := none, slot := none, roles := 0xF, replay := true }

/-- A command of a section, applied as the hub's own state: none where the command would refuse (R98). -/
def replayCmd (sp : CmdSpec) (words : List Word) (s : State) : Option State :=
  if !sp.length words then none
  else match sp.body (replayCtx words) words s with
    | .done st _ s' => if st = stOk then some s' else none
    | .keyed _ _ _ _ => none
    | .deferred _ => none

end Sys2Proof.Machine
end

