-- ==== Sys2Proof/Machine/Counters.lean ====
section
/-! DEFINITION. The counters by number, as COUNTERS_READ, COUNTERS_CLEAR and CNT_SEL address them (R558 to R560). -/

namespace Sys2Proof.Machine

/-- A counter as it is read: its value and whether it takes two words. -/
structure Count where
  value : Nat
  wide  : Bool
  sat   : Bool
  deriving DecidableEq, Repr

/-- A 32-bit counter that saturates (R558). -/
def count32 (c : Word) : Count := { value := c.toNat, wide := false, sat := satOf c }

/-- An edge-timing counter with its wrap count (R273). -/
def countWrap (c : WrapCount) : Count := { value := c.toNat, wide := true, sat := false }

/-- Age discards of TIME, CONTROL and MGMT on a port (R436). -/
def portAged (q : FabPort) : Word := satAdd q.classes[1].aged (q.classes[2].aged.toNat + q.classes[5].aged.toNat)

/-- The port words 1 to 11 of FAB_STATUS (R436). -/
def portCounters (q : FabPort) : List Word :=
  [q.framesTx, q.framesRx, q.retries, q.linkDowns, q.linkDownDrop, q.badFrame, q.stomped, q.noRoute, q.spilled,
   q.safetyStale, portAged q]

/-- CODER_STATUS words 1 to 6 (R373). -/
def coderCounters (c : Coder) : List Word := [c.blocks, c.lossy, c.histBlocks, c.stalls, c.stagingRefused, c.selfcheck]

/-- The counters of an edge input or a measurement unit, in the order of R273. -/
def edgeCounters (e : EdgeIn) : List WrapCount := [e.edges, e.lost, e.deadtime]
def unitCounters (m : MeasUnit) : List WrapCount :=
  [m.results, m.coincident, m.stopEarly, m.stopLate, m.startOrphan, m.winEmpty]

/-- The counters of one UNIT and INDEX, in order of POSITION (R560). -/
def unitCounts (s : State) (unit index : Nat) : List Count :=
  match unit with
  | 0 | 1 | 2 =>
    if index < 128 then ((finOf 384 (128 * unit + index)).map fun c => s.health.chans[c].counts.toList.map count32).getD []
    else []
  | 3 => ((finOf 48 index).map fun k =>
      s.health.setts[k].counts.toList.map count32 ++ (coderCounters s.coders[k]).map count32).getD []
  | 4 => ((finOf 4 index).map fun d => (s.health.dens[d].counts.toList.take 2).map count32).getD []
  | 5 => ((finOf 76 index).map fun q => [count32 s.hoard.queues[q].ecc, count32 s.health.queueUncorr[q]]).getD []
  | 6 => ((finOf 32 index).map fun p =>
      let l := s.lane p
      (portCounters (s.port p) ++ [l.invalidHdr, l.lockLosses, l.retrains, l.losCount, l.clampHits, l.wakes, l.errBits,
        l.syncLosses]).map count32).getD []
  | 7 =>
    if index < 16 then ((finOf 16 index).map fun i => (edgeCounters s.tdc.inputs[i]).map countWrap).getD []
    else ((finOf 8 (index - 16)).map fun m => (unitCounters s.tdc.units[m]).map countWrap).getD []
  | 8 => ((finOf 64 index).map fun p => [count32 (s.prj p).missing, count32 (s.prj p).late, count32 (s.prj p).fallbacks]).getD []
  | 9 => ((finOf 24 index).map fun q => [count32 s.quad[q].winOk, count32 s.quad[q].winRejected]).getD []
  | 10 => ((finOf 54 index).map fun t => [count32 s.hoard.streams[t].overwrites]).getD []
  | 11 =>
    if index = 0 then
      [count32 (satAdd (0 : Word) s.plan.eccCorrected), count32 s.health.dram.1, count32 s.health.dram.2,
       count32 s.hoard.spillRefused, count32 s.hoard.spillAged, count32 s.owl.missed, count32 s.owl.pulseFail,
       count32 s.pair.writeFails, count32 s.pair.takeovers]
    else []
  | _ => []

/-- The counter of a number; none sets BAD_SEL (R464, R560). -/
def counterAt (s : State) (n : Nat) : Option Count := (unitCounts s (n / 4096) (n / 32 % 128))[n % 32]?

/-- The port counters of FAB_STATUS cleared (R436). -/
def clearPortCounters (q : FabPort) : FabPort :=
  { q with framesTx := 0, framesRx := 0, retries := 0, linkDowns := 0, linkDownDrop := 0, badFrame := 0, stomped := 0,
           noRoute := 0, spilled := 0, safetyStale := 0, classes := q.classes.map fun c => { c with aged := 0 } }

/-- The checker's counters cleared (R402). -/
def clearPrbs (l : Lane) : Lane := { l with errBits := 0, bits := 0, syncLosses := 0 }

def clearEdge (e : EdgeIn) : EdgeIn := { e with edges := 0, lost := 0, deadtime := 0 }

def clearUnit (m : MeasUnit) : MeasUnit :=
  { m with results := 0, coincident := 0, stopEarly := 0, stopLate := 0, startOrphan := 0, winEmpty := 0 }

def clearUnit2 (u : Unit2) : Unit2 := { u with counts := Vector.replicate 3 0 }

/-- The counters of one UNIT and INDEX cleared (R558, R569). TAKEOVERS is never cleared (R559). -/
def clearCounts (s : State) (unit index : Nat) : State :=
  match unit with
  | 0 | 1 | 2 =>
    if index < 128 then
      match finOf 384 (128 * unit + index) with
      | some c => s.modHealth fun h => { h with chans := vmod h.chans c clearUnit2 }
      | none => s
    else s
  | 3 =>
    match finOf 48 index with
    | some k => (s.modHealth fun h => { h with setts := vmod h.setts k clearUnit2 }).modCoder k fun c =>
        { c with maxDepth := 0, blocks := 0, lossy := 0, histBlocks := 0, stalls := 0, stagingRefused := 0, selfcheck := 0 }
    | none => s
  | 4 =>
    match finOf 4 index with
    | some d => s.modHealth fun h => { h with dens := vmod h.dens d clearUnit2 }
    | none => s
  | 5 =>
    match finOf 76 index with
    | some q => (s.modQueue q fun u => { u with ecc := 0 }).modHealth fun h => { h with queueUncorr := vset h.queueUncorr q 0 }
    | none => s
  | 6 =>
    match finOf 32 index with
    | some p => (s.modPort p clearPortCounters).modLane p fun l =>
        { clearPrbs l with bits := l.bits, invalidHdr := 0, lockLosses := 0, retrains := 0, losCount := 0, clampHits := 0, wakes := 0 }
    | none => s
  | 7 =>
    if index < 16 then
      match finOf 16 index with
      | some i => s.modEdge i clearEdge
      | none => s
    else
      match finOf 8 (index - 16) with
      | some m => s.modTdc fun t => { t with units := vmod t.units m clearUnit }
      | none => s
  | 8 =>
    match finOf 64 index with
    | some p => s.modPrj p fun x => { x with missing := 0, late := 0, fallbacks := 0 }
    | none => s
  | 9 =>
    match finOf 24 index with
    | some q => s.modSlot q fun x => { x with winOk := 0, winRejected := 0 }
    | none => s
  | 10 =>
    match finOf 54 index with
    | some t => s.modStream t fun x => { x with overwrites := 0 }
    | none => s
  | 11 =>
    if index = 0 then
      ((((s.modPlan fun p => { p with eccCorrected := 0 }).modHealth fun h => { h with dram := (0, 0) }).modHoard fun h =>
        { h with spillRefused := 0, spillAged := 0 }).modOwl fun o => { o with missed := 0, pulseFail := 0 }).modPair
        fun p => { p with writeFails := 0 }
    else s
  | _ => s

/-- The number of indexes of a UNIT (R560). -/
def unitSize (unit : Nat) : Nat :=
  match unit with
  | 0 | 1 | 2 => 128
  | 3 => 48 | 4 => 4 | 5 => 76 | 6 => 32 | 7 => 24 | 8 => 64 | 9 => 24 | 10 => 54 | 11 => 1
  | _ => 0

end Sys2Proof.Machine
end

