-- ==== Sys2Proof/Machine/Window.lean ====
section
/-! DEFINITION. The register window: its words, split values and writes (R68, R77, R93, R439, R440, R464 to R468). -/

namespace Sys2Proof.Machine

/-- STEP of STARTUP_STATUS: the lowest-numbered step not yet complete, 8 once the hub has entered Service (R93); the steps
of a takeover are numbered 9 to 0xE (R544). -/
def State.startStep (s : State) : Nat :=
  let b := s.boot
  if s.sup.mode == .service || s.sup.mode == .safeCore || s.sup.mode == .test then
    (if b.takeStep = 0 then 8 else b.takeStep.toNat)
  else if b.takeStep != 0 then b.takeStep.toNat
  else if s.sup.inReset || s.sup.mode != .startup then 1
  else if !b.domains then 2
  else if !b.plls then 3
  else if !(b.fwMem && b.sram && b.owlTest && b.dram && b.dens == 0xF && b.interp) then 4
  else if !b.fwRuns then 5
  else if !(b.cfgApplied && s.plan.active) then 6
  else 7

/-- ELAPSED_MS (R93). -/
def State.elapsedMs (s : State) : Nat :=
  match s.boot.frozenMs with
  | some m => m.toNat
  | none => min 0xFFFF ((s.time.aonNs - s.boot.releaseAt) / 1000000)

def State.startupStatus (s : State) : Word :=
  w32 (fld 0 4 s.startStep + flag 4 s.boot.failed + flag 5 s.boot.waitHost + fld 8 8 s.boot.failCode.toNat +
    fld 16 16 s.elapsedMs)

/-- RESET_STATUS (R77). -/
def State.resetStatus (s : State) : Word :=
  w32 (fld 0 7 s.sup.resetCauses.toNat + flag 7 s.sup.longReset + fld 8 4 s.sup.railId.toNat + fld 16 16 s.sup.startCount.toNat)

/-- SUPPLY_STATUS (R68). -/
def State.supplyStatus (s : State) : Word :=
  w32 (fld 0 14 s.sup.railGood.toNat + flag 14 s.sup.hotLevel + fld 16 8 s.sup.vcoreReq.toNat + fld 24 8 s.sup.vcoreMeas.toNat)

/-- CHIP_ID (R464). -/
def chipId : Word := 0x00B10384

def State.fwVersionWord (s : State) : Word := if s.boot.fwRuns then w32 s.prot.fwVersion.toNat else 0

/-- HUB_STATE (R464). -/
def State.hubState (s : State) : Word :=
  if s.boot.fwRuns then w32 (fld 0 10 s.fab.hubId.toNat + flag 10 s.fab.hubIdSet + fld 11 3 s.fab.state.toNat) else 0

/-- STRAPS (R464). -/
def State.strapsWord (s : State) : Word :=
  w32 (flag 0 s.sup.straps.pairRole + fld 1 2 s.sup.straps.bootSrc.toNat)

/-- TEMP (R464). -/
def State.tempWord (s : State) : Word := w32 (fld 0 16 s.sup.tj.toNat + flag 16 s.sup.overtemp)

/-- CP_STATUS (R464). -/
def State.cpStatus (s : State) : Word :=
  w32 (flag 0 s.pktReady + flag 1 (!s.cmd.replies.isEmpty) + flag 2 (!s.cmd.nq.isEmpty) + flag 3 s.boot.fwRuns +
    flag 4 s.cmd.badInstr + fld 8 12 ((s.cmd.replies.head?.map (·.length)).getD 0) + fld 20 8 s.cmd.dropped.toNat)

/-- NT as 48-bit seconds, nanoseconds and fraction (R227). -/
def ntParts (nt : Int) : Nat × Nat × Nat :=
  let unit := 65536 * 1000000000
  let t := (nt % (2 ^ 48 * unit)).toNat
  (t / unit, t % unit / 65536, t % 65536)

/-- NT_LO, NT_MID and NT_HI of the window (R464). -/
def ntWindow (nt : Int) : Word × Word × Word :=
  let (sec, ns, fr) := ntParts nt
  (w32 ns, w32 sec, w32 (fld 0 16 (sec / 2 ^ 32) + fld 16 16 fr))

/-- CNT_LO, CNT_HI and CNT_FLAGS of the selected counter (R464, R560). -/
def State.counterWords (s : State) : Word × Word × Word :=
  match counterAt s s.cmd.cntSel.toNat with
  | some c => (w32 c.value, if c.wide then w32 (c.value / 2 ^ 32) else 0, w32 (b2n c.sat))
  | none => (0, 0, 2)

/-- A notice entry as words: header and body (R322). -/
def noticeWords (n : Notice) : List Word := w32 (fld 0 16 n.code.toNat + fld 16 8 n.body.length) :: n.body

/-- The word at an offset of the window, as a read sees it outside a split read (R464). Before the firmware runs the words
not marked H read 0. -/
def State.windowWord (s : State) (off : Nat) : Word :=
  let fw := s.boot.fwRuns
  let soft := fun (w : Word) => if fw then w else 0
  if 0x040 ≤ off ∧ off ≤ 0x07C then soft (pw ((s.cmd.nq.head?.map noticeWords).getD []) ((off - 0x040) / 4))
  else if 0x110 ≤ off ∧ off ≤ 0x13C then
    soft (w32 ((maskOf 384 fun c => (s.chans[c]).retired) / 2 ^ (8 * (off - 0x110))))
  else match off with
    | 0x000 => chipId
    | 0x004 => s.fwVersionWord
    | 0x008 => s.hubState
    | 0x00C => s.strapsWord
    | 0x010 => s.modeStatus
    | 0x014 => s.resetStatus
    | 0x018 => s.supplyStatus
    | 0x01C => s.startupStatus
    | 0x020 => soft (w32 (fld 0 16 s.time.epoch.toNat + fld 16 4 s.time.tq.toNat + flag 20 s.fab.leads))
    | 0x024 => s.tempWord
    | 0x028 => w32 (flag 0 s.cmd.tear + flag 1 s.cmd.wrIgnored + fld 4 12 s.cmd.tearAddr.toNat)
    | 0x02C => s.cpStatus
    | 0x030 => soft s.cmd.eventSummary
    | 0x034 => soft s.cmd.nqFilter
    | 0x038 => soft (w32 (fld 0 5 s.cmd.nq.length + fld 8 8 s.cmd.nqLost.toNat +
        flag 16 (decide (15 < (s.cmd.nq.head?.map (·.body.length)).getD 0))))
    | 0x080 => w32 s.lcN
    | 0x084 => w32 (s.lcN / 2 ^ 32)
    | 0x088 => w32 s.tkN
    | 0x08C => w32 (s.tkN / 2 ^ 32)
    | 0x090 => (ntWindow s.nt).1
    | 0x094 => (ntWindow s.nt).2.1
    | 0x098 => (ntWindow s.nt).2.2
    | 0x0A0 => soft (w32 s.cmd.cntSel.toNat)
    | 0x0A4 => soft s.counterWords.1
    | 0x0A8 => soft s.counterWords.2.1
    | 0x0AC => soft s.counterWords.2.2
    | 0x0B0 => w32 s.factory.dieId.toNat
    | 0x0B4 => w32 (s.factory.dieId.toNat / 2 ^ 32)
    | 0x100 => soft (w32 (maskOf 4 fun d => (s.dens[d]).isolated))
    | 0x104 => soft (w32 (maskOf 48 fun k => (s.setts[k]).isolated))
    | 0x108 => soft (w32 ((maskOf 48 fun k => (s.setts[k]).isolated) / 2 ^ 32))
    | _ => 0

/-- A word that a read has put on the control port (R439). -/
def readWord (w : Word) (s : State) : State := s.modCmd fun c => { c with lastRead := w }

/-- A read that would tear: TEAR is set with the offset (R465). -/
def tear (off : Nat) (s : State) : State :=
  s.modCmd fun c => { c with tear := true, tearAddr := BitVec.ofNat 12 off }

/-- Offset of the first word of a split value (R464). -/
def splitBase : SplitValue → Nat
  | .lc => 0x080 | .tk => 0x088 | .nt => 0x090 | .counter => 0x0A4

/-- Offset of the last word of a split value (R464). -/
def splitEnd : SplitValue → Nat
  | .lc => 0x084 | .tk => 0x08C | .nt => 0x098 | .counter => 0x0AC

/-- The words of a split value's snapshot, when it is valid (R465). -/
def snapWords (x : Snapshots) : SplitValue → Option (List Word)
  | .lc => x.lc.map fun v => words64 v.toNat
  | .tk => x.tk.map fun v => words64 v.toNat
  | .nt => x.nt.map fun (a, b, c) => [a, b, c]
  | .counter => x.counter.map fun (a, b, c) => [a, b, c]

/-- A snapshot taken of the whole value (R465). -/
def takeSnap (which : SplitValue) (s : State) : State :=
  s.modCmd fun c =>
    { c with snap := match which with
        | .lc => { c.snap with lc := some s.time.lc }
        | .tk => { c.snap with tk := some s.time.tk }
        | .nt => { c.snap with nt := some (ntWindow s.nt) }
        | .counter => { c.snap with counter := some s.counterWords } }

/-- A snapshot consumed or invalidated (R465). -/
def dropSnap (which : SplitValue) (s : State) : State :=
  s.modCmd fun c =>
    { c with snap := match which with
        | .lc => { c.snap with lc := none }
        | .tk => { c.snap with tk := none }
        | .nt => { c.snap with nt := none }
        | .counter => { c.snap with counter := none } }

/-- The selected counter is served by the firmware; the other split values by hardware (R464). -/
def splitLive (which : SplitValue) (s : State) : Bool := s.portLive && (which != .counter || s.boot.fwRuns)

/-- SPLIT_LO_READ: the snapshot is taken and its first word read (R465). -/
def execSplitLoRead (which : SplitValue) (s : State) : Out :=
  guardNext (splitLive which s) s (readWord (s.windowWord (splitBase which)) (takeSnap which s))

/-- The value has a middle word: NT_MID or CNT_HI (R465). -/
def hasMiddle : SplitValue → Bool
  | .nt | .counter => true
  | _ => false

/-- SPLIT_MID_READ: the snapshot's middle word, or the live one with TEAR (R465). -/
def execSplitMidRead (which : SplitValue) (s : State) : Out :=
  let off := splitBase which + 4
  guardNext (splitLive which s && hasMiddle which) s <|
    match snapWords s.cmd.snap which with
    | some ws => readWord (pw ws 1) s
    | none => readWord (s.windowWord off) (tear off s)

/-- SPLIT_LAST_READ: the snapshot's last word, which consumes it, or the live one with TEAR (R465). -/
def execSplitLastRead (which : SplitValue) (s : State) : Out :=
  let off := splitEnd which
  guardNext (splitLive which s) s <|
    match snapWords s.cmd.snap which with
    | some ws => readWord (ws.getLastD 0) (dropSnap which s)
    | none => readWord (s.windowWord off) (tear off s)

/-- The level of CTL_IRQ_N: low while the notice queue holds an entry (R467). -/
def State.ctlIrqN (s : State) : Bool := s.cmd.nq.isEmpty

/-! Effects of a write to a word of its own behaviour. -/
def nqPop (s : State) : State := s.modCmd fun c => { c with nq := c.nq.drop 1 }
def nqFlush (s : State) : State := s.modCmd fun c => { c with nq := [], nqLost := 0 }
def clearLongReset (s : State) : State := s.modSup fun u => { u with longReset := false }
def clearTear (s : State) : State := s.modCmd fun c => { c with tear := false }
def clearWrIgnored (s : State) : State := s.modCmd fun c => { c with wrIgnored := false }
def clearBadInstr (s : State) : State := s.modCmd fun c => { c with badInstr := false, dropped := 0 }
def clearEvents (mask : Word) (s : State) : State := s.modCmd fun c => { c with eventSummary := c.eventSummary &&& ~~~mask }
def selectCounter (v : Word) (s : State) : State :=
  dropSnap .counter (s.modCmd fun c => { c with cntSel := v.extractLsb' 0 16 })

/-- WR_IGNORED is set (R440). -/
def ignoreWrite (s : State) : State := s.modCmd fun c => { c with wrIgnored := true }

/-- The reserved bits of a word that has writable fields, and whether hardware serves it; none for a word that cannot be
written (R440, R464). -/
def writable (off : Nat) : Option (Word × Bool) :=
  match off with
  | 0x014 => some (0x0000F000, true)
  | 0x028 => some (0xFFFF000C, true)
  | 0x02C => some (0xF00000E0, true)
  | 0x030 => some (0, false)
  | 0x034 => some (0, false)
  | 0x03C => some (0xFFFFFFFC, false)
  | 0x0A0 => some (0xFFFF0000, false)
  | _ => none

/-- The effect of an accepted write. -/
def writeEffect (off : Nat) (w : Word) (s : State) : State :=
  match off with
  | 0x014 => if bit w 7 then clearLongReset s else s
  | 0x028 =>
    let s1 := if bit w 0 then clearTear s else s
    if bit w 1 then clearWrIgnored s1 else s1
  | 0x02C => if bit w 4 then clearBadInstr s else s
  | 0x030 => clearEvents w s
  | 0x034 => s.modCmd fun c => { c with nqFilter := w }
  | 0x03C => if bit w 1 then nqFlush s else if bit w 0 then nqPop s else s
  | 0x0A0 => selectCounter w s
  | _ => s

/-- One whole word written to the window (R440). -/
def writeWord (off : Nat) (w : Word) (s : State) : State :=
  match writable off with
  | none => ignoreWrite s
  | some (res, hard) =>
    if w &&& res != 0 || (!hard && !s.boot.fwRuns) then ignoreWrite s else writeEffect off w s

/-- Words written in order, the address rising by 4 and wrapping within 4 KiB (R439, R440). -/
def writeWords : Nat → List Word → State → State
  | _, [], s => s
  | off, w :: t, s => writeWords ((off + 4) % 4096) t (writeWord off w s)

/-- A transaction that the control port does not know is ignored, and BAD_INSTR is set (R439). -/
def badInstr (s : State) : State := s.modCmd fun c => { c with badInstr := true }

/-- REG_WRITE (R440): an address that is not one of a word is ignored with BAD_INSTR (R439). -/
def execRegWrite (addr : BitVec 12) (words : List Word) (s : State) : Out :=
  guardNext s.portLive s (if addr.toNat % 4 = 0 then writeWords addr.toNat words s else badInstr s)

/-- A write of one word to the window through the control port. -/
def portWrite (off : Nat) (w : Word) (s : State) : Out := guardNext s.portLive s (writeWord off w s)

/-- NQ_POP: POP written to NQ_POP (R464). -/
def execNqPop (s : State) : Out := portWrite 0x03C 1 s

/-- NQ_FLUSH: FLUSH written to NQ_POP (R464). -/
def execNqFlush (s : State) : Out := portWrite 0x03C 2 s

/-- LONG_RESET_CLEAR: 1 written to RESET_STATUS bit 7 (R77). -/
def execLongResetClear (s : State) : Out := portWrite 0x014 0x80 s

/-- TEAR_CLEAR: 1 written to TEAR (R465). -/
def execTearClear (s : State) : Out := portWrite 0x028 1 s

/-- WR_IGNORED_CLEAR: 1 written to WR_IGNORED (R440). -/
def execWrIgnoredClear (s : State) : Out := portWrite 0x028 2 s

/-- BAD_INSTR_CLEAR: 1 written to BAD_INSTR, which clears CP_DROPPED as well (R464). -/
def execBadInstrClear (s : State) : Out := portWrite 0x02C 0x10 s

/-- EVENT_SUMMARY_CLEAR: each bit written 1 clears (R468). -/
def execEventSummaryClear (mask : Word) (s : State) : Out := portWrite 0x030 mask s

/-- CNT_SEL_WRITE: a counter is selected and its snapshot invalidated (R465). -/
def execCntSelWrite (value : Word) (s : State) : Out := portWrite 0x0A0 value s

/-- A transaction that the control port knows: its instruction, and an address with bits [1:0] and [15:12] zero where it
takes one (R439). -/
def instrOk (instr : Byte) (addr : BitVec 16) : Bool :=
  match instr.toNat with
  | 0x05 | 0x12 | 0x13 => true
  | 0x0B | 0x02 => addr &&& 0xF003 == 0
  | _ => false

/-- BAD_INSTR: the transaction is ignored and BAD_INSTR set (R439). -/
def execBadInstr (instr : Byte) (addr : BitVec 16) (s : State) : Out :=
  guardNext (s.portLive && !instrOk instr addr) s (badInstr s)

/-- RPL_READ: the oldest reply leaves once all of its bytes have been clocked out (R441). -/
def execRplRead (clocked : Nat) (s : State) : Out :=
  .next <|
    match s.cmd.replies with
    | [] => s
    | r :: t => if s.portLive && r.length ≤ clocked then s.modCmd fun c => { c with replies := t, held := c.held - 1 } else s

end Sys2Proof.Machine
end

