-- ==== Sys2Proof/Machine/Command.lean ====
section
/-! DEFINITION. Packets as they arrive, forwarding, sessions, and the commands SYS_INFO, SYS_EVENTS_READ, SESSION_OPEN and
SESSION_CLOSE (R441 to R463). -/

namespace Sys2Proof.Machine

/-- The opcode catalogue (R461). -/
def opcodes : List Nat :=
  [0x0100, 0x0101, 0x0102, 0x0103, 0x0104, 0x0200, 0x0201, 0x0202, 0x0203, 0x0300, 0x0301, 0x0302, 0x0303, 0x0304, 0x0305,
   0x0306, 0x0400, 0x0401, 0x0402, 0x0403, 0x0404, 0x0500, 0x0501, 0x0502, 0x0503, 0x0504, 0x0600, 0x0601, 0x0602, 0x0603,
   0x0604, 0x0700, 0x0701, 0x0702, 0x0703, 0x0800, 0x0801, 0x0802, 0x0803, 0x0810, 0x0811] ++
  [0x0900, 0x0901, 0x0902, 0x0903, 0x0904, 0x0905, 0x0906, 0x0A00, 0x0A01, 0x0A02, 0x0B00, 0x0B01, 0x0B02, 0x0B03, 0x0B04,
   0x0C00, 0x0C01, 0x0C02, 0x0C03, 0x0C04, 0x0D00, 0x0D01, 0x0D02, 0x0D03, 0x0D04, 0x0E00, 0x0E01, 0x0E02, 0x0E03, 0x0E04,
   0x0E05, 0x0E10, 0x0E11, 0x0F00, 0x0F01, 0x0F02, 0x0F03, 0x1000, 0x1001, 0x1002, 0x1003, 0x1004, 0x1005]

/-- A packet taken apart (R443); bytes that are not there read as 0 (log entry 23). -/
def parsePacket (o : Origin) (ep : Option (BitVec 4)) (bs : List Byte) : Nat × Packet :=
  let w := fun k => wordOf (bs.getD (4 * k) 0) (bs.getD (4 * k + 1) 0) (bs.getD (4 * k + 2) 0) (bs.getD (4 * k + 3) 0)
  let len := bits (w 2) 15 0
  let auth := bit (w 0) 17
  (bits (w 0) 15 0,
   { origin := o, ep := ep, flags := (w 0).extractLsb' 16 8, session := (w 0).extractLsb' 24 8, reqId := w 1,
     hubId := (w 2).extractLsb' 16 10, resv := (w 2).extractLsb' 26 6, word3 := w 3,
     params := wordsOfBytes ((bs.drop 16).take len), mac := if auth then (bs.drop (16 + len)).take 16 else [],
     crc := pw (wordsOfBytes (bs.drop (bs.length - 4))) 0 })

/-- Step 1 of R450. -/
def sizeOk (bs : List Byte) : Bool :=
  let len := (bs.getD 8 0).toNat + 256 * (bs.getD 9 0).toNat
  let auth := (bs.getD 2 0).getLsbD 1
  20 ≤ bs.length && bs.length ≤ 2048 && len % 4 == 0 && bs.length == 16 + len + 16 * b2n auth + 4

/-- Step 2 of R450: the CRC-32C over every preceding byte (R443). -/
def packetCrcOk (bs : List Byte) : Bool :=
  crc32c (bs.take (bs.length - 4)) == pw (wordsOfBytes (bs.drop (bs.length - 4))) 0

/-- An opcode outside the catalogue: it passes to step 10 and is refused there (R461). -/
def unknownSpec (code : Nat) : CmdSpec :=
  { code := code, access := fun c _ _ => accAny c, mode := fun _ _ => stBadOpcode, length := fun _ => true,
    body := fun _ _ s => refuse stBadOpcode s }

/-- A packet whose destination is this hub: it waits for its command's row, or is refused as an unknown opcode (R450). -/
def acceptPacket (code : Nat) (p : Packet) (s : State) : State :=
  if opcodes.contains code then
    s.modCmd fun c => { c with inbox := c.inbox ++ [(BitVec.ofNat 16 code, p)] }
  else if s.boot.fwRuns then servePacket (unknownSpec code) p s else servePacket (bootSpec (unknownSpec code)) p s

/-- A control-port packet for another hub is forwarded in a CMD frame, or answered UNREACHABLE (R446). -/
def forwardPacket (code : Nat) (p : Packet) (bs : List Byte) (s : State) : State :=
  if s.sup.mode = .safeCore then early code p stNotInMode none s
  else if s.fab.hubIdSet && (s.route p.hubId 2).isSome && p.hubId != s.fab.hubId then
    sendFrame (mkFrame s 2 0x04 false false p.hubId none (wordsOfBytes bs))
      (s.modCmd fun c => { c with forwarded := c.forwarded ++
        [{ session := p.session, reqId := p.reqId, header := bs.take 16, since := s.lcN }] })
  else early code p stUnreachable none s

/-- Steps 1 to 3 of R450 for a packet of the control port (R446). -/
def portPacket (bs : List Byte) (s : State) : State :=
  let (code, p) := parsePacket .controlPort none bs
  if !sizeOk bs then early code p stBadLength none s
  else if !packetCrcOk bs then early code p stBadCrc none s
  else if reqLocal p || (s.fab.hubIdSet && p.hubId == s.fab.hubId) then acceptPacket code p s
  else forwardPacket code p bs s

/-- Steps 1 to 3 of R450 for a packet of a CMD frame (R446). -/
def framePacket (o : Origin) (ep : Option (BitVec 4)) (dst : BitVec 10) (bs : List Byte) (s : State) : State :=
  let (code, p) := parsePacket o ep bs
  if !s.boot.fwRuns then s
  else if !sizeOk bs then early code p stBadLength none s
  else if !packetCrcOk bs then early code p stBadCrc none s
  else if reqLocal p || p.hubId != dst then early code p stBadParam none s
  else acceptPacket code p s

/-- PKT_WRITE: the packet completes, or is discarded while PKT_READY is 0 (R441, R442). -/
def execPktWrite (bytes : List Byte) (s : State) : Out :=
  .next <|
    if !s.portLive then s
    else if !s.pktReady then dropPacket s
    else portPacket bytes (s.modCmd fun c => { c with held := c.held + 1 })

/-- SYS_INFO (R462). -/
def sysInfoWords (s : State) : List Word :=
  [chipId, s.fwVersionWord, s.hubState, s.strapsWord, s.resetStatus, s.modeStatus] ++ words64 s.factory.dieId.toNat ++
  [w32 (flag 0 s.factory.industrial + flag 2 (!s.boot.fwRuns)), w32 s.sessionsOpen]

def sysInfoBody (_ : Ctx) (ws : List Word) (s : State) : Res :=
  if pw ws 0 != 0 then refuse stBadParam s else .done stOk (sysInfoWords s) s

def sysInfoSpec : CmdSpec :=
  { code := 0x0100, access := fun c _ _ => accAny c, mode := modeAll, length := fun ws => ws.length == 1,
    body := sysInfoBody }

def execSysInfo (p : Packet) (s : State) : Out := serve sysInfoSpec p s

/-- The entries that fit within `room` words, at most `n` of them (R463). -/
def fitNotices : Nat → Nat → List Notice → List Notice
  | 0, _, _ => []
  | _, _, [] => []
  | n + 1, room, x :: t =>
    let k := 1 + x.body.length
    if k ≤ room then x :: fitNotices n (room - k) t else []

/-- SYS_EVENTS_READ (R463): 2,012 result bytes leave 502 words after the first. REMAINING counts what the queue holds once the
request is served, so without POP the entries returned count in it (DEDUCED, log entry 225). -/
def sysEventsBody (_ : Ctx) (ws : List Word) (s : State) : Res :=
  let w := pw ws 0
  let m := bits w 4 0
  if !resv w 31 6 || m = 0 || 16 < m then refuse stBadParam s
  else
    let got := fitNotices m 502 s.cmd.nq
    let s1 := if bit w 5 then s.modCmd fun c => { c with nq := c.nq.drop got.length } else s
    .done stOk (w32 (fld 0 5 got.length + fld 8 5 s1.cmd.nq.length + fld 16 8 s.cmd.nqLost.toNat) ::
      got.flatMap noticeWords) s1

def sysEventsSpec : CmdSpec :=
  { code := 0x0103, access := fun c ws _ => if bit (pw ws 0) 5 then accOp c else accAny c, mode := modeAll,
    length := fun ws => ws.length == 1, body := sysEventsBody }

def execSysEventsRead (p : Packet) (s : State) : Out := serve sysEventsSpec p s

/-- ASCII bytes of a text. -/
def ascii (t : String) : List Byte := t.toList.map fun c => BitVec.ofNat 8 c.toNat

/-- A nonce that is still good for its origin: 10 s from its issue (R453). -/
def nonceGood (o : Origin) (v : BitVec 128) (lc : Nat) (n : Nonce) : Bool :=
  n.origin == o && n.value == v && decide (lc < n.since + 10000000000)

/-- The value of four words, the first lowest. -/
def nat128 (ws : List Word) : Nat := leNat (bytesOfWords ws)

/-- PHASE 0: a fresh N_B bound to the origin (R453). -/
def openPhase0 (c : Ctx) (ws : List Word) (s : State) : Res :=
  if !resv (pw ws 0) 31 1 then refuse stBadParam s
  else
    let v := Config.random s.free
    let s1 := { s with free := s.free + 1 }
    .done stOk ((List.range 4).map fun k => w32 (v.toNat / 2 ^ (32 * k)))
      (s1.modCmd fun m => { m with nonces := { origin := c.packet.origin, value := v, since := s.lcN } :: m.nonces })

/-- PHASE 1: the proof is checked and the lowest free session opens (R453, R520). -/
def openPhase1 (c : Ctx) (ws : List Word) (s : State) : Res :=
  let w := pw ws 0
  let k : Fin 8 := ⟨bits w 3 1, Nat.mod_lt _ (by decide)⟩
  let nb := (ws.drop 1).take 4
  let v := BitVec.ofNat 128 (nat128 nb)
  let msg := bytesOfWords nb ++ bytesOfWords ((ws.drop 5).take 4)
  if !resv w 31 4 then refuse stBadParam s
  else if s.lockedOut k then refuse stLockedOut s
  else
    let good := s.cmd.nonces.any (nonceGood c.packet.origin v s.lcN)
    let s1 := s.modCmd fun m => { m with nonces := m.nonces.filter fun n => n.value != v }
    match s.prot.slots[k].key with
    | none => refuse stAuthFail (failAuth k s1)
    | some key =>
      let proof := (hmac key (ascii "NH384PF" ++ msg ++ [BitVec.ofNat 8 k.val])).take 16
      if !good || proof != bytesOfWords ((ws.drop 9).take 4) then refuse stAuthFail (failAuth k s1)
      else match (List.finRange 8).find? fun i => (s.openSession i).isNone with
        | none => refuse stBusy (passAuth k s1)
        | some i =>
          let ks := hmac key (ascii "NH384SK" ++ msg ++ [BitVec.ofNat 8 (i.val + 1)])
          .keyed stOk [w32 (fld 0 8 (i.val + 1) + fld 8 4 s.prot.slots[k].roles.toNat)] ks
            ((passAuth k s1).modCmd fun m =>
              { m with sessions := vset m.sessions i (some { slot := k, key := ks, usedAt := s.lcN, cache := Cache.empty }) })

/-- SESSION_OPEN (R453): on an authenticated session it is refused. -/
def sessionOpenBody (c : Ctx) (ws : List Word) (s : State) : Res :=
  if c.session.isSome then refuse stBadParam s
  else if bit (pw ws 0) 0 then openPhase1 c ws s
  else openPhase0 c ws s

def sessionOpenSpec : CmdSpec :=
  { code := 0x0E10, access := fun c _ _ => accAny c, mode := modeAll,
    length := fun ws => ws.length == (if bit (pw ws 0) 0 then 13 else 1), body := sessionOpenBody }

def execSessionOpen (p : Packet) (s : State) : Out := serve sessionOpenSpec p s

/-- SESSION_CLOSE (R454): the session named closes; a session that is not open is no different after it. -/
def sessionCloseBody (_ : Ctx) (ws : List Word) (s : State) : Res :=
  let w := pw ws 0
  let n : Byte := w.extractLsb' 0 8
  if !resv w 31 8 || n = 0 then refuse stBadParam s
  else match sessionIndex n with
    | none => refuse stBadParam s
    | some i => .done stOk [] (closeSession i s)

/-- Accepted on the session that it names, or with SERVICE (R454); session 0 naming itself is left to the command's own check. -/
def sessionCloseAccess (c : Ctx) (ws : List Word) : Bool :=
  accSvc c || bits (pw ws 0) 7 0 == ((c.session.map fun i => i.val + 1).getD 0)

def sessionCloseSpec : CmdSpec :=
  { code := 0x0E11, access := fun c ws _ => sessionCloseAccess c ws, mode := modeAll, length := fun ws => ws.length == 1,
    body := sessionCloseBody }

def execSessionClose (p : Packet) (s : State) : Out := serve sessionCloseSpec p s

/-- SESSION_IDLE_TIMEOUT: 600 s of LC without an authenticated request (R454). -/
def execSessionIdleTimeout (session : Fin 8) (s : State) : Out :=
  .next <|
    match s.cmd.sessions[session] with
    | some x => closeSession session (atLc (x.usedAt + 600000000000) s)
    | none => s

/-- The reply to a forwarded request, with SESSION and REQ_ID of its own header (R446). -/
def awaited (session : Byte) (reqId : Word) (f : Forwarded) : Bool := f.session == session && f.reqId == reqId

/-- REPLY_RX: the reply is queued on the control port; one that is no longer awaited is discarded (R446). -/
def execReplyRx (session : Byte) (reqId : Word) (bytes : List Byte) (s : State) : Out :=
  guardNext (s.cmd.forwarded.any (awaited session reqId)) s <|
    s.modCmd fun c => { c with replies := c.replies ++ [bytes], forwarded := c.forwarded.eraseP (awaited session reqId) }

/-- FORWARD_TIMEOUT: 100 ms after the forwarding the hub replies UNREACHABLE itself (R446). -/
def execForwardTimeout (session : Byte) (reqId : Word) (s : State) : Out :=
  .next <|
    match s.cmd.forwarded.find? (awaited session reqId) with
    | none => s
    | some f =>
      let (code, p) := parsePacket .controlPort none f.header
      early code p stUnreachable none
        ((atLc (f.since + 100000000) s).modCmd fun c => { c with forwarded := c.forwarded.eraseP (awaited session reqId) })

end Sys2Proof.Machine
end

