-- ==== Sys2Proof/Machine/Time.lean ====
section
/-! DEFINITION. The timebase: time maps, steps, the servo, time quality, parents and sources, and the sett delay lines
(R226 to R255). -/

namespace Sys2Proof.Machine

/-- NT in the three words of TIME_READ: seconds, high seconds with fraction, nanoseconds (R251). -/
def ntRead (nt : Int) : List Word :=
  let (sec, ns, fr) := ntParts nt
  [w32 sec, w32 (fld 0 16 (sec / 2 ^ 32) + fld 16 16 fr), w32 ns]

/-- TSHIFT in three words (R251). -/
def tshiftWords (t : BitVec 80) : List Word := [w32 t.toNat, w32 (t.toNat / 2 ^ 32), w32 (t.toNat / 2 ^ 64)]

/-- The TIME_MAP notice (R230, R469). -/
def raiseTimeMap (s : State) : State :=
  raise s 0x0300 (s.lcWords ++ ntRead s.nt ++ [s.time.rate] ++ tshiftWords s.time.tshift ++
    [w32 (fld 0 16 s.time.epoch.toNat + fld 16 4 s.time.tq.toNat)])

/-- NT of a stamp in units of 2^-8 ns of LC, in units of 2^-16 ns (R227, R232). -/
def State.ntOfStamp (s : State) (st : Int) : Int :=
  st * 256 + (st * s.time.rate.toInt) / 2 ^ 32 + s.time.offset.toInt

/-- Network time units of 2^-16 ns as nanoseconds. -/
def nsOf (v : Int) : Rat := (v : Rat) / 65536

/-- A realignment of TK is due: a pending PLAN_SWAP is withdrawn and the sequencer is to stop (R237). -/
def startRealign (s : State) : State :=
  if s.time.realign.isSome then s
  else
    let s1 := s.modTime fun t => { t with realign := some { stopTk := none, stopLc := 0, loaded := false, resumeFrom := 0 },
                                          alignDue := false }
    match s.plan.swap with
    | some e => raise (s1.modPlan fun p => { p with swap := none }) 0x0201 (w32 2 :: words64 e)
    | none => s1

/-- TQ takes a value: a time map notice is emitted at every change (R230), and the time held at TQ 3 is kept for R426.
Reaching TQ 2 after a parent has been selected makes a realignment due (R237). -/
def setTq (q : BitVec 4) (s : State) : State :=
  if s.time.tq = q then s
  else
    let s1 := raiseTimeMap (s.modTime fun t => { t with
      tq := q, holdAt := if q = 4 then some s.lcN else none, tqWas := ((s.lcN, s.time.tq) :: t.tqWas).take 16 })
    let s2 := s1.modFab fun f => { f with lockedSince := if q = 3 then some s.lcN else none }
    if q = 2 ∧ s2.time.alignDue then startRealign s2 else s2

/-- Every enabled sett's delay is at its target: of every sett with an enabled channel (R238). -/
def State.delaysSettled (s : State) : Bool :=
  allSetts.all fun k => !((chansOf k).any fun c => (s.chans[c]).enable) || (s.chains[k]).tap == (s.chains[k]).tapT

def absR (q : Rat) : Rat := if q < 0 then -q else q

def clampR (b q : Rat) : Rat := if q < -b then -b else if b < q then b else q

/-- RATE takes a new value and OFFSET keeps NT continuous at LC now (R235). -/
def setRate (r : Rat) (s : State) : State :=
  let new := BitVec.ofInt 32 (ratRound (r * 2 ^ 40))
  let lc : Int := s.lcN
  let d := (lc * s.time.rate.toInt) / 2 ^ 24 - (lc * new.toInt) / 2 ^ 24
  s.modTime fun t => { t with rate := new, offset := t.offset + BitVec.ofInt 80 d }

/-- The tick error of the latest plan-frame start edge, in ns (R236). -/
def State.tickError (s : State) : Rat :=
  if s.plan.active && !s.plan.stopped && !s.plan.firstFrame then
    nsOf (s.ntOfStamp s.plan.frameLc - s.time.tshift.toInt - (s.plan.frameTk : Int) * 50 * 65536)
  else s.time.eps

/-- The sampling PLL is steered from the tick error (R236); an error above 10 µs makes a realignment due (R237). -/
def steer (ts : Rat) (s : State) : State :=
  let e := s.tickError
  let s1 := s.modTime fun t =>
    { t with eps := e, rTk := clampR (2 / 10000) (-e / 2 ^ t.cfg.kp.toNat / ts) }
  if 10000 < absR e then startRealign s1 else s1

/-- The step of R241: NT moves by −e, TIME_EPOCH increments, TQ becomes 2 and a time map is emitted. The NT of the parent's last SYNC
moves with it, so that the next interval is measured without the step (R235). A leader moves TSHIFT with it and increments STEP_SEQ
(R242). -/
def timeStep (leader : Bool) (e : Rat) (s : State) : State :=
  let d := BitVec.ofInt 80 (ratRound (-e * 65536))
  let s1 := (newEpoch s).modTime fun t =>
    { t with offset := t.offset + d, lastSync := t.lastSync.map (· + d.toInt), rP := 0, fresh := true, good := 0, bad := 0,
             tshift := if leader then t.tshift + d else t.tshift,
             stepSeq := if leader then t.stepSeq + 1 else t.stepSeq }
  let s2 := setRate s1.time.rI s1
  if s2.time.tq = 2 then raiseTimeMap s2 else setTq 2 s2

/-- The servo of R235 for one offset e and interval Ts, both in ns, when no step is due. -/
def slew (e ts : Rat) (s : State) : State :=
  let t := s.time
  let ri := if t.fresh then -e / ts else t.rI - e / 2 ^ t.cfg.ki.toNat / ts
  let ric := clampR (1 / 1000) ri
  let rp := clampR ((t.cfg.slewMax.toNat : Rat) / 1000000) (-e / 2 ^ t.cfg.kp.toNat / ts)
  setRate (ric + rp) (s.modTime fun t => { t with rI := ric, rP := rp, iSat := ri != ric, fresh := false, e := e })

/-- Consecutive exchanges within and beyond the thresholds, in ns (R238). -/
def countLock (e good bad : Rat) (s : State) : State :=
  s.modTime fun t =>
    { t with good := if absR e ≤ good then t.good + 1 else 0, bad := if bad < absR e then t.bad + 1 else 0 }

/-- The transitions of the table "Time quality" at one complete exchange that was not a step (R238). `bad` is the unlock
threshold in ns, `parentOk` says that the parent is at TQ 3 or 4. -/
def judgeTq (e bad : Rat) (parentOk : Bool) (s : State) : State :=
  let t := s.time
  let near := decide (absR t.eps ≤ 5 / 100)
  let far := decide (1 / 10 < absR t.eps)
  if t.tq = 1 then setTq 2 s
  else if t.tq = 2 then
    if 16 ≤ t.good && near && s.delaysSettled && parentOk then setTq 3 s else s
  else if t.tq = 3 then
    if 4 ≤ t.bad || far || !parentOk then setTq 2 s else s
  else if t.tq = 4 then setTq (if absR e ≤ bad then 3 else 2) s
  else s

/-- One servo update against an offset: a step where R241 wants one, else a slew and the judgement of TQ. -/
def servo (leader : Bool) (e ts good bad : Rat) (parentOk newStep judged : Bool) (s : State) : State :=
  let limit : Rat := (s.time.cfg.stepLimit.toNat : Rat) * 100
  let first := s.time.tq == 1 && judged
  if e ≠ 0 && (first || decide (limit < absR e) || newStep) then
    steer ts (timeStep leader e (s.modTime fun t => { t with e := e }))
  else
    let s1 := steer ts (slew e ts s)
    if judged then judgeTq e bad parentOk (countLock e good bad s1) else s1

/-- SYNC_INTERVAL on this hub's downstream ports, in ns (R232, R252). -/
def State.syncNs (s : State) : Nat := 2 ^ s.time.cfg.syncLog2.toNat * 1000000

/-- The parent is lost, or a source that stands in for it: TQ 3 goes to holdover, TQ 1 and 2 to 0 (R238). In holdover r_I
is frozen and r_P is 0 (R235). -/
def parentGone (s : State) : State :=
  let q := s.time.tq
  if q = 3 then setTq 4 (setRate s.time.rI (s.modTime fun t => { t with rP := 0, good := 0, bad := 0 }))
  else if q = 1 ∨ q = 2 then setTq 0 (s.modTime fun t => { t with good := 0, bad := 0 })
  else s

/-- The leader's source is lost. A required source is a parent lost; without SRC_REQUIRED a leader at TQ 3 enters holdover, and its own
time goes on with r frozen (R238, R247). -/
def sourceGone (s : State) : State :=
  if s.time.cfg.srcRequired then parentGone s
  else if s.time.tq = 3 then parentGone s
  else setRate s.time.rI (s.modTime fun t => { t with rP := 0 })

/-- A leader with SOURCE NONE keeps its own LC, with RATE and r at 0 (R236, R244). -/
def ownTime (s : State) : State :=
  if s.fab.leads && s.time.cfg.source == .none then setRate 0 (s.modTime fun t => { t with rI := 0, rP := 0, iSat := false }) else s

/-- A port may carry sync exchanges (R231, R252). -/
def State.timePort (s : State) (p : Port) : Bool := s.time.cfg.timeEn[p] && !s.isEth p && s.linkUp p

/-- A port qualifies to be the parent: its neighbour belongs to the leader's term, and HOPS stays within 15 (R231). -/
def State.parentFit (s : State) (p : Port) : Bool :=
  match s.time.offers[p] with
  | some o => s.timePort p && o.term == s.fab.term && decide (o.hops.toNat < 15)
  | none => false

/-- Offer a comes before offer b: fewer HOPS, then the lower hub ID (R231). -/
def offerBefore (a b : TimeOffer) : Bool :=
  a.hops.toNat < b.hops.toNat || (a.hops == b.hops && a.hub.toNat < b.hub.toNat)

/-- The port to take as parent: ports in ascending order, an earlier one standing unless a later one is before it
(R231). -/
def State.bestParent (s : State) : Option Port :=
  allPorts.foldl (fun acc p =>
    if !s.parentFit p then acc
    else match acc with
      | none => some p
      | some b => match s.time.offers[p], s.time.offers[b] with
        | some x, some y => if offerBefore x y then some p else acc
        | _, _ => acc) none

/-- A parent is taken: HOPS is its own plus 1, and TQ 0 becomes 1 (R231, R238). -/
def takeParent (p : Port) (s : State) : State :=
  let h := (s.time.offers[p].map (·.hops)).getD 0
  let s1 := s.modTime fun t =>
    { t with parent := some p, hops := h + 1, exch := Exchange.none, lastSync := none, parentNs := 1000000, exchAt := s.lcN, alignDue := true }
  if s1.time.tq = 0 then setTq 1 s1 else s1

/-- A hub without a parent takes the best offer there is; a leader takes none (R231). -/
def seekParent (s : State) : State :=
  if s.fab.leads || s.time.parent.isSome then s
  else match s.bestParent with
    | some p => takeParent p s
    | none => s

/-- The leader's TQ is judged by its source (R238). -/
def State.sourceJudges (s : State) : Bool := s.time.cfg.source != .none && s.time.cfg.srcRequired

/-- This hub comes to lead: it has no parent, HOPS 0, and TQ 0 becomes 1 unless a required source is still to be received
(R231, R238, R244). -/
def leadTime (s : State) : State :=
  let s1 := ownTime <| s.modTime fun t => { t with parent := none, hops := 0, exch := Exchange.none }
  if s1.time.tq = 0 && !s1.sourceJudges then setTq 1 s1 else s1

/-! Commands. -/

/-- Nanoseconds as picoseconds in a signed 32-bit word, saturating (R251). -/
def psWord (q : Rat) : Word := w32i (clamp (-2147483648) 2147483647 (ratRound (q * 1000)))

/-- The sixteen words of TIME_READ (R251). -/
def timeReadWords (s : State) : List Word :=
  let t := s.time
  let hub := match t.parent with
    | some p => ((t.offers[p]).map (·.hub.toNat)).getD 0
    | none => 0
  s.lcWords ++ ntRead s.nt ++ words64 s.tkN ++
  [t.rate,
   w32 (fld 0 16 t.epoch.toNat + fld 16 4 t.tq.toNat + flag 20 s.fab.leads + flag 21 t.srcState.lost + flag 22 t.iSat +
     flag 23 t.parent.isSome + fld 24 5 ((t.parent.map (·.val)).getD 0)),
   w32 (fld 0 10 hub + fld 10 4 t.hops.toNat + fld 14 16 t.srcState.utcOffset.toNat),
   psWord t.e, psWord t.eps, psWord t.d] ++ tshiftWords t.tshift

def timeReadSpec : CmdSpec :=
  { code := 0x0600, access := fun c _ _ => accAny c, mode := modeAll, length := fun ws => ws.length == 1
    body := fun _ ws s => if pw ws 0 != 0 then refuse stBadParam s else .done stOk (timeReadWords s) s }

/-- TIME_READ (R251). -/
def execTimeRead (p : Packet) (s : State) : Out := serve timeReadSpec p s

/-- The settings of a parameter word are within their ranges (R252). -/
def servoOk (w : Word) : Bool :=
  let si := bits w 2 0; let kp := bits w 6 3; let ki := bits w 11 7; let h := bits w 15 12
  decide (si ≤ 6) && decide (2 ≤ kp ∧ kp ≤ 8) && decide (6 ≤ ki ∧ ki ≤ 20) && decide (1 ≤ h ∧ h ≤ 10)

/-- TIME_SERVO_CONFIG (R252). -/
def timeServoBody (_ : Ctx) (ws : List Word) (s : State) : Res :=
  let w0 := pw ws 0
  let w1 := pw ws 1
  let sel := bit w0 1
  let p : Port := ⟨bits w0 6 2, Nat.mod_lt _ (by decide)⟩
  let reply := fun (s : State) => Res.done stOk
    [if sel then timePortWord s.time.cfg p else servoWord s.time.cfg, w32 (b2n s.time.iSat)] s
  if !resv w0 31 7 || (!sel && bits w0 6 2 != 0) || !(if sel then resv w1 15 1 else resv w1 31 16) then refuse stBadParam s
  else if !bit w0 0 then reply s
  else if sel then
    reply (s.modTime fun t => { t with cfg := { t.cfg with timeEn := vset t.cfg.timeEn p (bit w1 0),
                                                           asymPs := vset t.cfg.asymPs p (w1.extractLsb' 16 16) } })
  else if !servoOk w1 then refuse stBadParam s
  else reply (s.modTime fun t => { t with cfg := { t.cfg with syncLog2 := w1.extractLsb' 0 3, kp := w1.extractLsb' 3 4,
                                                              ki := w1.extractLsb' 7 5, holdover := w1.extractLsb' 12 4 } })

def timeServoSpec : CmdSpec :=
  { code := 0x0601, access := fun c ws _ => if bit (pw ws 0) 0 then accEng c else accAny c, mode := modeAll
    length := fun ws => ws.length == 2, body := timeServoBody }

def execTimeServoConfig (p : Packet) (s : State) : Out := serve timeServoSpec p s

def sourceOf (n : Nat) : TimeSource := match n with
  | 1 => .ptp | 2 => .pps | _ => .none

/-- TIME_ROLE (R253). A PTP_PORT that is not configured as Ethernet is refused. A section's TIME_ROLE restores the settings in force,
which name port 0 from reset on, so there the port is checked with SOURCE PTP alone (R541; log entry 25). On the leader a change of SOURCE restarts source
acquisition, and the source that stood for a parent is lost. -/
def timeRoleBody (ctx : Ctx) (ws : List Word) (s : State) : Res :=
  let w0 := pw ws 0
  let w1 := pw ws 1
  let port : Port := ⟨bits w0 5 3, Nat.lt_of_lt_of_le (Nat.mod_lt _ (by decide)) (by decide)⟩
  if !resv w0 31 15 || !resv (pw ws 3) 31 16 || bits w0 1 0 = 3 || bits w1 31 16 = 0 then refuse stBadParam s
  else if (bits w0 1 0 = 1 || !ctx.replay) && !s.isEth port then refuse stBadParam s
  else
    let src := sourceOf (bits w0 1 0)
    let changed := s.fab.leads && src != s.time.cfg.source
    let wasJudged := s.sourceJudges
    let s1 := s.modTime fun t =>
      { t with
        cfg := { t.cfg with source := src, srcRequired := bit w0 2, ptpPort := w0.extractLsb' 3 3, ptpUdp := bit w0 6
                            ptpDomain := w0.extractLsb' 7 7
                            ppsSec := if bit w0 14 then some (nat64 (pw ws 2) (pw ws 3)) else none
                            ppsDelay := w1.extractLsb' 0 16, srcLock := w1.extractLsb' 16 16 }
        srcState := if changed then { SourceState.reset with utcOffset := t.srcState.utcOffset } else t.srcState }
    let s2 := ownTime (if changed && (wasJudged || s1.sourceJudges) then parentGone s1 else s1)
    let s3 := if s2.fab.leads && s2.time.tq == 0 && !s2.sourceJudges then setTq 1 s2 else s2
    let t := s3.time
    .done stOk [w32 (fld 0 2 (sourceCode t.cfg.source) + flag 2 t.cfg.srcRequired + flag 3 t.srcState.locked +
      flag 4 t.srcState.lost + flag 5 s3.fab.leads)] s3

def timeRoleSpec : CmdSpec :=
  { code := 0x0602, access := fun c _ _ => accEng c, mode := modeAll, length := fun ws => ws.length == 4
    body := timeRoleBody }

def execTimeRole (p : Packet) (s : State) : Out := serve timeRoleSpec p s

/-- TIME_STEP_POLICY (R254). -/
def timeStepPolicyBody (_ : Ctx) (ws : List Word) (s : State) : Res :=
  let w := pw ws 0
  let lim := bits w 14 1
  let sl := bits w 21 15
  let reply := fun (s : State) => Res.done stOk
    [w32 (fld 0 14 s.time.cfg.stepLimit.toNat + fld 14 7 s.time.cfg.slewMax.toNat)] s
  if !resv w 31 22 then refuse stBadParam s
  else if !bit w 0 then reply s
  else if lim = 0 ∨ 10000 < lim ∨ sl = 0 ∨ 100 < sl then refuse stBadParam s
  else reply (s.modTime fun t => { t with cfg := { t.cfg with stepLimit := BitVec.ofNat 14 lim, slewMax := BitVec.ofNat 7 sl } })

def timeStepPolicySpec : CmdSpec :=
  { code := 0x0603, access := fun c ws _ => if bit (pw ws 0) 0 then accEng c else accAny c, mode := modeAll
    length := fun ws => ws.length == 1, body := timeStepPolicyBody }

def execTimeStepPolicy (p : Packet) (s : State) : Out := serve timeStepPolicySpec p s

/-- DELAY_TAP_SET (R255). -/
def delayTapBody (_ : Ctx) (ws : List Word) (s : State) : Res :=
  let w := pw ws 0
  match finOf 48 (bits w 5 0) with
  | none => refuse stBadParam s
  | some k =>
    let tgt : Int := s.factory.tAnPs[k] + (pw ws 1).toInt
    let reply := fun (s : State) =>
      let c := s.chains[k]
      Res.done stOk [w32 (fld 0 8 (c.tap / 128) + fld 8 7 c.tap + fld 15 8 (c.tapT / 128) + fld 23 7 c.tapT +
        flag 30 (c.tap == c.tapT)), w32 s.factory.tAnPs[k]] s
    if !resv w 31 15 then refuse stBadParam s
    else if !bit w 6 then reply s
    else if tgt < 0 ∨ 255992 < tgt then refuse stBadParam s
    else reply (s.modChain k fun c =>
      { c with tapT := tapOfPs tgt, trimPs := pw ws 1, adjMs := w.extractLsb' 7 8, tapAt := s.lcN })

def delayTapSpec : CmdSpec :=
  { code := 0x0604, access := fun c ws _ => if bit (pw ws 0) 6 then accEng c else accAny c, mode := modeAll
    length := fun ws => ws.length == 2, body := delayTapBody }

def execDelayTapSet (p : Packet) (s : State) : Out := serve delayTapSpec p s

/-- An ADJ_MS field as an interval in ns: 0 selects 10 ms (R161, R249). -/
def adjNs (ms : Byte) : Nat := (if ms = 0 then 10 else ms.toNat) * 1000000

/-- DELAY_TAP_ADJUST: one tap towards the target at the next adjustment interval (R249). -/
def execDelayTapAdjust (sett : SettId) (s : State) : Out :=
  let c := s.chains[sett]
  guardNext (c.tap != c.tapT) s <|
    let s1 := atLc (c.tapAt + adjNs c.adjMs) s
    s1.modChain sett fun c => { c with tap := if c.tap < c.tapT then c.tap + 1 else c.tap - 1, tapAt := s1.lcN }

/-! Sync exchanges. -/

/-- An NT value of 2^-16 ns in three words, as the sync frames carry it (log entry 24). -/
def ntFrame (v : Int) : List Word := let n := lowBits 96 v; [w32 n, w32 (n / 2 ^ 32), w32 (n / 2 ^ 64)]

/-- Payload of SYNC_FU (R232; log entry 24). -/
def syncFuPayload (t1 : Int) (s : State) : List Word :=
  ntFrame t1 ++ tshiftWords s.time.tshift ++
  [w32 (fld 0 4 s.time.tq.toNat + fld 4 4 s.time.hops.toNat + fld 16 16 s.time.stepSeq.toNat), s.fab.term]

/-- SYNC_INTERVAL: a parent starts an exchange on a downstream port by SYNC and SYNC_FU. t1 is taken when SYNC starts to leave, and
SYNC_FU then carries it (R232). -/
def execSyncInterval (port : Port) (s : State) : Out :=
  guardNext (s.timePort port && s.time.parent != some port && (s.fab.leads || s.time.parent.isSome)) s <|
    let s1 := atLc (s.time.sentAt[port] + s.syncNs) s
    let t1 := s1.nt
    sendOn port (mkFrame s1 1 0x11 true false (s.neighbourId port) none (syncFuPayload t1 s1))
      (sendOn port (mkFrame s1 1 0x10 true false (s.neighbourId port) none [])
        (s1.modTime fun t => { t with sentAt := vset t.sentAt port s1.lcN }))

/-- The SYNC_INTERVAL setting nearest to a measured interval, in ns: 2^k ms for k from 0 to 6 (R232, R252; log entry 26). -/
def intervalOf (gap : Int) : Nat :=
  (((List.range 6).find? fun k => decide (2 * gap ≤ 3 * 2 ^ k * 1000000 * 65536)).map fun k => 2 ^ k * 1000000).getD 64000000

/-- SYNC_RX: t2 and t3 are taken and DELAY_REQ is sent. The interval since the parent's SYNC before is the servo's Ts and shows the
parent's SYNC_INTERVAL (R232, R234, R235). -/
def execSyncRx (port : Port) (t2 t3 : Nat) (s : State) : Out :=
  guardNext (s.time.parent == some port && s.timePort port) s <|
    let n2 := s.ntOfStamp t2
    let gap := (s.time.lastSync.map fun p => n2 - p).filter fun g => decide (0 < g)
    sendOn port (mkFrame s 1 0x12 true false (s.neighbourId port) none [])
      (s.modTime fun t =>
        { t with exch := { Exchange.none with t2 := some n2, t3 := some (s.ntOfStamp t3), gap := gap }
                 lastSync := some n2, parentNs := (gap.map intervalOf).getD t.parentNs })

/-- What a neighbour offers, with the LC since which it has offered fewer HOPS than the parent (R231). -/
def noteOffer (port : Port) (fu : SyncFu) (s : State) : State :=
  let t := s.time
  let parentHops := (t.parent.bind fun p => t.offers[p].map (·.hops.toNat)).getD 16
  let since := match t.offers[port] with
    | some o => if o.hops.toNat < parentHops && fu.hops.toNat < parentHops then o.since else s.lcN
    | none => s.lcN
  let offer := { hub := fu.hub, hops := fu.hops, tq := fu.tq, term := fu.term, since := since }
  s.modTime fun t => { t with offers := vset t.offers port (some offer) }

/-- The parent is lost (R234): TQ changes as the table says and another port is taken when one qualifies (R231, R238). -/
def loseParent (p : Port) (s : State) : State :=
  let s1 := s.modTime fun t =>
    { t with parent := none, offers := vset t.offers p none, exch := Exchange.none, lastSync := none }
  let s2 := s1.bestParent
  match s2 with
  | some b =>
    let s3 := if s1.time.tq = 3 then parentGone s1 else s1
    let s4 := if s3.time.tq = 2 then setTq 1 s3 else s3
    takeParent b s4
  | none => parentGone s1

/-- SYNC_FU_RX: the neighbour's offer is noted, a hub without a parent may take it, and the exchange in progress takes t1,
TSHIFT and STEP_SEQ. A parent whose HOPS leaves no room below 16 is given up: a hub whose HOPS would exceed 15 takes no parent (R231,
R232). -/
def execSyncFuRx (port : Port) (fu : SyncFu) (s : State) : Out :=
  guardNext (s.timePort port) s <|
    let s1 := seekParent (noteOffer port fu s)
    if s1.time.parent = some port && fu.hops == 15 then loseParent port s1
    else if s1.time.parent = some port then
      s1.modTime fun t => { t with hops := fu.hops + 1,
                                   exch := { t.exch with t1 := some fu.t1, tshift := fu.tshift, stepSeq := fu.stepSeq } }
    else s1

/-- DELAY_REQ_RX: t4 is taken and answered in DELAY_RESP (R232). -/
def execDelayReqRx (port : Port) (t4 : Nat) (s : State) : Out :=
  guardNext (s.timePort port) s (sendOn port (mkFrame s 1 0x13 true false (s.neighbourId port) none (ntFrame (s.ntOfStamp t4))) s)

/-- One complete exchange: d and e (R233), TSHIFT copied (R229), a step where STEP_SEQ is new (R242), the servo (R235). -/
def completeExchange (port : Port) (t1 t2 t3 t4 : Int) (s : State) : State :=
  let x := s.time.exch
  let e := nsOf ((t2 - t1) - (t4 - t3)) / 2 - (s.time.cfg.asymPs[port].toInt : Rat) / 1000
  let d := nsOf ((t2 - t1) + (t4 - t3)) / 2
  let ts := (x.gap.map nsOf).getD (s.time.parentNs : Rat)
  let newStep := x.stepSeq != s.time.stepSeq
  let parentOk := match s.time.offers[port] with
    | some o => o.tq == 3 || o.tq == 4
    | none => false
  let s1 := s.modTime fun t =>
    { t with d := d, tshift := x.tshift, stepSeq := x.stepSeq, exchAt := s.lcN, exch := Exchange.none }
  servo false e ts (5 / 100) (1 / 10) parentOk newStep true s1

/-- DELAY_RESP_RX: the exchange is complete when t1 to t3 are there (R233, R235). -/
def execDelayRespRx (port : Port) (t4 : Int) (s : State) : Out :=
  guardNext (s.time.parent == some port && s.timePort port) s <|
    match s.time.exch.t1, s.time.exch.t2, s.time.exch.t3 with
    | some t1, some t2, some t3 => completeExchange port t1 t2 t3 t4 s
    | _, _, _ => s

/-- PARENT_LOSS: three of the parent's sync intervals without a complete exchange, or the link is down (R234; log entry 26). -/
def execParentLoss (s : State) : Out :=
  .next <|
    match s.time.parent with
    | none => s
    | some p => loseParent p (if s.linkUp p then atLc (s.time.exchAt + 3 * s.time.parentNs) s else s)

/-- PARENT_RESELECT: the port has offered fewer HOPS than the parent for 1 s and becomes the parent (R231). -/
def execParentReselect (port : Port) (s : State) : Out :=
  .next <|
    match s.time.parent, s.time.offers[port] with
    | some p, some o =>
      let ph := ((s.time.offers[p]).map (·.hops.toNat)).getD 16
      if p ≠ port && s.parentFit port && decide (o.hops.toNat < ph) then takeParent port (atLc (o.since + 1000000000) s) else s
    | _, _ => s

/-- LEADER_SERVO_UPDATE: once per millisecond the leader steers its sampling PLL, and without a required source the update
counts as an exchange with e 0 (R236, R238). -/
def execLeaderServoUpdate (s : State) : Out :=
  guardNext s.fab.leads s <|
    let s1 := atLc (s.time.exchAt + 1000000) s
    let s2 := steer 1000000 (ownTime (s1.modTime fun t => { t with exchAt := s1.lcN }))
    if s2.sourceJudges || (s2.time.tq == 4 && s2.time.srcState.lost) then s2
    else judgeTq 0 (1 / 10) true (countLock 0 (5 / 100) (1 / 10) s2)

/-- HOLDOVER_EXPIRY: after HOLDOVER_S TQ 4 goes to 1 with a parent selected and to 0 without (R238). A leader whose source
is not required returns to TQ 3 (R247). -/
def execHoldoverExpiry (s : State) : Out :=
  .next <|
    match s.time.holdAt with
    | some t =>
      if s.time.tq = 4 then
        let s1 := atLc (t + s.time.cfg.holdover.toNat * 1000000000) s
        if s1.fab.leads && !s1.sourceJudges then setTq 3 s1
        else if s1.time.parent.isSome then setTq 1 s1 else setTq 0 s1
      else s
    | none => s

/-- TIME_MAP_INTERVAL: once per second of LC a time map is emitted (R230). -/
def execTimeMapInterval (s : State) : Out :=
  guardNext (s.time.tclk && s.boot.fwRuns) s <|
    let s1 := atLc (s.time.mapAt + 1000000000) s
    raiseTimeMap (s1.modTime fun t => { t with mapAt := s1.lcN })

/-! Sources of the leader. -/

/-- One update of the leader's servo against its source (R244): TQ is judged by it when the source is required (R238). -/
def sourceUpdate (e ts : Rat) (s : State) : State :=
  let lock : Rat := (s.time.cfg.srcLock.toNat : Rat)
  let s1 := s.modTime fun t => { t with srcState :=
    { t.srcState with received := true, lost := false, locked := decide (absR e ≤ lock), updAt := s.lcN } }
  let s2 := if s1.sourceJudges && s1.time.tq == 0 then setTq 1 s1 else s1
  servo true e ts lock lock true false s2.sourceJudges s2

/-- PPS_EDGE: the edge, less PPS_DELAY_NS, is a whole second of NT, unless it lies more than 100 ppm from one second after
the edge before (R246). -/
def execPpsEdge (stamp : Nat) (s : State) : Out :=
  guardNext (s.fab.leads && s.time.cfg.source == .pps) s <|
    let x := s.time.srcState
    let st : Int := (stamp : Int) - s.time.cfg.ppsDelay.toNat * 256
    let nt := s.ntOfStamp st
    let off := match x.lastEdge with
      | some p => decide (100000 * 256 < ((st - p - 1000000000 * 256).natAbs))
      | none => false
    if off then s.modTime fun t => { t with srcState := { t.srcState with ignored := t.srcState.ignored + 1 } }
    else
      let sec : Nat := match s.time.cfg.ppsSec, x.lastEdge with
        | some n, _ => n
        | none, some _ => x.second + 1
        | none, none => (roundDiv nt (65536 * 1000000000)).toNat
      let e := nsOf nt - (sec : Rat) * 1000000000
      sourceUpdate e 1000000000 (s.modTime fun t =>
        { t with cfg := { t.cfg with ppsSec := none }
                 srcState := { t.srcState with second := sec, lastEdge := some st, syncAt := s.lcN } })

/-- The data set of an announce in the order of the best master clock comparison, lower values better (R245). -/
def announceKey (a : Announce) : List Nat :=
  [a.priority1.toNat, a.clockClass.toNat, a.accuracy.toNat, a.variance.toNat, a.priority2.toNat, a.clockId.toNat,
   a.stepsRemoved.toNat]

/-- Lexicographic order of two data sets. -/
def keyBefore : List Nat → List Nat → Bool
  | a :: s, b :: t => a < b || (a == b && keyBefore s t)
  | _, _ => false

/-- PTP runs on this port of this leader (R244, R245). -/
def State.ptpOn (s : State) (port : Fin 8) : Bool :=
  s.fab.leads && s.time.cfg.source == .ptp && s.time.cfg.ptpPort.toNat == port.val && s.isEth ⟨port.val, by omega⟩

/-- PTP_ANNOUNCE_RX: the better of the grandmaster and this one is selected (R245). -/
def execPtpAnnounceRx (a : Announce) (s : State) : Out :=
  guardNext (s.ptpOn a.port && a.domain == s.time.cfg.ptpDomain) s <|
    let take := match s.time.srcState.master with
      | none => true
      | some m => m.clockId == a.clockId || keyBefore (announceKey a) (announceKey m)
    if take then s.modTime fun t =>
      { t with srcState := { t.srcState with master := some a, announceAt := s.lcN, utcOffset := a.utcOffset } }
    else s

/-- The message comes from the selected grandmaster. -/
def State.fromMaster (s : State) (port : Fin 8) (clockId : Word64) : Bool :=
  s.ptpOn port && (s.time.srcState.master.map (·.clockId)) == some clockId

/-- PTP_SYNC_RX: the sync is stamped at the lane (R245, R247). -/
def execPtpSyncRx (port : Fin 8) (clockId : Word64) (seq : BitVec 16) (stamp : Nat) (s : State) : Out :=
  guardNext (s.fromMaster port clockId) s <|
    s.modTime fun t => { t with srcState := { t.srcState with syncSeq := some (seq, s.ntOfStamp stamp), syncAt := s.lcN } }

/-- PTP_FOLLOW_UP_RX: the origin time of the sync with the same sequence number. The hub then sends its Delay_Req, over the transport
that TIME_ROLE has set (R245; log entry 216). -/
def execPtpFollowUpRx (port : Fin 8) (clockId : Word64) (seq : BitVec 16) (origin : Int) (s : State) : Out :=
  guardNext (s.fromMaster port clockId) s <|
    match s.time.srcState.syncSeq with
    | some (q, t2) =>
      if q = seq then s.modTime fun t =>
        { t with srcState := { t.srcState with syncSeq := none, t12 := some (origin, t2), reqSeq := t.srcState.reqSeq + 1
                                               reqOut := some (t.srcState.reqSeq, t.cfg.ptpUdp) } }
      else s
    | none => s

/-- PTP_DELAY_RESP_RX: the response to the Delay_Req sent; the delay measurement is complete and the servo runs against the source
(R244, R245). -/
def execPtpDelayRespRx (port : Fin 8) (clockId : Word64) (seq : BitVec 16) (sent : Nat) (receive : Int) (s : State) : Out :=
  guardNext (s.fromMaster port clockId && (s.time.srcState.reqOut.map (·.1)) == some seq) s <|
    match s.time.srcState.t12 with
    | some (t1, t2) =>
      let e := nsOf ((t2 - t1) - (receive - s.ntOfStamp sent)) / 2
      let d := s.lcN - s.time.srcState.updAt
      let ts : Rat := if s.time.srcState.received && d ≠ 0 then (d : Rat) else 1000000000
      sourceUpdate e ts (s.modTime fun t => { t with srcState := { t.srcState with t12 := none, reqOut := none } })
    | none => s

/-- SOURCE_LOST: 3 s without a qualifying input (R247). -/
def execSourceLost (s : State) : Out :=
  let x := s.time.srcState
  guardNext (s.fab.leads && s.time.cfg.source != .none && x.received && !x.lost) s <|
    let from_ := if s.time.cfg.source == .ptp then min x.announceAt x.syncAt else x.syncAt
    let s1 := atLc (from_ + 3000000000) s
    sourceGone (s1.modTime fun t => { t with srcState :=
      { t.srcState with lost := true, locked := false, lastEdge := none, master := none, syncSeq := none, t12 := none
                        reqOut := none } })

/-- LC_WRAP: the clocks move to the wrap of LC, where TIME_EPOCH increments as at a step (R226). -/
def execLcWrap (s : State) : Out := guardNext s.time.tclk s (elapse (2 ^ 64 - s.lcN) s)

end Sys2Proof.Machine
end

