-- ==== Sys2Proof/Machine/Accum.lean ====
section
/-! DEFINITION. Accumulators and min-max trackers, and the end of their windows (R310 to R312, R146). -/

namespace Sys2Proof.Machine

/-! Accumulators and trackers (R310 to R312). -/

/-- The accumulator of a kind and index. -/
def State.acc (s : State) (kind : AccKind) (i : Nat) : Option Acc :=
  match kind with
  | .channel => (finOf 384 i).map fun c => s.red.accCh[c]
  | .projection => (finOf 64 i).map fun p => s.red.accPrj[p]
  | .raw => (finOf 384 i).map fun c => s.red.accRaw[c]

def modAcc (kind : AccKind) (i : Nat) (f : Acc → Acc) (s : State) : State :=
  match kind with
  | .channel => match finOf 384 i with
    | some c => s.modRed fun r => { r with accCh := vmod r.accCh c f }
    | none => s
  | .projection => match finOf 64 i with
    | some p => s.modRed fun r => { r with accPrj := vmod r.accPrj p f }
    | none => s
  | .raw => match finOf 384 i with
    | some c => s.modRed fun r => { r with accRaw := vmod r.accRaw c f }
    | none => s

def kindCode : AccKind → Nat
  | .channel => 0 | .projection => 1 | .raw => 2

/-- A window with a value added (R310). SUM and SUMSQ hold at their largest values and set SAT. -/
def Acc.take (a : Acc) (v : Int) (fl : Byte) (stamp : Nat) : Acc :=
  let a1 := { a with total := a.total + 1, first := if a.total = 0 then stamp else a.first }
  if hasF fl flagInv then a1
  else
    let m := a1.sum + v
    let q := a1.sumsq + v.natAbs ^ 2
    let m1 := clamp (-(2 ^ 95)) (2 ^ 95 - 1) m
    let q1 := Min.min q (2 ^ 96 - 1)
    { a1 with used := a1.used + 1, sum := m1, sumsq := q1, sat := a1.sat || m1 != m || q1 != q
              min := if a1.used = 0 then v else Min.min a1.min v, max := if a1.used = 0 then v else Max.max a1.max v
              flags := a1.flags ||| fl }

/-- An empty window with the same settings. -/
def Acc.clear (a : Acc) : Acc :=
  { a with sum := 0, sumsq := 0, sat := false, total := 0, used := 0, min := 0, max := 0, flags := 0, first := 0, out := (0, 0, 0) }

/-- The three words of a 96-bit value, low word first. -/
def words96 (v : Int) : List Word := let n := lowBits 96 v; [w32 n, w32 (n / 2 ^ 32), w32 (n / 2 ^ 64)]

/-- A summary entry (R311). -/
def Acc.words (a : Acc) (kind : AccKind) (i : Nat) (isPartial : Bool) : List Word :=
  let fl := if a.used = 0 then a.flags ||| flagInv else a.flags
  [w32 (fld 0 2 (kindCode kind) + fld 2 9 i + fld 11 5 a.nLog2.toNat + flag 16 a.sat + flag 17 isPartial + fld 18 8 fl.toNat),
   w32 (fld 0 21 a.total), w32 (fld 0 21 a.used)] ++ words64 a.first ++ words96 a.sum ++ words96 a.sumsq ++
  [w32i (if a.used = 0 then 0 else a.min), w32i (if a.used = 0 then 0 else a.max), 0]

/-- The variance of n values from their sum and sum of squares, times n². -/
def varianceN (n : Nat) (sum : Int) (sumsq : Nat) : Nat := n * sumsq - sum.natAbs ^ 2

/-- The rms about the mean, rounded down; 0 of no values. -/
def rmsOf (n : Nat) (sum : Int) (sumsq : Nat) : Nat := if n = 0 then 0 else isqrt (varianceN n sum sumsq / n ^ 2)

/-- Out-of-band energy of a raw window (R146): the raw rms exceeds OOB_FACTOR times the output rms, a VALUE code being 128
raw codes, and 1 % of full scale. Without output words nothing is compared (log entry 43). -/
def outOfBand (a : Acc) : Bool :=
  let n := a.used
  let m := a.out.2.2
  let rv := varianceN n a.sum a.sumsq
  let ov := varianceN m a.out.1 a.out.2.1
  n != 0 && m != 0 && decide ((a.oob.toNat * 128) ^ 2 * ov * n ^ 2 < rv * m ^ 2) && decide (2 ^ 60 * n ^ 2 < rv * 10000)

/-- The comparison at the end of a raw window, and its OOB_ENERGY event (R146). -/
def judgeRaw (kind : AccKind) (i : Nat) (a : Acc) (s : State) : State :=
  match kind with
  | .raw =>
    if outOfBand a then
      raise s 0x1004 [w32 i, w32 (rmsOf a.used a.sum a.sumsq), w32 (rmsOf a.out.2.2 a.out.1 a.out.2.1)]
    else s
  | _ => s

/-- The window of an accumulator ends, whole or partial, and its entry goes into stream 49 (R311). -/
def endWindow (kind : AccKind) (i : Nat) (isPartial : Bool) (s : State) : State :=
  match s.acc kind i with
  | none => s
  | some a =>
    if a.total = 0 then s
    else
      let s1 := modAcc kind i (fun a => { a.clear with windows := if isPartial then a.windows else a.windows + 1 }) s
      let s2 := if a.emit then
          deliver { stream := 49, stamp := a.first, delay := 0, preset := 0, coded := false, count := 1, tick := none
                    words := a.words kind i isPartial } s1
        else s1
      if isPartial then s2 else judgeRaw kind i a s2

/-- The window holds its 2^N_LOG2 words. -/
def Acc.full (a : Acc) : Bool := a.enable && decide (2 ^ a.nLog2.toNat ≤ a.total)

/-- A word or raw result reaches an accumulator: a window that is full ends first (R310). -/
def accumulate (kind : AccKind) (i : Nat) (v : Int) (fl : Byte) (stamp : Nat) (s : State) : State :=
  match s.acc kind i with
  | none => s
  | some a =>
    if !a.enable then s
    else
      let s1 := if a.full then endWindow kind i false s else s
      modAcc kind i (fun a => a.take v fl stamp) s1

/-- A tracker with a value taken; among equal values the earlier stamp stays (R312). -/
def MinMax.take (m : MinMax) (v : Int) (fl : Byte) (stamp : Nat) : MinMax :=
  if hasF fl flagInv then m
  else
    let e := m.count == 0
    { min := if e || v < m.min then v else m.min, minStamp := if e || v < m.min then stamp else m.minStamp
      max := if e || m.max < v then v else m.max, maxStamp := if e || m.max < v then stamp else m.maxStamp
      count := satInc m.count }

def modMinMax (kind : AccKind) (i : Nat) (f : MinMax → MinMax) (s : State) : State :=
  match kind with
  | .channel => match finOf 384 i with
    | some c => s.modRed fun r => { r with mmCh := vmod r.mmCh c f }
    | none => s
  | .projection => match finOf 64 i with
    | some p => s.modRed fun r => { r with mmPrj := vmod r.mmPrj p f }
    | none => s
  | .raw => match finOf 384 i with
    | some c => s.modRed fun r => { r with mmRaw := vmod r.mmRaw c f }
    | none => s

def State.minMax (s : State) (kind : AccKind) (i : Nat) : Option MinMax :=
  match kind with
  | .channel => (finOf 384 i).map fun c => s.red.mmCh[c]
  | .projection => (finOf 64 i).map fun p => s.red.mmPrj[p]
  | .raw => (finOf 384 i).map fun c => s.red.mmRaw[c]

/-- The raw window of a channel ends with PARTIAL when its modulator stops (R311). -/
def endRawWindow (c : Chan) (s : State) : State := endWindow .raw c.val true s

end Sys2Proof.Machine
end

