-- ==== Sys2Proof/Machine/Front.lean ====
section
/-! DEFINITION. The excitation drivers, the faults of channels, setts and dens, and the front-end commands (R16 to R19,
R101 to R132, R554 to R556). -/

namespace Sys2Proof.Machine

/-- The sett, or its den, is isolated (R17). -/
def State.settOut (s : State) (k : SettId) : Bool := (s.setts[k]).isolated || (s.dens[denOf k]).isolated

/-- The words of the channel carry VALUE 0x800000 and INV: it is disabled or retired, or its sett or den is isolated (R17,
R129, R556). -/
def State.chanOut (s : State) (c : Chan) : Bool := !(s.chans[c]).enable || (s.chans[c]).retired || s.settOut (settOf c)

/-- Ticks of one modulator period of a sett, in the mode in force (R133, R143). -/
def State.modTicks (s : State) (k : SettId) : Nat := if (s.setts[k]).lowNow then 4 else 1

/-- Ticks of one modulator period of a sett, in the mode set for its next start (R133, R143). -/
def State.setTicks (s : State) (k : SettId) : Nat := if (s.setts[k]).lowPower then 4 else 1

/-! Drivers (R115 to R126). -/

/-- The driver is off outside the plan's own schedule; in continuous conversion that lasts until it is back on (R125). -/
def State.offPlan (s : State) (k : SettId) : Bool :=
  let x := s.setts[k]
  x.excMode != 0 && !x.driving && (x.planOn || (!x.burstMode && x.lost))

/-- A measurement of n bits that no operand carries (log entry 2). -/
def State.drawMeasured (s : State) (n : Nat) : Nat × State := (Config.measured s.free % 2 ^ n, { s with free := s.free + 1 })

/-- The four averages of AFE_DIAG over one interval, measured (R132; log entry 2). -/
def State.drawAvg (s : State) : ExcAvg × State :=
  let a := s.drawMeasured 13
  let b := a.2.drawMeasured 13
  let i := b.2.drawMeasured 16
  let d := i.2.drawMeasured 16
  ({ vsense := a.1, vout := b.1, iexc := i.1, iden := d.1 }, d.2)

/-- An injection slot that a driving driver no longer covers (R151). -/
def uncover (x : Channel) : Channel :=
  { x with inject := x.inject.map fun i => { i with slot := i.slot.map fun j => { j with covered := false } } }

/-- The averages over an on-period stand once it is complete (R132). -/
def endOnPeriod (k : SettId) (s : State) : State :=
  let r := s.drawAvg
  r.2.modSett k fun x => { x with lastOn := some r.1 }

/-- The driver takes a state. A switch is noted for the settling of R123, REG_LOST clears with the on-period (R120), whose
averages then stand (R132), and a slot in progress is no longer covered once the driver is off (R151). -/
def switchDriver (k : SettId) (on : Bool) (s : State) : State :=
  if (s.setts[k]).driving = on then s
  else
    let s1 := s.modSett k fun x =>
      { x with driving := on, everOn := x.everOn || on, counted := x.counted || on, lost := x.lost && !on
               onLc := if on then s.lcN else x.onLc
               switchTk := if x.run && !x.burstMode then some s.tkN else x.switchTk, regLost := x.regLost && on
               regLostTk := if x.regLost && !on then some s.tkN else x.regLostTk }
    if on then s1 else forEach (chansOf k) (fun s c => s.modChan c uncover) (endOnPeriod k s1)

/-- The plan has a sett's excitation off: its ILIM counts for 100 ticks more (R119, R192). -/
def endCount (k : SettId) (s : State) : State :=
  if (s.setts[k]).counted then s.modSett k fun x => { x with counted := false, offTk := some s.tkN } else s

/-- The driver is off and its ILIM counts no more than its tail (R119, R192, R202). -/
def driverOut (k : SettId) (s : State) : State := endCount k (switchDriver k false s)

/-- A burst in progress whose excitation is not as the plan wants it (R120, R124). -/
def breakBurst (k : SettId) (s : State) : State :=
  s.modSett k fun x => { x with burst := x.burst.map fun b => { b with broken := true } }

/-- The driver is kept off outside the plan's schedule: words carry INV until it is on, and a burst in progress is broken
(R124, R125). -/
def holdOff (k : SettId) (s : State) : State := breakBurst k (s.modSett k fun x => { x with lost := true })

/-- The driver is forced off outside the plan's schedule (R124, R125). -/
def forceDriverOff (k : SettId) (s : State) : State :=
  if (s.setts[k]).driving then holdOff k (switchDriver k false s) else s

/-- The analogue balls are released from isolation: from FRONT_END_ENABLE on, and not in a standby sync (R59, R536). -/
def State.frontPins (s : State) : Bool := s.boot.frontOn && !s.pair.syncing

/-- A driver that the plan switches on may do so: the analogue balls are released from isolation, and its sett runs and is
neither isolated, shed, forced off, tripped nor blocked (R59, R117, R121, R126, R131, R202, R536). -/
def State.mayDrive (s : State) (k : SettId) : Bool :=
  let x := s.setts[k]
  s.frontPins && x.run && x.excMode != 0 && !s.settOut k && !x.shed && !x.forceOff && !x.ocHold && !x.contention && !(s.dens[denOf k]).excOff

/-- ILIM of a sett in mA (R117). -/
def State.ilimMa (s : State) (k : SettId) : Nat := 5 * (s.setts[k]).ilim.toNat

/-- The sett counts its ILIM now (R119). -/
def State.countsIlim (s : State) (k : SettId) : Bool :=
  let x := s.setts[k]
  x.excMode != 0 && (x.counted || (match x.offTk with
    | some t => decide (s.tkN < t + 100)
    | none => false))

/-- The counted current in mA (R119, R212). -/
def State.countedMa (s : State) : Nat := ((allSetts.filter s.countsIlim).map s.ilimMa).sum

/-! Faults (R16 to R19, R554 to R556). -/

/-- Counted transients of a unit within 10 s before LC t (R555). -/
def recentCount (u : Unit2) (t : Nat) : Nat :=
  let near := fun (x : Option Nat) => match x with
    | some a => decide (t ≤ a + 10000000000)
    | none => false
  b2n (near u.last) + b2n (near u.prev)

/-- The unit's second-previous transient lies within 10 s: this one is permanent (R555). -/
def permanent (u : Unit2) (t : Nat) : Bool :=
  match u.prev with
  | some a => decide (t ≤ a + 10000000000)
  | none => false

/-- One more transient at LC t. -/
def pushTransient (u : Unit2) (t : Nat) : Unit2 := { u with last := some t, prev := u.last, old := u.prev }

/-- The last transient counts no more when it is of instant t: its unit is inside one that is isolated in the same cycle (R18). -/
def dropTransient (t : Nat) (u : Unit2) : Unit2 :=
  if u.last = some t then { u with last := u.prev, prev := u.old, old := none } else u

/-- A counter of a unit incremented (R560). -/
def bump (i : Fin 3) (u : Unit2) : Unit2 := { u with counts := vmod u.counts i satInc }

def State.modUnitC (s : State) (c : Chan) (f : Unit2 → Unit2) : State :=
  s.modHealth fun h => { h with chans := vmod h.chans c f }
def State.modUnitS (s : State) (k : SettId) (f : Unit2 → Unit2) : State :=
  s.modHealth fun h => { h with setts := vmod h.setts k f }
def State.modUnitD (s : State) (d : DenId) (f : Unit2 → Unit2) : State :=
  s.modHealth fun h => { h with dens := vmod h.dens d f }

/-- A channel is retired: its modulator stops, with the RETIRED event and the ISOLATED notice (R311, R556). -/
def retireChannel (c : Chan) (byCmd : Bool) (s : State) : State :=
  if (s.chans[c]).retired then s
  else
    let s1 := (endRawWindow c s).modChan c fun x => { x with retired := true, restoreTk := none }
    raiseIsolated (raise s1 0x1001 (w32 (unitField 0 c.val + flag 11 byCmd) :: s1.lcWords)) 0 c.val

/-- Faults of channels in one cycle with the isolation of the unit they lie in do not count towards their retirement (R18). -/
def dropInside (cs : List Chan) (s : State) : State :=
  cs.foldl (fun s c => s.modUnitC c fun u => dropTransient s.lcN (dropTransient s.lcN u)) s

/-- A sett is isolated by its den: its driver is held off (R17, R18). -/
def isolateSett (k : SettId) (s : State) : State :=
  if (s.setts[k]).isolated then s
  else
    let s1 := (dropInside (chansOf k) s).modSett k fun x => { x with isolated := true, restart := none }
    raiseIsolated (endCount k (forceDriverOff k s1)) 1 k.val

/-- A den is isolated by the chip (R17 to R19). -/
def isolateDen (d : DenId) (s : State) : State :=
  if (s.dens[d]).isolated then s
  else
    let s1 := dropInside ((settsOf d).flatMap chansOf) s
    raiseIsolated (forEach (settsOf d) (fun s k => endCount k (forceDriverOff k s)) (s1.modDen d fun x => { x with isolated := true })) 2 d.val

/-- A transient fault of a channel: counted, and the third within 10 s retires it; inside an isolated unit it does not
count towards that (R18, R554, R555). `pos` is the fault's own counter. -/
def channelFault (c : Chan) (kind : Nat) (pos : Fin 3) (s : State) : State :=
  let u := s.health.chans[c]
  let s1 := s.modUnitC c fun u => bump pos (bump 0 u)
  if (s.chans[c]).retired || s.settOut (settOf c) then raiseTransient s1 (unitField 0 c.val) kind (recentCount u s.lcN)
  else
    let s2 := raiseTransient (s1.modUnitC c fun u => pushTransient u s.lcN) (unitField 0 c.val) kind (recentCount u s.lcN + 1)
    if permanent u s.lcN then retireChannel c false s2 else s2

/-- A transient fault of a sett: its words carry INV until its restart, and the third within 10 s isolates it (R555,
R588). -/
def settFault (k : SettId) (kind : Nat) (s : State) : State :=
  let u := s.health.setts[k]
  if s.settOut k then raiseTransient s (unitField 1 k.val) kind (recentCount u s.lcN)
  else
    let s1 := (s.modSett k fun x => { x with restart := if x.run then some s.tkN else none }).modUnitS k fun u => pushTransient u s.lcN
    let s2 := raiseTransient s1 (unitField 1 k.val) kind (recentCount u s.lcN + 1)
    if permanent u s.lcN then isolateSett k s2 else s2

/-- A transient fault of a den: the third within 10 s isolates it (R555). -/
def denFault (d : DenId) (kind : Nat) (s : State) : State :=
  let u := s.health.dens[d]
  if (s.dens[d]).isolated then raiseTransient s (unitField 2 d.val) kind (recentCount u s.lcN)
  else
    let s2 := raiseTransient (s.modUnitD d fun u => pushTransient u s.lcN) (unitField 2 d.val) kind (recentCount u s.lcN + 1)
    if permanent u s.lcN then isolateDen d s2 else s2

/-- The DEN_FAULT event of one den (R19, R566). -/
def raiseDenFault (s : State) (d neighbour : Nat) (cause : Nat) (ppm : Word) : State :=
  raise s 0x1003 [w32 (fld 0 2 d + fld 2 2 neighbour + fld 4 2 cause), ppm]

/-- The DEN_FAULT event of a fault that no comparison found: the spec gives it no neighbour and no difference, so both are
free (R566; log entry 2). -/
def raiseDenFaultFree (s : State) (d : DenId) (cause : Nat) : State :=
  let a := s.drawWord
  let b := a.2.drawWord
  raiseDenFault b.2 d.val (bits a.1 1 0) cause b.1

/-! Shared by the configuration commands. -/

/-- The bank that is not active (R213). -/
def Plan.shadowId (p : Plan) : Fin 2 := if p.activeBank = 0 then 1 else 0

def Plan.shadow (p : Plan) : Bank := p.banks[p.shadowId]

def modShadow (f : Bank → Bank) (s : State) : State := s.modPlan fun p => { p with banks := vmod p.banks p.shadowId f }

/-- The shadow bank's VALID state is cleared (R211). -/
def clearValid (s : State) : State :=
  modShadow (fun b => { b with state := if b.state = .valid then .written else b.state }) s

/-- The channels a parameter word names: CHANNEL, or its whole sett. -/
def namedChans (c : Chan) (whole : Bool) : List Chan := if whole then chansOf (settOf c) else [c]

/-- Range codes that exist (R104). -/
def rangeOk (r : Nat) : Bool := decide (r ≤ 4)

/-! AFE_CONFIG, AFE_RANGE, EXC_CONFIG and AFE_DIAG (R129 to R132). -/

def afeConfigReply (c : Chan) (s : State) : Res :=
  let x := s.chans[c]
  .done stOk [w32 (flag 0 x.enable + fld 1 3 x.scale.toNat + flag 4 x.openDet + flag 5 x.refBg + fld 6 3 x.range.toNat)] s

/-- A channel's settings taken from word 1 of AFE_CONFIG (R129); the detectors run only while it is enabled (R128). -/
def setAfe (w : Word) (x : Channel) : Channel :=
  { x with enable := bit w 0, scale := w.extractLsb' 1 3, openDet := bit w 4, refBg := bit w 5
           cm := if bit w 0 then x.cm else 0 }

/-- A channel takes its settings; one that is disabled ends its raw window (R129, R311). -/
def configChan (w : Word) (c : Chan) (s : State) : State :=
  (if bit w 0 then s else endRawWindow c s).modChan c (setAfe w)

/-- AFE_CONFIG (R129). A request that is wrong in both ways is BAD_PARAM before it is BUSY_RUNNING (R450; log entry 209). -/
def afeConfigBody (_ : Ctx) (ws : List Word) (s : State) : Res :=
  let w0 := pw ws 0
  let w1 := pw ws 1
  match chanAt (bits w0 8 0) with
  | none => refuse stBadParam s
  | some c =>
    let cs := namedChans c (bit w0 9)
    if !resv w0 31 10 || !resv w1 31 6 || !rangeOk (bits w1 3 1) || cs.any (fun c => (s.chans[c]).rangeInit.toNat < bits w1 3 1) then
      refuse stBadParam s
    else if (s.setts[settOf c]).run || s.plan.swap.isSome then refuse stBusy s
    else afeConfigReply c (forEach cs (fun s c => configChan w1 c s) (clearValid s))

def afeConfigSpec : CmdSpec :=
  { code := 0x0200, access := fun c _ _ => accEng c, mode := modeAll, length := fun ws => ws.length == 2
    body := afeConfigBody }

def execAfeConfig (p : Packet) (s : State) : Out := serve afeConfigSpec p s

/-- AFE_RANGE (R130). -/
def afeRangeBody (_ : Ctx) (ws : List Word) (s : State) : Res :=
  let w := pw ws 0
  match chanAt (bits w 8 0) with
  | none => refuse stBadParam s
  | some c =>
    let reply := fun (s : State) =>
      let x := s.chans[c]
      Res.done stOk [w32 (fld 0 3 x.range.toNat + fld 3 3 x.rangeInit.toNat + fld 6 3 x.scale.toNat + flag 9 x.blanking)] s
    let r := bits w 12 10
    if !resv w 31 13 then refuse stBadParam s
    else if !bit w 9 then reply s
    else if !rangeOk r || decide (r < (s.chans[c]).scale.toNat) then refuse stBadParam s
    else if (s.setts[settOf c]).run then refuse stBusy s
    else reply (s.modChan c fun x => { x with rangeInit := BitVec.ofNat 3 r, range := BitVec.ofNat 3 r })

def afeRangeSpec : CmdSpec :=
  { code := 0x0201, access := fun c ws _ => if bit (pw ws 0) 9 then accEng c else accAny c, mode := modeAll, length := fun ws => ws.length == 1
    body := afeRangeBody }

def execAfeRange (p : Packet) (s : State) : Out := serve afeRangeSpec p s

/-- FORCE_OFF takes a value: the driver goes off at once, or follows the plan from its next EXC_ON (R131). -/
def setForce (k : SettId) (off : Bool) (s : State) : State :=
  let s1 := if off then forceDriverOff k s else s
  s1.modSett k fun x => { x with forceOff := off }

def excReply (k : SettId) (s : State) : Res :=
  let x := s.setts[k]
  .done stOk [w32 (fld 0 8 x.vcode.toNat + fld 8 2 x.excMode.toNat + flag 10 x.forceOff + fld 11 4 x.ilim.toNat + flag 15 x.driving +
    flag 16 x.contention + flag 17 x.ocTrip.isSome + flag 18 x.regLost)] s

/-- EXC_CONFIG (R131). -/
def excConfigBody (_ : Ctx) (ws : List Word) (s : State) : Res :=
  let w0 := pw ws 0
  let w1 := pw ws 1
  match finOf 48 (bits w0 5 0) with
  | none => refuse stBadParam s
  | some k =>
    let il := bits w1 14 11
    if !resv w0 31 7 || !resv w1 31 15 then refuse stBadParam s
    else if bit w0 6 then excReply k (setForce k (bit w1 10) s)
    else if bits w1 9 8 = 3 || (bits w1 9 8 != 0 && (il == 0 || decide (8 < il))) then refuse stBadParam s
    else if (s.setts[k]).run || s.plan.swap.isSome then refuse stBusy s
    else
      excReply k ((setForce k (bit w1 10) (clearValid s)).modSett k fun x =>
        { x with vcode := w1.extractLsb' 0 8, excMode := w1.extractLsb' 8 2, ilim := w1.extractLsb' 11 4 })

def excConfigSpec : CmdSpec :=
  { code := 0x0202, access := fun c ws _ => if bit (pw ws 0) 6 then accOp c else accEng c, mode := modeAll
    length := fun ws => ws.length == 2, body := excConfigBody }

def execExcConfig (p : Packet) (s : State) : Out := serve excConfigSpec p s

/-- The averages over the most recent 1 ms, one measurement for one instant. They also stand in for an on-period of which none
is complete yet, for which the spec states no value (R132; log entry 2). -/
def recentAvg (k : SettId) (s : State) : ExcAvg × State :=
  match (s.setts[k]).nowOn.filter fun p => p.1 == s.lcN with
  | some p => (p.2, s)
  | none =>
    let r := s.drawAvg
    (r.1, r.2.modSett k fun x => { x with nowOn := some (s.lcN, r.1) })

/-- The averages in force: over the most recent 1 ms while the driver has been on for longer, otherwise over the last completed
on-period (R132). -/
def excAvg (k : SettId) (s : State) : ExcAvg × State :=
  let x := s.setts[k]
  if x.driving && decide (x.onLc + 1000000 < s.lcN) then recentAvg k s
  else match x.lastOn with
    | some a => (a, s)
    | none => recentAvg k s

/-- Reply words of AFE_DIAG: detectors, active test, and the averages, 0 when the driver has not been on since the hub started
(R132; log entry 208). -/
def diagWords (c : Chan) (s : State) : List Word × State :=
  let x := s.chans[c]
  let w0 := w32 (fld 0 4 x.cm.toNat + flag 4 x.overload + fld 5 2 x.actResult.toNat + fld 8 24 x.rPair.toNat)
  if !(s.setts[settOf c]).everOn then ([w0, 0, 0, 0], s)
  else
    let r := excAvg (settOf c) s
    ([w0, w32 (fld 0 13 r.1.vsense + fld 13 13 r.1.vout), w32 r.1.iexc, w32 r.1.iden], r.2)

/-- AFE_DIAG (R132): a test already running on the channel refuses a second one (log entry 40). -/
def afeDiagBody (c : Ctx) (ws : List Word) (s : State) : Res :=
  let w := pw ws 0
  match chanAt (bits w 8 0) with
  | none => refuse stBadParam s
  | some ch =>
    if !resv w 31 10 then refuse stBadParam s
    else if !bit w 9 then
      let r := diagWords ch s
      .done stOk r.1 r.2
    else if (s.setts[settOf ch]).run || (s.chans[ch]).actTest.isSome then refuse stBusy s
    else .deferred (s.modChan ch fun x => { x with actTest := some (c.replyTo s) })

def afeDiagSpec : CmdSpec :=
  { code := 0x0203, access := fun c ws _ => if bit (pw ws 0) 9 then accEng c else accAny c, mode := modeAll, length := fun ws => ws.length == 1
    body := afeDiagBody }

def execAfeDiag (p : Packet) (s : State) : Out := serve afeDiagSpec p s

/-- ACT_RESULT of a finished test (R128). -/
def actResult (rPair : Nat) (overloaded : Bool) : BitVec 2 :=
  if overloaded || 1000000 < rPair then 2 else if rPair < 10 then 3 else 1

/-- AFE_DIAG_TEST_DONE: the reply is made available (R128, R132). -/
def execAfeDiagTestDone (ch : Chan) (rPair : Nat) (overloaded : Bool) (s : State) : Out :=
  .next <|
    match (s.chans[ch]).actTest with
    | none => s
    | some req =>
      let s1 := s.modChan ch fun x =>
        { x with actTest := none, actResult := actResult rPair overloaded, rPair := BitVec.ofNat 24 (min rPair 0xFFFFFF) }
      let r := diagWords ch s1
      answerLater 0x0203 req stOk r.1 r.2

/-! Events of the front end. -/

/-- The modulator of the channel runs (R133, R556). -/
def State.modulating (s : State) (c : Chan) : Bool :=
  s.served && s.time.sclk && (s.chans[c]).enable && !(s.chans[c]).retired && !(s.setts[settOf c]).shed

/-- MODULATOR_INSTABILITY: samples are replaced up to the last of the 32 recovery samples (R134). -/
def execModulatorInstability (ch : Chan) (s : State) : Out :=
  guardNext (s.modulating ch) s <|
    channelFault ch 0 1 (s.modChan ch fun x =>
      { x with recovering := true, replacedTk := some (s.tkN + 32 * s.modTicks (settOf ch)) })

/-- MODULATOR_RECOVERY_END: the recovery is over (R134). -/
def execModulatorRecoveryEnd (ch : Chan) (s : State) : Out :=
  guardNext (s.chans[ch]).recovering s
    ((atTk ((s.chans[ch]).replacedTk.getD 0) s).modChan ch fun x => { x with recovering := false })

/-- COMMON_MODE_FAULT_ONSET: words carry INV while a detector reports, and the onset counts as a transient (R102, R128). -/
def execCommonModeFaultOnset (ch : Chan) (detector : Fin 4) (s : State) : Out :=
  guardNext (s.served && (s.chans[ch]).enable && !(s.chans[ch]).cm.getLsbD detector.val) s
    (channelFault ch 1 2 (s.modChan ch fun x => { x with cm := x.cm ||| BitVec.ofNat 4 (2 ^ detector.val) }))

/-- COMMON_MODE_FAULT_CLEAR: the detector reports no fault any more (R102). -/
def execCommonModeFaultClear (ch : Chan) (detector : Fin 4) (s : State) : Out :=
  guardNext ((s.chans[ch]).cm.getLsbD detector.val) s
    (s.modChan ch fun x => { x with cm := x.cm &&& ~~~BitVec.ofNat 4 (2 ^ detector.val) })

/-- OC_TRIP: the driver switches off until the next plan frame, a transient fault of the sett (R117). -/
def execOcTrip (sett : SettId) (s : State) : Out :=
  guardNext (s.setts[sett]).driving s <|
    settFault sett 2 <| ((forceDriverOff sett s).modSett sett fun x =>
      { x with ocTrip := some 0, ocHold := true }).modUnitS sett (bump 0)

/-- REG_LOST: words that overlap it carry INV (R120). -/
def execRegLost (sett : SettId) (s : State) : Out :=
  let x := s.setts[sett]
  guardNext (x.driving && !x.regLost) s
    (breakBurst sett ((s.modSett sett fun x => { x with regLost := true }).modUnitS sett (bump 2)))

/-- REG_LOST_CLEAR (R120). -/
def execRegLostClear (sett : SettId) (s : State) : Out :=
  guardNext (s.setts[sett]).regLost s
    (s.modSett sett fun x => { x with regLost := false, regLostTk := some s.tkN })

/-- CONTENTION: another driver is on the balls, and this one does not switch on (R126). -/
def execContention (sett : SettId) (s : State) : Out :=
  let x := s.setts[sett]
  guardNext (s.served && !x.driving && !x.contention) s (s.modSett sett fun x => { x with contention := true })

/-- CONTENTION_CLEAR: the driver follows its next EXC_ON (R126). -/
def execContentionClear (sett : SettId) (s : State) : Out :=
  guardNext (s.setts[sett]).contention s (s.modSett sett fun x => { x with contention := false })

/-- DEN_EXC_CURRENT_FAULT: all drivers of the den switch off until its restart at the next plan frame (R121, R554). -/
def execDenExcCurrentFault (den : DenId) (s : State) : Out :=
  guardNext ((settsOf den).any fun k => (s.setts[k]).driving) s <|
    let s1 := forEach (settsOf den) (fun s k => forceDriverOff k s) (s.modDen den fun x => { x with excOff := true })
    denFault den 4 (raiseDenFaultFree (s1.modUnitD den (bump 1)) den 2)

/-- FILTER_ENGINE_ERROR: a transient fault of the sett (R16, R588). -/
def execFilterEngineError (sett : SettId) (s : State) : Out :=
  guardNext (s.served && (s.setts[sett]).run && !(s.setts[sett]).shed) s (settFault sett 3 s)

end Sys2Proof.Machine
end

