-- ==== Sys2Proof/Machine/Chain.lean ====
section
/-! DEFINITION. The filter chains: their structures, delays and stamps, the flags of a word, and the corrections applied
to it (R106, R108, R136 to R138, R154, R168 to R188, R282, R287). -/

namespace Sys2Proof.Machine

/-- What one channel delivers for one word or burst result: the code of R106 taken with the trim in force, before any limit, and
the conditions found in its window (R108, R145, R182, R120). -/
structure Conv where
  value    : Int
  ovl      : Bool
  rawOvr   : Bool
  sat      : Bool
  lowSense : Bool
  deriving DecidableEq, Repr

/-- The structure of a chain (R170, R171). -/
structure Shape where
  order : Nat
  cicR  : Nat
  hb2   : Bool
  tapsA : Nat
  decA  : Nat
  tapsB : Nat
  decB  : Nat
  deriving DecidableEq, Repr

/-- The structure of a preset at either modulator clock (R170, R171). A sett in low-power burst conversion may have a preset that
R171 does not list; it takes Bear's CIC then (log entry 210). -/
def presetShape (preset : Nat) (low : Bool) : Shape :=
  if low then
    match preset with
    | 3 => ⟨5, 25, false, 43, 5, 0, 1⟩
    | 4 => ⟨5, 25, true, 48, 10, 0, 1⟩
    | _ => ⟨5, 25, true, 32, 10, 116, 5⟩
  else
    match preset with
    | 0 => ⟨4, 25, false, 18, 1, 0, 1⟩
    | 1 => ⟨4, 25, true, 8, 1, 0, 1⟩
    | 2 => ⟨5, 50, true, 4, 1, 0, 1⟩
    | 3 => ⟨5, 50, true, 38, 5, 0, 1⟩
    | 4 => ⟨5, 50, true, 108, 20, 0, 1⟩
    | _ => ⟨4, 50, true, 64, 10, 233, 10⟩

/-- Input period of pass A and of pass B, in modulator periods (R169). -/
def Shape.perA (x : Shape) : Nat := x.cicR * 2 * (if x.hb2 then 2 else 1)
def Shape.perB (x : Shape) : Nat := x.perA * x.decA

/-- The window span in modulator periods (R169). -/
def Shape.span (x : Shape) : Nat :=
  x.order * (x.cicR - 1) + 1 + 10 * x.cicR + (if x.hb2 then 18 * (2 * x.cicR) else 0) + (x.tapsA - 1) * x.perA +
  (x.tapsB - 1) * x.perB

/-- Output period of a preset in ticks (R172). -/
def presetPeriod (preset : Nat) : Nat :=
  match preset with
  | 0 => 50 | 1 => 100 | 2 => 200 | 3 => 1000 | 4 => 4000 | _ => 20000

/-- DC group delay of a preset in ns (R172). -/
def presetGd (preset : Nat) (low : Bool) : Nat :=
  match preset, low with
  | 0, _ => 9000 | 1, _ => 16000 | 2, _ => 30000
  | 3, false => 110000 | 3, true => 125000
  | 4, false => 420000 | 4, true => 450000
  | _, _ => 12500000

/-- Settling length of a preset in output words (R172). -/
def presetSettle (preset : Nat) : Nat :=
  match preset with
  | 0 => 24 | 1 => 20 | 2 => 16 | 3 => 10 | 4 => 6 | _ => 24

/-- A preset that a sett's conversion mode permits (R140). -/
def presetPermitted (preset : Nat) (burst low : Bool) : Bool := burst || !low || 3 ≤ preset

/-- Structure of a custom table on a preset (R184). -/
def customShape (b : Shape) (t : FirTable) : Shape :=
  { b with order := if t.cicOrder = 0 then b.order else t.cicOrder.toNat, tapsA := t.tapsA, tapsB := t.tapsB }

def State.preset (s : State) (k : SettId) : Nat := (s.chains[k]).preset.toNat

/-- The structure in force. -/
def State.shape (s : State) (k : SettId) : Shape :=
  let b := presetShape (s.preset k) (s.setts[k]).lowPower
  match (s.chains[k]).custom with
  | some t => customShape b t
  | none => b

/-- The structure of the CIC that runs now, in the conversion mode in force (R143, R144). -/
def State.rawShape (s : State) (k : SettId) : Shape :=
  let b := presetShape (s.preset k) (s.setts[k]).lowNow
  match (s.chains[k]).custom with
  | some t => customShape b t
  | none => b

def State.period (s : State) (k : SettId) : Nat := presetPeriod (s.preset k)

/-- SETTLE in force (R172, R187). -/
def State.settle (s : State) (k : SettId) : Nat :=
  match (s.chains[k]).custom with
  | some _ => ((s.shape k).span * s.setTicks k + s.period k - 1) / s.period k
  | none => presetSettle (s.preset k)

/-- Stamps follow R176: Bear, or a custom table with LINEAR (R186). -/
def State.linear (s : State) (k : SettId) : Bool :=
  match (s.chains[k]).custom with
  | some t => t.linear
  | none => s.preset k == 5

/-- The DELAY_NS of R176: 12,500,000 or GD_NS (R186); for a minimum-phase chain its GD (R175). -/
def State.declaredNs (s : State) (k : SettId) : Nat :=
  match (s.chains[k]).custom with
  | some t => t.gdNs
  | none => presetGd (s.preset k) (s.setts[k]).lowPower

/-- The linear-phase delay of a structure in modulator periods, times 2 (R176, R186). -/
def Shape.linearTwice (x : Shape) : Nat := x.span - 1

/-- From the instant tick to the last modulator sample, in ns: GD, or GD_LIN of a linear chain (R175, R176). -/
def State.delayNs (s : State) (k : SettId) : Nat :=
  if s.linear k then (s.shape k).linearTwice * 50 * s.setTicks k / 2 else s.declaredNs k

/-- T_AN rounded to the nearest ns (R175). -/
def State.tAnNs (s : State) (k : SettId) : Nat := (s.factory.tAnPs[k] + 500) / 1000

/-- DELAY_NS of the sett's records in continuous conversion (R175, R176). -/
def State.recordDelay (s : State) (k : SettId) : Nat := if s.linear k then s.declaredNs k else 0

/-- LC of a tick in 2^-8 ns: the frame's start edge plus its offset (R24, R228). -/
def State.lcOfTick (s : State) (tk : Int) : Int := s.plan.frameLc + s.lcSpan ((tk - s.plan.frameTk) * 50) * 256

/-- A value in 2^-8 ns rounded to the nearest ns. -/
def nearNs (v : Int) : Nat := (roundDiv v 256).toNat

/-- The input instant of a word in 2^-8 ns: its last modulator sample with the sett's delay, less the chain's delay and T_AN
(R175, R176, R248). -/
def State.inputLc (s : State) (k : SettId) (lastTick : Nat) : Int :=
  s.lcOfTick lastTick + 2 * (s.chains[k]).tap - (s.lcSpan (s.delayNs k) + s.tAnNs k) * 256

/-- The stamp of a word of continuous conversion in ns (R175, R176). -/
def State.wordStamp (s : State) (k : SettId) (lastTick : Nat) : Nat :=
  nearNs (s.inputLc k lastTick + (if s.linear k then s.lcSpan (s.declaredNs k) * 256 else 0))

/-- A word stamped here carries TU (R240). -/
def State.tuAt (s : State) (lc : Nat) : Bool := decide ((s.tqAt lc).toNat < 3)

/-- One coefficient in force: of the half-bands, the preset ROM or the custom table (R190). -/
def coefAt (s : State) (k : SettId) (pass i : Nat) : BitVec 24 :=
  let x := s.shape k
  match pass with
  | 0 | 1 =>
    if (if pass = 0 then x.tapsA else x.tapsB) ≤ i then 0
    else match (s.chains[k]).custom with
      | some t => t.coefs.getD (if pass = 0 then i else t.tapsA + i) 0
      | none => Config.romCoef (s.preset k) (s.setts[k]).lowPower (pass == 1) i
  | 2 => if 11 ≤ i then 0 else Config.halfBand false i
  | _ => if 19 ≤ i then 0 else Config.halfBand true i

/-! Corrections. -/

/-- 2π in units of 2^-80. -/
def tauFix : Int := 7595904947272677161575987

/-- The sum of a Taylor series of sine or cosine, in units of 2^-80. -/
def trigGo : Nat → Int → Int → Nat → Int → Int
  | 0, _, _, _, acc => acc
  | n + 1, th2, term, k, acc =>
    let t := -(term * th2) / 2 ^ 80 / ((k + 1) * (k + 2))
    trigGo n th2 t (k + 2) (acc + t)

/-- Sine and cosine of an angle below a quarter turn, in units of 2^-80. -/
def sinCosQ (r : Int) : Int × Int :=
  let th := tauFix * r / 2 ^ 32
  let th2 := th * th / 2 ^ 80
  (trigGo 20 th2 th 1 th, trigGo 20 th2 (2 ^ 80) 0 (2 ^ 80))

/-- Sine and cosine of an angle in 2^-32 turn, in units of 2^-80. -/
def sinCos (a : Int) : Int × Int :=
  let m := a % 2 ^ 32
  let (si, co) := sinCosQ (m % 2 ^ 30)
  match (m / 2 ^ 30).toNat with
  | 0 => (si, co)
  | 1 => (co, -si)
  | 2 => (-si, -co)
  | _ => (-co, si)

/-- The angle of a vector with u > 0 and v ≥ 0, in 2^-24 turn, bit by bit from the top. -/
def angleGo : Nat → Nat → Int → Int → Nat
  | 0, n, _, _ => n
  | b + 1, n, u, v =>
    let m := n + 2 ^ b
    let (si, co) := sinCosQ (m * 256)
    angleGo b (if u * si ≤ v * co then m else n) u v

/-- The phase of a vector as a 32-bit fraction of a turn: exact to 2^-24 turn, its low bits free (R289; log entry 11). -/
def phaseOf (x y : Int) : Word :=
  let q := if 0 < x ∧ 0 ≤ y then (0, x, y) else if 0 < y then (1, y, -x) else if x < 0 then (2, -x, -y) else (3, -y, x)
  w32 ((q.1 * 2 ^ 22 + angleGo 22 0 q.2.1 q.2.2) * 256 + (Config.phaseLow x y).toNat)

/-- The value limit of R106. -/
def valueLimit : Int := 8388607

/-- G_SCALE of a channel: the gain of its SCALE_RANGE (R104, R106). -/
def Channel.gScale (x : Channel) : Nat := 4 ^ x.scale.toNat

/-- A trim tap's weight in codes (R154). -/
def Channel.tap (x : Channel) : Nat := 64 * x.gScale

/-- The coefficient set of the range in force (R154). -/
def Channel.coef (x : Channel) : CoefSet := x.coefs.toList.getD x.range.toNat CoefSet.reset

/-- The value after calibration: GAIN × (VALUE + OFFSET_DIG), rounded to nearest (R154). -/
def calibrated (x : Channel) (v : Int) : Int :=
  roundDiv (x.coef.gain.toNat * (256 * v + x.coef.offset.toInt)) (2 ^ 38)

/-- The enabled slot that a channel belongs to, as X (false) or Y (true) member (R278). -/
def State.slotOf (s : State) (c : Chan) : Option (Fin 24) :=
  (List.finRange 24).find? fun q => (s.quad[q]).enable && (s.quad[q]).pairBase.toNat == c.val / 2

/-- The offset part that the digital correction of a member adds, in 1/256 code: the trim carries the rest (R282). -/
def digitalPart (offset : Word) (trim : BitVec 10) (tap : Nat) : Int := offset.toInt - trim.toInt * tap * 256

/-- X′ and Y′ from the member values as converted, in codes; none where cos φ is 0 (R287; log entry 41). -/
def quadCorrect (q : Slot) (tapX tapY : Nat) (x y : Int) : Int × Option Int :=
  let xx := 256 * x + digitalPart q.coef.ox q.trimX tapX
  let yy := 256 * y + digitalPart q.coef.oy q.trimY tapY
  let (si, co) := sinCos q.coef.phi.toInt
  let num := q.coef.k.toNat * yy * 2 ^ 50 - xx * si
  (roundDiv xx 256,
   if co = 0 then none else some (roundDiv (if co < 0 then -num else num) (256 * co.natAbs)))

/-! Flags (R188). -/

/-- Ratiometric: RATIO without REF_BG (R120). -/
def State.ratiometric (s : State) (c : Chan) : Bool := (s.setts[settOf c]).excMode == 2 && !(s.chans[c]).refBg

/-- CALX of a channel: uncalibrated or its calibration running (R94, R156), its pair unqualified
(R288), or its den's reference not settled (R545). -/
def State.calx (s : State) (c : Chan) : Bool :=
  let x := s.chans[c]
  x.cal.state != .idle || !(s.dens[denOf (settOf c)]).settled ||
  (match s.slotOf c with
    | some q => !(s.quad[q]).everQualified && (s.quad[q]).stored.isNone
    | none => !x.coef.stored)

/-- The condition was last met at a tick after `from`. -/
def since (t : Option Nat) (fromTk : Int) : Bool :=
  match t with
  | some a => decide (fromTk < (a : Int))
  | none => false

/-- The flags that a channel's words have whatever they are converted by: RET, CALX, LP, TU and the standing causes of INV
(R17, R128, R140, R240, R588). -/
def State.commonFlags (s : State) (c : Chan) (stamp : Nat) (v : Conv) : Byte :=
  let k := settOf c
  let x := s.chans[c]
  whenF (v.ovl || v.rawOvr || decide (valueLimit ≤ v.value ∨ v.value ≤ -valueLimit)) flagOvr |||
  whenF (s.tuAt stamp) flagTu ||| whenF (s.setts[k]).lowNow flagLp ||| whenF (s.calx c) flagCalx |||
  whenF x.retired flagRet |||
  whenF (s.chanOut c || (s.setts[k]).restart.isSome || x.cm != 0 || (v.lowSense && s.ratiometric c)) flagInv

/-- The flags of a word of continuous conversion whose last modulator sample falls at a tick (R112, R120, R123, R125, R134,
R178 to R182): what happens at a sample of its flag window affects it (R179). -/
def State.wordFlags (s : State) (c : Chan) (last stamp : Nat) (v : Conv) : Byte :=
  let k := settOf c
  let x := s.chans[c]
  let win : Int := (last : Int) - s.settle k * s.period k
  s.commonFlags c stamp v ||| whenF (v.sat && (s.chains[k]).shift) flagOvr |||
  whenF (decide ((s.chains[k]).words < s.settle k) || since x.rangeTk win || since (s.setts[k]).switchTk win ||
    since x.restoreTk win) flagStl |||
  whenF (since x.replacedTk win || (s.setts[k]).regLost || since (s.setts[k]).regLostTk win || s.offPlan k) flagInv

/-- The flags of a burst result (R124, R134, R138). -/
def State.burstFlags (s : State) (c : Chan) (b : Burst) (stamp : Nat) (v : Conv) : Byte :=
  s.commonFlags c stamp v ||| whenF (b.broken || since (s.chans[c]).replacedTk ((b.startTk : Int) - 1)) flagInv

/-- The sample words of the members of a sett from what the modulators deliver, each with its flags: calibrated (R154) or
corrected as pairs (R287). A Y′ with cos φ = 0 has no stated value, so it is free (log entry 2). -/
def correctWords (k : SettId) (convs : Vector Conv 8) (flags : Vector Byte 8) (s : State) : Vector Word 8 :=
  Vector.ofFn fun j =>
    let c := chanOf k j
    let x := s.chans[c]
    let v := clamp (-valueLimit) valueLimit (convs[j]).value
    let value := match s.slotOf c with
      | none => calibrated x v
      | some q =>
        let jx : Fin 8 := ⟨2 * (j.val / 2), by omega⟩
        let jy : Fin 8 := ⟨2 * (j.val / 2) + 1, by omega⟩
        let r := quadCorrect s.quad[q] (s.chans[chanOf k jx]).tap (s.chans[chanOf k jy]).tap
          (clamp (-valueLimit) valueLimit (convs[jx]).value) (clamp (-valueLimit) valueLimit (convs[jy]).value)
        if j = jx then r.1 else r.2.getD (Config.freeWord s.free).toInt
    sampleWord value (flags[j] ||| whenF (decide (valueLimit ≤ value ∨ value ≤ -valueLimit)) flagOvr)

end Sys2Proof.Machine
end

