-- ==== Sys2Proof/Machine/Datapath.lean ====
section
/-! DEFINITION. The data path of a channel from the modulator's samples to the value of a word: the modulator's word and the
gain compensation, blanked and replaced samples, the CIC and its normaliser, the half-bands and the final FIR in both growth
modes, and the burst engine (R106, R108, R110, R111, R116, R134, R136, R144, R145, R154, R168, R178, R181, R182; log entry 212). -/

namespace Sys2Proof.Machine

/-! Samples (R106, R110, R111, R116, R120, R154). Voltages count in units of 2.5 V / 2^46. -/

/-- V_REF of a sample: the sensed excitation of a ratiometric channel, the band-gap's 2.5 V otherwise (R106, R116). -/
def State.vref (s : State) (c : Chan) (x : ModSample) : Nat := if s.ratiometric c then max 1 x.sense.toNat else 2 ^ 46

/-- The trim in force: a pair member's share of its offset, or that of the range in force (R154, R282). -/
def State.trimOf (s : State) (c : Chan) : BitVec 10 :=
  match s.slotOf c with
  | some q => if c.val % 2 = 0 then (s.quad[q]).trimX else (s.quad[q]).trimY
  | none => (s.chans[c]).coef.trim

/-- The differential input as the amplifier sees it: a trim tap adds 2.5 V / 131,072 (R154). -/
def trimmed (trim : BitVec 10) (x : ModSample) : Int := x.volts + trim.toInt * 2 ^ 29

/-- The modulator's word at the gain of a range: the range's full scale is 2^46 (R104, R106). -/
def modWord (range : BitVec 3) (trim : BitVec 10) (vref : Nat) (x : ModSample) : Int :=
  roundDiv (trimmed trim x * 4 ^ range.toNat * 2 ^ 46) vref

/-- The gain compensation: a shift by 2 bits per range step, after which SCALE_RANGE's full scale is 2^54 at every range (R110). -/
def compensate (scale range : BitVec 3) (w : Int) : Int := w * 4 ^ (4 + scale.toNat - range.toNat)

/-- The input exceeds the range in force by more than 2 %, which fires the overload detector (R108). -/
def overloads (range : BitVec 3) (trim : BitVec 10) (vref : Nat) (x : ModSample) : Bool :=
  decide (51 * vref < 50 * (trimmed trim x).natAbs * 4 ^ range.toNat)

/-- The sensed voltage is below 0.9 V (R120). -/
def senseLow (x : ModSample) : Bool := decide (25 * x.sense < 9 * 2 ^ 46)

/-- Range and trim at a tick: those before the first later switch, otherwise those in force (R109, R155). -/
def State.rangeAt (s : State) (c : Chan) (tk : Nat) : BitVec 3 × BitVec 10 :=
  match (s.chans[c]).dsp.switches.find? fun w => decide (tk < w.1) with
  | some w => w.2
  | none => ((s.chans[c]).range, s.trimOf c)

/-- The sample at a tick is blanked after a range switch (R111). -/
def Channel.blankedAt (x : Channel) (tk : Nat) : Bool := x.dsp.switches.any fun w => decide (w.1 ≤ tk ∧ tk < w.1 + 40)

/-- The sample at a tick is replaced after an instability: the 16 samples of the run and the 32 of the recovery (R134). -/
def Channel.replacedAt (x : Channel) (md tk : Nat) : Bool :=
  match x.replacedTk with
  | some e => decide (e < tk + 48 * md ∧ tk ≤ e)
  | none => false

/-- The last of an event's ticks. -/
def noteTk (p : Bool) (tk : Nat) (was : Option Nat) : Option Nat := if p then some tk else was

/-- One modulator sample of a channel: what enters the CIC for it, and what it leaves behind. A blanked or replaced one gives way
to the last sample before it, and the detector is masked while blanking (R108, R110, R111, R134). -/
def takeSample (s : State) (c : Chan) (md : Nat) (d : Dsp) (tk : Nat) (x : ModSample) : Dsp × Int :=
  let ch := s.chans[c]
  let r := s.rangeAt c tk
  let v := s.vref c x
  let blank := ch.blankedAt tk
  let held := blank || ch.replacedAt md tk
  let y := if held then d.hold else compensate ch.scale r.1 (modWord r.1 r.2 v x)
  ({ d with hold := y, heldTk := noteTk held tk d.heldTk, lowTk := noteTk (senseLow x) tk d.lowTk
            ovlTk := noteTk (overloads r.1 r.2 v x && !blank) tk d.ovlTk }, y)

/-! The CIC (R144, R168, R181). The registers wrap in 64 bits and lose nothing by it, so integers stand for them. -/

/-- One sample through the integrators. -/
def integrate : Int → List Int → List Int
  | _, [] => []
  | y, a :: t => (a + y) :: integrate (a + y) t

/-- One output through the combs: the result and the new delays. -/
def comb : Int → List Int → Int × List Int
  | v, [] => (v, [])
  | v, d :: t => let r := comb (v - d) t; (r.1, v :: r.2)

/-- The registers of a CIC of an order; those of another order start again from zero (R184). -/
def registers (order : Nat) (l : List Int) : List Int := if l.length = order then l else List.replicate order 0

/-- The samples of one decimation period into the integrators. A sample before the last start event counts as zero (R178). -/
def takeSamples (s : State) (c : Chan) (md from_ : Nat) : Nat → List ModSample → Dsp → Dsp
  | _, [], d => d
  | tk, x :: t, d =>
    let r := takeSample s c md d tk x
    takeSamples s c md from_ (tk + md) t { r.1 with integ := integrate (if tk < from_ then 0 else r.2) r.1.integ }

/-- The normalised output of the CIC: its gain R^N divided out, SCALE_RANGE's full scale at 2^46 (R168, R181). -/
def normalise (x : Shape) (v : Int) : Int := roundDiv v (x.cicR ^ x.order * 2 ^ 8)

/-- A raw result: full scale 2^30, saturating (R144). -/
def rawOf (n : Int) : Int := clamp (-(2 ^ 31 - 1)) (2 ^ 31 - 1) (roundDiv n (2 ^ 16))

/-! Half-bands and FIR (R168, R178, R181, R182). -/

/-- A stage behind the CIC: its coefficients, the period of its outputs in ticks, and its shift. -/
structure Stage where
  coefs  : List Int
  period : Nat
  shift  : Nat
  deriving DecidableEq, Repr

/-- One output of a stage, rounded by the coefficient scale (R181). -/
def firOut (coefs hist : List Int) : Int := roundDiv ((List.zipWith (· * ·) coefs hist).sum) (2 ^ 22)

/-- A value after a stage of SHIFT: shifted right and rounded, saturated to 32 bits, and whether it was (R182). -/
def shiftStage (n : Nat) (v : Int) : Int × Bool :=
  let w := roundDiv v (2 ^ n)
  let h := clamp (-(2 ^ 31)) (2 ^ 31 - 1) w
  (h, h != w)

/-- The output of a stage in either growth mode (R181, R182). -/
def stageOut (shifted : Bool) (n : Nat) (v : Int) : Int × Bool := if shifted then shiftStage n v else (v, false)

/-- An input through the stages behind the CIC: the histories after it, the chain's output where one falls on this tick, and whether
a stage saturated. A stage puts out at every `period`-th tick counted from the tick `phase` of a word's last sample. -/
def runStages (shifted : Bool) (phase : Int) : List Stage → List (List Int) → Int → List (List Int) × Option Int × Bool
  | [], _, x => ([], some x, false)
  | g :: gs, hs, x =>
    let h := (x :: hs.headD []).take g.coefs.length
    if phase % g.period = 0 then
      let y := stageOut shifted g.shift (firOut g.coefs h)
      let r := runStages shifted phase gs hs.tail y.1
      (h :: r.1, r.2.1, y.2 || r.2.2)
    else (h :: hs.tail, none, false)

/-- A coefficient as the integer it is in units of 2^-22. -/
def State.stageCoefs (s : State) (k : SettId) (pass taps : Nat) : List Int :=
  (List.range taps).map fun i => (coefAt s k pass i).toInt

/-- The shift of a stage of FLT_GROWTH (R194). -/
def shiftOf (w : Word) (stage : Nat) : Nat := bits w (5 * stage + 4) (5 * stage)

/-- The stages behind the CIC of the structure in force (R168, R170, R171, R184). -/
def State.stages (s : State) (k : SettId) : List Stage :=
  let x := s.shape k
  let md := s.modTicks k
  let sh := fun (n : Nat) => shiftOf (s.chains[k]).shifts n
  [{ coefs := s.stageCoefs k 2 11, period := 2 * x.cicR * md, shift := sh 1 }] ++
  (if x.hb2 then [{ coefs := s.stageCoefs k 3 19, period := 4 * x.cicR * md, shift := sh 2 }] else []) ++
  [{ coefs := s.stageCoefs k 0 x.tapsA, period := x.perA * x.decA * md, shift := sh 3 }] ++
  (if x.tapsB = 0 then [] else [{ coefs := s.stageCoefs k 1 x.tapsB, period := x.perB * x.decB * md, shift := sh 4 }])

/-- The normalised result of a tick through the stages (R168, R181, R182). -/
def chainStep (s : State) (k : SettId) (tk : Nat) (n : Int) (d : Dsp) : Dsp :=
  let c := s.chains[k]
  let x := if c.shift then shiftStage (shiftOf c.shifts 0) (rawOf n) else (n, false)
  let r := runStages c.shift ((tk : Int) - s.delayNs k / 50) (s.stages k) d.hist x.1
  { d with hist := r.1, out := r.2.1.getD d.out, satTk := noteTk (x.2 || r.2.2) tk d.satTk }

/-- The chain's output in codes, before any limit (R106, R181, R182). -/
def State.chainValue (s : State) (k : SettId) (d : Dsp) : Int :=
  let c := s.chains[k]
  if c.shift then roundDiv (d.out * 2 ^ ((List.range 5).map (shiftOf c.shifts)).sum) (2 ^ 7) else roundDiv d.out (2 ^ 23)

/-! Raw results and words. -/

/-- The sett's chain runs behind the CIC: it converts continuously (R135). -/
def State.chainRuns (s : State) (k : SettId) : Bool := (s.setts[k]).run && !(s.setts[k]).burstMode

/-- The tick of a channel's next raw result. While the chain runs it lies on the grid of the words' last samples, one decimation
period after the one before and not before the start (R168, R175, R178); otherwise it is now. -/
def State.rawTick (s : State) (c : Chan) : Nat :=
  let k := settOf c
  let per := (s.rawShape k).cicR * s.modTicks k
  if s.chainRuns k then
    let from_ := max (s.chains[k]).startTk (((s.chans[c]).dsp.rawTk.map (· + 1)).getD 0)
    let d := s.delayNs k / 50
    from_ + (((d : Int) - from_) % per).toNat
  else s.tkN

/-- One decimation period of samples enters a channel's chain, the last of them at a tick: the raw result and the state of the data
path after it (R110, R111, R134, R144, R145, R168). -/
def feedChain (s : State) (c : Chan) (tk : Nat) (xs : List ModSample) : Dsp × Int :=
  let k := settOf c
  let x := s.rawShape k
  let md := s.modTicks k
  let from_ := if s.chainRuns k then (s.chains[k]).startTk else 0
  let d0 := (s.chans[c]).dsp
  let d1 := takeSamples s c md from_ (tk + md - xs.length * md) xs { d0 with integ := registers x.order d0.integ }
  let r := comb (d1.integ.getLastD 0) (registers x.order d1.combs)
  let n := normalise x r.1
  let raw := rawOf n
  let d2 : Dsp := { d1 with combs := r.2, rawTk := some tk, rawOvrTk := noteTk (decide (2 ^ 30 ≤ raw ∨ raw ≤ -2 ^ 30)) tk d1.rawOvrTk
                            switches := d1.switches.filter fun w => decide (tk < w.1 + 40) }
  (if s.chainRuns k then chainStep s k tk n d2 else d2, raw)

/-- The CIC window of a raw result holds a blanked or replaced sample (R149). -/
def State.rawHeld (s : State) (c : Chan) (tk : Nat) (d : Dsp) : Bool :=
  let x := s.rawShape (settOf c)
  since d.heldTk ((tk : Int) - (x.order * (x.cicR - 1) + 1) * s.modTicks (settOf c))

/-- What the chains of a sett deliver for the word whose last modulator sample falls at a tick: the values, and the conditions found
in its flag window; `beyond` has the channels whose modulator reported an over-range there (R108, R120, R145, R179, R182). -/
def State.chainConvs (s : State) (k : SettId) (beyond : Byte) (last : Nat) : Vector Conv 8 :=
  let win : Int := (last : Int) - s.settle k * s.period k
  Vector.ofFn fun j =>
    let d := (s.chans[chanOf k j]).dsp
    { value := s.chainValue k d, ovl := beyond.getLsbD j.val || since d.ovlTk win, rawOvr := since d.rawOvrTk win, sat := since d.satTk win
      lowSense := since d.lowTk win }

/-! The burst engine (R136, R138, R150). -/

/-- The weight of a group of a burst: fixed, and symmetric about the centre (R136; log entry 212). -/
def burstWeight (len groups g : Nat) : Nat := Config.burstWeight len (min g (groups - 1 - g)) + 1

/-- The sums of consecutive groups of 32 samples (R136). -/
def groupSums (groups : Nat) (ys : List Int) : List Int := (List.range groups).map fun g => ((ys.drop (32 * g)).take 32).sum

/-- The value of a burst's compensated samples in codes, before any limit (R106, R136). -/
def burstValue (len : Nat) (ys : List Int) : Int :=
  let n := 8 * 4 ^ len
  let ws := (List.range n).map (burstWeight len n)
  roundDiv ((List.zipWith (fun (w : Nat) (y : Int) => w * y) ws (groupSums n ys)).sum) (32 * ws.sum * 2 ^ 31)

/-- What a burst or an injection slot of a channel delivers from its samples, taken with one range (R136, R138, R145, R150). -/
def State.burstConv (s : State) (c : Chan) (len : Nat) (range : BitVec 3) (startTk : Nat) (i : BurstInput) : Conv :=
  let t := s.trimOf c
  { value := burstValue len (i.samples.map fun x => compensate (s.chans[c]).scale range (modWord range t (s.vref c x) x))
    ovl := i.beyond || i.samples.any fun x => overloads range t (s.vref c x) x
    rawOvr := since (s.chans[c]).dsp.rawOvrTk ((startTk : Int) - 1), sat := false, lowSense := i.samples.any senseLow }

/-- The history of a channel's data path is cleared at a start event (R178). -/
def clearDsp (x : Channel) : Channel :=
  { x with dsp := { Dsp.reset with hold := x.dsp.hold, switches := x.dsp.switches } }

end Sys2Proof.Machine
end

