-- ==== Sys2Proof/Machine/Lanes.lean ====
section
/-! DEFINITION. The serial lanes: states, retrains, adaptation and its clamp, sleep, PRBS, margin scans, and their
commands (R375 to R404). -/

namespace Sys2Proof.Machine

/-! The links that lanes carry (R409 to R412). -/

/-- A class of a link that is no longer up: sequences start again and credits are gone (R409, R412). -/
def resetClass (c : PortClass) : PortClass :=
  { c with txSeq := 0, rxSeq := 0, credits := 0, initRx := false, unacked := [], replays := 0, nakAt := none }

/-- The link of a port goes down: unacknowledged frames are discarded and counted (R410, R411). -/
def linkDown (p : Port) (s : State) : State :=
  let n := ((s.port p).classes.toList.map fun c => c.unacked.length).sum
  let was := s.linkUp p
  s.modPort p fun q =>
    { q with classes := q.classes.map resetClass, initTx := false
             linkDownDrop := satAdd q.linkDownDrop n
             linkDowns := if was then satInc q.linkDowns else q.linkDowns }

/-- The INIT grants of a port, one for every class: its reservation less what it still holds (R412). -/
def sendInits (p : Port) (s : State) : State :=
  forEach (List.finRange 6) (fun s c =>
    sendLinkCtl p (linkCtlBlock c.val false true 0 ((classReserve c - (s.port p).classes[c].held) / 256)) s)
    (s.modPort p fun q => { q with initTx := true, classes := q.classes.map resetClass })

/-- TERM_t names a remote source: its hub (R299). -/
def remoteHub (t : Word64) : Option (BitVec 10) :=
  let src := t.toNat % 8
  if src = 5 ∨ src = 6 then some (t.extractLsb' 12 10) else none

/-- The hubs that SAFETY-class traffic of the commissioned block goes to and comes from: its connection partners, the
sources of its projections' remote terms, and the hubs this one serves SAFETY feeds to (R304, R494; log entry 36). -/
def State.safetyHubs (s : State) : List (BitVec 10) :=
  match s.owl.block with
  | none => []
  | some b =>
    b.conns.map (·.partner) ++ b.prjs.flatMap (fun p => p.2.terms.filterMap remoteHub) ++
      (s.red.served.filter (·.safety)).map (·.hub)

/-- The ports that carry SAFETY traffic: those the routes of these hubs name (R27, R399, R414; log entry 36). -/
def State.safetyPorts (s : State) : List Port :=
  s.safetyHubs.flatMap fun h => let r := s.fab.routes[h.toFin]; [r.1, r.2].filterMap routePort

/-! Lane states. -/

def rxCode : RxState → Nat
  | .off => 0 | .pll => 1 | .acquire => 2 | .locking => 3 | .up => 4 | .hiBer => 5 | .quiet => 6 | .test => 7

def txCode : TxState → Nat
  | .off => 0 | .on => 1 | .quiet => 2 | .prbs => 3

/-- The lane PLL of a port: its group and rate (R376). -/
def pllIndex (group : Nat) (rate : Bool) : Fin 4 := ⟨(2 * group + b2n rate) % 4, Nat.mod_lt _ (by decide)⟩

def lanePll (p : Port) (l : Lane) : Fin 4 := pllIndex (p.val / 16) l.rate

/-- LANE_MARGIN's opcode, for the reply of a scan. -/
def laneMarginCode : Nat := 0x0B03

/-- A scan in progress is aborted and its reply says so (R398). -/
def abortScan (p : Port) (s : State) : State :=
  match (s.lane p).scan with
  | none => s
  | some (_, _, r) =>
    answerLater laneMarginCode r stOk [w32 (2 ^ 16), 0] (s.modLane p fun l => { l with scan := none })

/-- What a lane sends once its PLL is locked: blocks, or its PRBS pattern (R382, R393). -/
def txRunning (l : Lane) : TxState := if l.prbs.getLsbD 0 then .prbs else .on

/-- Where a receiver stands once its PLL is locked: a checker or a loopback holds it in TEST (R382). -/
def rxRunning (l : Lane) : RxState := if l.prbs.getLsbD 4 || l.loopback then .test else .acquire

/-- An enabled lane comes up: it waits for its PLL, or goes on at once when that is locked (R376, R382, R383). -/
def laneStart (p : Port) (s : State) : State :=
  let locked := s.lanes.pll[lanePll p (s.lane p)]
  s.modLane p fun l =>
    let from_ := { l with idleRun := 0, rxNow := l.snapshot.getD l.rxNow }
    if locked then { from_ with rx := rxRunning l, tx := txRunning l } else { from_ with rx := .pll, tx := .off }

/-- A lane goes to OFF; its snapshot stays (R382, R399). -/
def laneStop (p : Port) (s : State) : State :=
  (linkDown p (abortScan p s)).modLane p fun l =>
    { l with rx := .off, tx := .off, signal := false, clamped := false, idleRun := 0, wake := .none, rxWakeAt := none
             txQuiet := false, rxQuiet := false, rxqByPeer := false, retraining := false }

/-- The TRANSIENT event of a retrain: the spec gives a port no LEVEL and INDEX, so UNIT is free (R554; log entry 2). -/
def retrainEvent (s : State) : State :=
  let r := s.drawWord
  raiseTransient r.2 (bits r.1 10 0) 6 0

/-- A retrain: the receiver returns to ACQUIRE from the snapshot, unclamped; one that is off or waits for its PLL stays there
(R382, R383, R388). -/
def retrain (p : Port) (s : State) : State :=
  if (s.lane p).rx == .off || (s.lane p).rx == .pll then linkDown p (abortScan p s)
  else
    (retrainEvent (linkDown p (abortScan p s))).modLane p fun l =>
      { l with rx := .acquire, retrains := satInc l.retrains, clamped := false, idleRun := 0, retraining := true
               rxWakeAt := none, rxQuiet := false, rxqByPeer := false, rxNow := l.snapshot.getD l.rxNow }

/-- Enabled lanes that are off come up, where the mode has their domain on (R26, R399). -/
def lanesStart (s : State) : State :=
  forEach allPorts (fun s p =>
    let l := s.lane p
    if l.enable && l.rx == .off then laneStart p s else s) s

/-- A lane PLL is powered: a port of its group is configured at its rate, in Safe-Core one whose lane is on (R26, R83). -/
def State.pllPowered (s : State) (i : Fin 4) : Bool :=
  allPorts.any fun p =>
    (s.lane p).enable && lanePll p (s.lane p) == i && (s.sup.mode != .safeCore || (s.lane p).rx != .off)

/-- A lane PLL that no port needs any more goes off (R83). -/
def trimPlls (s : State) : State := { s with lanes := { s.lanes with pll := vmapI s.lanes.pll fun i on => on && s.pllPowered i } }

/-- Entry to Safe-Core: scans are aborted, every lane that carries no SAFETY traffic goes to OFF, and the PLLs of those alone go
off (R83, R398, R399). -/
def lanesEnterSafe (s : State) : State :=
  trimPlls (forEach allPorts (fun s p =>
    let s1 := abortScan p s
    if s.safetyPorts.contains p then s1 else laneStop p s1) s)

/-- End of Test: generators, checkers, loopbacks and injections stop, and each lane concerned retrains (R396). -/
def lanesLeaveTest (s : State) : State :=
  forEach allPorts (fun s p =>
    let l := s.lane p
    let s1 := s.modLane p fun l =>
      { l with inj := none, prbs := l.prbs &&& 0x6E, prbsLocked := false, settings := l.settings &&& 0x7F }
    if l.testUse || l.inj.isSome then
      retrain p (s1.modLane p fun l => { l with tx := if l.tx == .off then .off else .on })
    else s1) s

/-! LANE_CONFIG. -/

/-- Reply words of LANE_CONFIG (R400). -/
def laneConfigWords (l : Lane) : List Word :=
  [w32 (fld 6 8 l.settings.toNat + fld 16 3 (rxCode l.rx) + fld 19 2 (txCode l.tx) + flag 21 (l.rx == .hiBer) +
     flag 22 l.signal + flag 23 l.clamped), l.invalidHdr, l.lockLosses, l.retrains, l.losCount]

/-- Taps that follow a change of RATE: those still at the old rate's reset values take the new rate's (R384; log
entry 33). -/
def ratedTaps (old new : Bool) (l : Lane) : Lane :=
  if old != new && l.tapsT == TxTaps.reset old then { l with tapsNow := TxTaps.reset new, tapsT := TxTaps.reset new } else l

/-- New settings take effect: an enabled lane goes to OFF and comes up again (R83, R383). -/
def applyLane (p : Port) (new : Byte) (s : State) : State :=
  let s1 := trimPlls ((laneStop p s).modLane p fun l => ratedTaps l.rate (new.getLsbD 1) { l with settings := new })
  if new.getLsbD 0 then laneStart p s1 else s1

def laneConfigBody (_ : Ctx) (ws : List Word) (s : State) : Res :=
  let w := pw ws 0
  let p : Port := ⟨bits w 4 0, Nat.mod_lt _ (by decide)⟩
  let new : Byte := w.extractLsb' 6 8
  let fec := bits w 10 9
  let group : Fin 2 := ⟨p.val / 16, by have := p.isLt; omega⟩
  if !resv w 31 14 || !s.lanes.refPresent[group] then refuse stBadParam s
  else if !bit w 5 then .done stOk (laneConfigWords (s.lane p)) s
  else if (bit w 8 && decide (8 ≤ p.val)) || fec == 3 || (fec != 0 && !bit w 8) || (fec == 2 && !bit w 7) then
    refuse stBadParam s
  else if new != (s.lane p).settings && s.sup.mode != .test && s.safetyPorts.contains p then refuse stSafeLocked s
  else
    let s1 := if new = (s.lane p).settings then s else applyLane p new s
    .done stOk (laneConfigWords (s1.lane p)) s1

/-- Writes are refused in Safe-Core, and LOOPBACK outside Test (R396, R399, R400). -/
def laneConfigMode (ws : List Word) (s : State) : Nat :=
  let w := pw ws 0
  modeField (resv w 31 14) (!bit w 5 || (s.sup.mode != .safeCore && (!bit w 13 || s.sup.mode == .test)))

def laneConfigSpec : CmdSpec :=
  { code := 0x0B00, access := fun c ws _ => if bit (pw ws 0) 5 then accEng c else accAny c, mode := laneConfigMode,
    length := fun ws => ws.length == 1, body := laneConfigBody }

def execLaneConfig (p : Packet) (s : State) : Out := serve laneConfigSpec p s

/-! LANE_EQ. -/

/-- Receiver values as LANE_EQ words 2 and 3 (R401). -/
def rxWords (c : RxCoef) : List Word :=
  [w32 (fld 0 4 c.ctle.toNat + fld 4 7 c.tap1.toNat + fld 11 6 c.tap2.toNat + fld 17 6 c.tap3.toNat + fld 23 6 c.tap4.toNat),
   w32 c.tap5.toNat]

/-- SNAPSHOT: without one the spec states no value, so it is free (R383, R401; log entry 2). -/
def snapshotWords (l : Lane) (s : State) : List Word × State :=
  match l.snapshot with
  | some c => (rxWords c, s)
  | none =>
    let a := s.drawWord
    let b := a.2.drawWord
    ([a.1, b.1], b.2)

def laneEqReply (p : Port) (s : State) : Res :=
  let l := s.lane p
  let n := snapshotWords l s
  .done stOk (w32 (tapsWord l.tapsNow + flag 15 (l.tapsNow == l.tapsT) + flag 16 l.clamped + flag 17 l.snapQualified +
    flag 18 l.adaptCtle + flag 19 l.adaptDfe) :: (rxWords l.rxNow ++ n.1 ++ [l.clampHits])) n.2

/-- The conditions of R384. -/
def tapsOk (t : TxTaps) : Bool :=
  decide (t.pre.toNat + t.main.toNat + t.post.toNat ≤ 63) && decide (t.pre.toNat + t.post.toNat + 16 ≤ t.main.toNat)

/-- WRITE_RX: the adaptation bits, and the values of the blocks whose adaptation is then off (R401). -/
def writeRx (w0 w2 w3 : Word) (l : Lane) : Lane :=
  let c := if bit w0 7 then l.rxNow else { l.rxNow with ctle := w2.extractLsb' 0 4 }
  let d := if bit w0 8 then c else
    { c with tap1 := w2.extractLsb' 4 7, tap2 := w2.extractLsb' 11 6, tap3 := w2.extractLsb' 17 6, tap4 := w2.extractLsb' 23 6,
             tap5 := w3.extractLsb' 0 6 }
  { l with adaptCtle := bit w0 7, adaptDfe := bit w0 8, rxNow := d }

def laneEqBody (_ : Ctx) (ws : List Word) (s : State) : Res :=
  let w0 := pw ws 0
  let w1 := pw ws 1
  let p : Port := ⟨bits w0 4 0, Nat.mod_lt _ (by decide)⟩
  let taps : TxTaps := { pre := w1.extractLsb' 0 4, main := w1.extractLsb' 4 6, post := w1.extractLsb' 10 5 }
  if !resv w0 31 9 || !resv w1 31 15 || !resv (pw ws 2) 31 29 || !resv (pw ws 3) 31 6 || (bit w0 5 && !tapsOk taps) then
    refuse stBadParam s
  else
    let s1 := if bit w0 5 then s.modLane p fun l => { l with tapsT := taps, tapAt := s.lcN } else s
    laneEqReply p (if bit w0 6 then s1.modLane p (writeRx w0 (pw ws 2) (pw ws 3)) else s1)

def laneEqSpec : CmdSpec :=
  { code := 0x0B01, access := fun c ws _ => if bit (pw ws 0) 5 || bit (pw ws 0) 6 then accEng c else accAny c,
    mode := fun ws s => modeField (resv (pw ws 0) 31 9) (!(bit (pw ws 0) 5 || bit (pw ws 0) 6) || s.sup.mode != .safeCore),
    length := fun ws => ws.length == 4, body := laneEqBody }

def execLaneEq (p : Packet) (s : State) : Out := serve laneEqSpec p s

/-! LANE_PRBS. -/

/-- Bits compared since the last accounting: elapsed time at the line rate of R375 (R394; log entry 35). -/
def Lane.newBits (l : Lane) (lc : Nat) : Nat :=
  if l.prbsLocked then (lc - l.prbsAt) * (if l.rate then 1650 else 660) / 64 else 0

/-- The checker's bit count brought up to now. -/
def accountBits (lc : Nat) (l : Lane) : Lane :=
  { l with bits := l.bits + BitVec.ofNat 64 (l.newBits lc), prbsAt := lc }

def lanePrbsWords (l : Lane) : List Word :=
  [w32 (flag 0 l.prbsLocked + flag 1 (satOf l.errBits) + flag 2 l.inj.isSome + fld 3 8 l.injDone.toNat), l.errBits] ++
  words64 l.bits.toNat ++ [l.syncLosses]

/-- The generator and checker take new settings (R382, R396): test use that ends makes the lane retrain. -/
def applyPrbs (p : Port) (new : BitVec 7) (s : State) : State :=
  let was := (s.lane p).testUse
  let s1 := (if was then s else if new.getLsbD 0 || new.getLsbD 4 then linkDown p s else s).modLane p fun l =>
    { l with prbs := new, prbsLocked := l.prbsLocked && new.getLsbD 4 && l.prbs.extractLsb' 5 2 == new.extractLsb' 5 2 }
  let on := (s1.lane p).tx != .off
  let s2 := s1.modLane p fun l =>
    { l with tx := if on then txRunning l else .off
             rx := if on && (l.prbs.getLsbD 4 || l.loopback) then .test else l.rx }
  let ends := (s2.lane p).rx == .test && !(s2.lane p).prbs.getLsbD 4 && !(s2.lane p).loopback
  if was && (ends || !(s2.lane p).testUse) then retrain p s2 else s2

/-- The injection of word 1 (R395, R402). -/
def startInjection (w : Word) (l : Lane) : Lane :=
  { l with injDone := 0, inj := some { line := bit w 1, burst := bits w 7 2 + 1, left := bits w 15 8, interval := bits w 21 16 } }

def lanePrbsBody (_ : Ctx) (ws : List Word) (s : State) : Res :=
  let w0 := pw ws 0
  let w1 := pw ws 1
  let p : Port := ⟨bits w0 4 0, Nat.mod_lt _ (by decide)⟩
  if !resv w0 31 14 || !resv w1 31 22 || (!bit w1 0 && w1 != 0) ||
      (bit w1 0 && (bits w1 15 8 == 0 || decide (bits w1 21 16 < 10) || decide (40 < bits w1 21 16) || (bit w1 1 && s.isEth p)))
    then refuse stBadParam s
  else
    let s1 := if bit w0 5 then applyPrbs p (w0.extractLsb' 6 7) s else s
    let s2 := if bit w0 5 && bit w1 0 then s1.modLane p (startInjection w1) else s1
    let s3 := s2.modLane p (accountBits s2.lcN)
    .done stOk (lanePrbsWords (s3.lane p)) (if bit w0 13 then s3.modLane p clearPrbs else s3)

def lanePrbsSpec : CmdSpec :=
  { code := 0x0B02,
    access := fun c ws _ => if bit (pw ws 0) 5 then accEng c else if bit (pw ws 0) 13 then accOp c else accAny c,
    mode := fun ws s => modeField (resv (pw ws 0) 31 14) (!bit (pw ws 0) 5 || s.sup.mode == .test),
    length := fun ws => ws.length == 2, body := lanePrbsBody }

def execLanePrbs (p : Packet) (s : State) : Out := serve lanePrbsSpec p s

/-! LANE_MARGIN. -/

/-- Length of a run of open points from the start of a list. -/
def openRun : List Bool → Nat
  | true :: t => openRun t + 1
  | _ => 0

/-- The run of open points that contains the centre of 2 n + 1 points: how many lie before the centre, how many after, none
when the centre is closed (R397). -/
def centreRun (n : Nat) (pts : List Bool) : Option (Nat × Nat) :=
  if pts.getD n false then some (openRun (pts.take n).reverse, openRun (pts.drop (n + 1))) else none

/-- Width of a run in points. -/
def runWidth (r : Option (Nat × Nat)) : Nat := match r with
  | some (a, b) => a + b + 1
  | none => 0

/-- EYE_W in 1/64 UI and EYE_H in mV (R397). -/
def eyeOf (e : EyeScan) : Nat × Nat := (runWidth (centreRun 32 e.horizontal), 4 * runWidth (centreRun 63 e.vertical))

/-- Offset of the middle of a run, rounded down (R403; log entry 33); without a run it is free (log entry 2). -/
def runMiddle (r : Option (Nat × Nat)) (s : State) : Nat × State :=
  match r with
  | some (a, b) => (lowBits 8 (((b : Int) - a) / 2), s)
  | none => ((s.drawWord).1.toNat % 256, (s.drawWord).2)

/-- LANE_MARGIN (R398, R403). -/
def laneMarginBody (c : Ctx) (ws : List Word) (s : State) : Res :=
  let w := pw ws 0
  let p : Port := ⟨bits w 4 0, Nat.mod_lt _ (by decide)⟩
  let d := bits w 10 5
  if !resv w 31 11 || decide (d < 20) || decide (32 < d) then refuse stBadParam s
  else if (s.lane p).scan.isSome then refuse stBusy s
  else .deferred (s.modLane p fun l => { l with scan := some (d, s.lcN, c.replyTo s) })

def laneMarginMode (ws : List Word) (s : State) : Nat :=
  let w := pw ws 0
  let rx := (s.lane ⟨bits w 4 0, Nat.mod_lt _ (by decide)⟩).rx
  modeField (resv w 31 11) (s.sup.mode != .safeCore && (rx == .up || rx == .test))

def laneMarginSpec : CmdSpec :=
  { code := laneMarginCode, access := fun c _ _ => accEng c, mode := laneMarginMode, length := fun ws => ws.length == 1,
    body := laneMarginBody }

def execLaneMargin (p : Packet) (s : State) : Out := serve laneMarginSpec p s

/-- LANE_MARGIN_DONE: the scan has compared 2^DWELL_LOG2 bits at each of its 192 points (R397, R403). -/
def execLaneMarginDone (port : Port) (scan : EyeScan) (s : State) : Out :=
  .next <|
    match (s.lane port).scan with
    | none => s
    | some (d, t, r) =>
      let s1 := atLc (t + 192 * 2 ^ d * 64 / (if (s.lane port).rate then 1650 else 660)) s
      let e := eyeOf scan
      let x := runMiddle (centreRun 32 scan.horizontal) s1
      let y := runMiddle (centreRun 63 scan.vertical) x.2
      answerLater laneMarginCode r stOk [w32 (fld 0 7 e.1 + fld 7 9 e.2), w32 (fld 0 8 x.1 + fld 8 8 y.1)]
        (y.2.modLane port fun l => { l with scan := none })

/-! LANE_SLEEP. -/

def laneSleepWords (l : Lane) : List Word :=
  [w32 (flag 6 l.txQuiet + flag 7 l.rxQuiet + flag 8 l.autoWake + fld 9 7 l.wakeUs.toNat + fld 16 3 (rxCode l.rx) +
     fld 19 2 (txCode l.tx) + flag 21 l.rxqByPeer), l.wakes]

/-- The receiver enters RX_QUIET: adaptation freezes, the snapshot stays, a scan is aborted (R388, R390, R398). -/
def enterRxQuiet (byPeer : Bool) (p : Port) (s : State) : State :=
  (abortScan p s).modLane p fun l => { l with rx := .quiet, rxQuiet := !byPeer, rxqByPeer := byPeer }

/-- A sleeping receiver restores its snapshot and searches for block lock (R391). -/
def wakeRx (lc : Nat) (l : Lane) : Lane :=
  { l with rx := .locking, rxQuiet := false, rxqByPeer := false, rxWakeAt := some lc, rxNow := l.snapshot.getD l.rxNow }

/-- LANE_SLEEP (R389 to R392): what newly sleeps is refused in the cases of R392 (log entry 33). -/
def laneSleepBody (_ : Ctx) (ws : List Word) (s : State) : Res :=
  let w := pw ws 0
  let p : Port := ⟨bits w 4 0, Nat.mod_lt _ (by decide)⟩
  let l := s.lane p
  let tx := bit w 6 && !l.txQuiet
  let rx := bit w 7 && !l.rxQuiet
  let us := bits w 15 9
  if !resv w 31 16 then refuse stBadParam s
  else if !bit w 5 then .done stOk (laneSleepWords l) s
  else if us < 2 || 100 < us || ((tx || rx) && s.isEth p) then refuse stBadParam s
  else if (tx || rx) && s.time.cfg.timeEn[p] then refuse stBusy s
  else if (tx || rx) && s.sup.mode != .test && s.safetyPorts.contains p then refuse stSafeLocked s
  else if (tx && l.tx != .on) || (rx && l.rx != .up) then refuse stNotInMode s
  else
    let s1 := s.modLane p fun l => { l with autoWake := bit w 8, wakeUs := BitVec.ofNat 7 us }
    let s2 := if tx then s1.modLane p fun l => { l with txQuiet := true }
      else if !bit w 6 && l.txQuiet then startWake p s1 else s1
    let s3 := if rx then enterRxQuiet false p s2
      else if !bit w 7 && l.rxQuiet then s2.modLane p (wakeRx s2.lcN) else s2
    .done stOk (laneSleepWords (s3.lane p)) s3

def laneSleepSpec : CmdSpec :=
  { code := 0x0B04, access := fun c ws _ => if bit (pw ws 0) 5 then accEng c else accAny c,
    mode := fun ws s => modeField (resv (pw ws 0) 31 16) (!bit (pw ws 0) 5 || s.sup.mode != .safeCore),
    length := fun ws => ws.length == 1, body := laneSleepBody }

def execLaneSleep (p : Packet) (s : State) : Out := serve laneSleepSpec p s

/-! Events of the lanes. -/

/-- LANE_PLL_LOCK (R83, R376, R382). -/
def execLanePllLock (group : Fin 2) (rate : Bool) (s : State) : Out :=
  guardNext (s.lanes.refPresent[group] && s.served && s.pllPowered (pllIndex group.val rate)) s <|
    let s1 := { s with lanes := { s.lanes with pll := vset s.lanes.pll (pllIndex group.val rate) true } }
    forEach allPorts (fun s p =>
      let l := s.lane p
      if l.rx == .pll && p.val / 16 == group.val && l.rate == rate then
        s.modLane p fun l => { l with rx := rxRunning l, tx := txRunning l }
      else s) s1

/-- Receiver values after adaptation: a block whose adaptation is off holds its own (R385). -/
def adapted (l : Lane) (c : RxCoef) : RxCoef :=
  { ctle := if l.adaptCtle then c.ctle else l.rxNow.ctle
    tap1 := if l.adaptDfe then c.tap1 else l.rxNow.tap1
    tap2 := if l.adaptDfe then c.tap2 else l.rxNow.tap2
    tap3 := if l.adaptDfe then c.tap3 else l.rxNow.tap3
    tap4 := if l.adaptDfe then c.tap4 else l.rxNow.tap4
    tap5 := if l.adaptDfe then c.tap5 else l.rxNow.tap5 }

/-- LANE_ACQUIRE_DONE: the signal is there and adaptation has converged (R382). -/
def execLaneAcquireDone (port : Port) (coef : RxCoef) (s : State) : Out :=
  guardNext ((s.lane port).rx == .acquire) s <|
    s.modLane port fun l => { l with rx := .locking, signal := true, rxNow := adapted l coef }

/-- BLOCK_LOCK: the receiver goes UP, and in SWL mode the INIT grants are sent, unless the link never went down
(R379, R386, R388, R412). -/
def execBlockLock (port : Port) (s : State) : Out :=
  guardNext ((s.lane port).rx == .locking) s <|
    let woke := (s.lane port).rxWakeAt.isSome
    let s1 := s.modLane port fun l =>
      { l with rx := .up, idleRun := 0, rxWakeAt := none, retraining := false
               snapshot := if l.retraining then some l.rxNow else l.snapshot
               snapQualified := l.snapQualified && !l.retraining }
    if woke || s.isEth port then s1 else sendInits port s1

/-- BLOCK_LOCK_LOSS (R379, R382, R410). -/
def execBlockLockLoss (port : Port) (invalid : Nat) (s : State) : Out :=
  guardNext ((s.lane port).rx == .up || (s.lane port).rx == .hiBer) s <|
    (linkDown port s).modLane port fun l =>
      { l with rx := .locking, invalidHdr := satAdd l.invalidHdr invalid, lockLosses := satInc l.lockLosses }

/-- LOCKING_TIMEOUT (R382, R383). -/
def execLockingTimeout (port : Port) (s : State) : Out := guardNext ((s.lane port).rx == .locking) s (retrain port s)

/-- HI_BER (R379, R382). -/
def execHiBer (port : Port) (invalid : Nat) (s : State) : Out :=
  guardNext ((s.lane port).rx == .up) s <|
    (linkDown port s).modLane port fun l => { l with rx := .hiBer, invalidHdr := satAdd l.invalidHdr invalid }

/-- HI_BER_CLEAR (R379, R382). -/
def execHiBerClear (port : Port) (s : State) : Out :=
  guardNext ((s.lane port).rx == .hiBer) s <|
    let s1 := s.modLane port fun l => { l with rx := .up, idleRun := 0 }
    if s.isEth port then s1 else sendInits port s1

/-- LOSS_OF_SIGNAL (R382). -/
def execLossOfSignal (port : Port) (s : State) : Out :=
  guardNext ((s.lane port).rx == .up) s <|
    (linkDown port s).modLane port fun l => { l with rx := .acquire, signal := false, losCount := satInc l.losCount }

/-- A signed coefficient of n bits held within 2 of its snapshot and within its range (R387). -/
def clampTap {n : Nat} (snap c : BitVec n) : BitVec n :=
  BitVec.ofInt n (clamp (max (-(2 ^ (n - 1))) (snap.toInt - 2)) (min (2 ^ (n - 1) - 1) (snap.toInt + 2)) c.toInt)

/-- Receiver values held against the clamp limits (R387). -/
def clampCoef (snap c : RxCoef) : RxCoef :=
  { ctle := BitVec.ofNat 4 (clamp (max 0 ((snap.ctle.toNat : Int) - 2)) (min 15 ((snap.ctle.toNat : Int) + 2)) c.ctle.toNat).toNat
    tap1 := clampTap snap.tap1 c.tap1, tap2 := clampTap snap.tap2 c.tap2, tap3 := clampTap snap.tap3 c.tap3
    tap4 := clampTap snap.tap4 c.tap4, tap5 := clampTap snap.tap5 c.tap5 }

/-- A 1 ms interval of an UP receiver: adaptation, then the class of the interval (R386, R387). -/
def endInterval (dataBlocks invalid : Nat) (coef : RxCoef) (l : Lane) : Lane :=
  let want := adapted l coef
  let now := match l.clamped, l.snapshot with
    | true, some x => adapted l (clampCoef x want)
    | _, _ => want
  let l1 := { l with rxNow := now, invalidHdr := satAdd l.invalidHdr invalid
                     clampHits := if now = want then l.clampHits else satInc l.clampHits }
  if 256 ≤ dataBlocks ∧ invalid = 0 then
    { l1 with snapshot := some now, snapQualified := true, clamped := false, idleRun := 0 }
  else { l1 with idleRun := l.idleRun + 1, clamped := l.clamped || decide (10 ≤ l.idleRun + 1) }

/-- LANE_INTERVAL_END (R386, R387). -/
def execLaneIntervalEnd (port : Port) (dataBlocks invalid : Nat) (coef : RxCoef) (s : State) : Out :=
  guardNext ((s.lane port).rx == .up) s (s.modLane port (endInterval dataBlocks invalid coef))

/-- TX_QUIET_ENTRY: after the frame in progress and 16 QUIET blocks (R389). -/
def execTxQuietEntry (port : Port) (s : State) : Out :=
  guardNext ((s.lane port).txQuiet && (s.lane port).tx == .on) s (s.modLane port fun l => { l with tx := .quiet })

/-- RX_QUIET_ENTRY: four consecutive QUIET blocks, in SWL mode (R378, R389). -/
def execRxQuietEntry (port : Port) (s : State) : Out :=
  guardNext ((s.lane port).rx == .up && !s.isEth port) s (enterRxQuiet true port s)

/-- WAKE_PATTERN_END: the IDLE blocks begin (R391). -/
def execWakePatternEnd (port : Port) (s : State) : Out :=
  guardNext ((s.lane port).wake == .pattern) s (s.modLane port fun l => { l with wake := .idles })

/-- WAKE_IDLE_END: frames resume (R391). -/
def execWakeIdleEnd (port : Port) (s : State) : Out :=
  guardNext ((s.lane port).wake == .idles) s (s.modLane port fun l => { l with wake := .none })

/-- WAKE_DETECT: only a receiver put to sleep by its peer leaves RX_QUIET on the pattern (R390, R391). -/
def execWakeDetect (port : Port) (s : State) : Out :=
  guardNext ((s.lane port).rx == .quiet && (s.lane port).rxqByPeer) s (s.modLane port (wakeRx s.lcN))

/-- WAKE_TIMEOUT (R391). -/
def execWakeTimeout (port : Port) (s : State) : Out :=
  guardNext ((s.lane port).rxWakeAt.isSome && (s.lane port).rx != .up) s (retrain port s)

/-- One code towards a target. -/
def stepTap {n : Nat} (now tgt : BitVec n) : BitVec n :=
  if now.toNat < tgt.toNat then now + 1 else if tgt.toNat < now.toNat then now - 1 else now

/-- TX_TAP_STEP: 100 µs after the last step or target (R384). -/
def execTxTapStep (port : Port) (s : State) : Out :=
  guardNext ((s.lane port).tapsNow != (s.lane port).tapsT) s <|
    let s1 := atLc ((s.lane port).tapAt + 100000) s
    s1.modLane port fun l =>
      { l with tapAt := s1.lcN, tapsNow := { pre := stepTap l.tapsNow.pre l.tapsT.pre, main := stepTap l.tapsNow.main l.tapsT.main,
                                             post := stepTap l.tapsNow.post l.tapsT.post } }

/-- PRBS_CHECKER_LOCK (R394). -/
def execPrbsCheckerLock (port : Port) (s : State) : Out :=
  guardNext ((s.lane port).prbs.getLsbD 4 && (s.lane port).rx == .test && !(s.lane port).prbsLocked) s <|
    s.modLane port fun l => { l with prbsLocked := true, prbsAt := s.lcN }

/-- PRBS_CHECKER_LOSS: `bits` have been compared since the last accounting and `errors` of them were in error since the
lock (R394; log entry 35). -/
def execPrbsCheckerLoss (port : Port) (bits errors : Nat) (s : State) : Out :=
  guardNext (s.lane port).prbsLocked s <|
    s.modLane port fun l =>
      { l with prbsLocked := false, bits := l.bits + BitVec.ofNat 64 bits, errBits := satAdd l.errBits errors
               syncLosses := satInc l.syncLosses }

/-- ERROR_INJECTION: one of the INJ_COUNT injections is made (R395). -/
def execErrorInjection (port : Port) (s : State) : Out :=
  .next <|
    match (s.lane port).inj with
    | none => s
    | some j =>
      s.modLane port fun l =>
        { l with injDone := l.injDone + 1, inj := if j.left ≤ 1 then none else some { j with left := j.left - 1 } }

end Sys2Proof.Machine
end

