-- ==== Sys2Proof/Machine/Fabric.lean ====
section
/-! DEFINITION. The fabric and the uplinks: link acceptance and retry, switching, beacons and leadership, the fabric
configuration image, Ethernet, and their commands (R405 to R438). -/

namespace Sys2Proof.Machine

/-! Acceptance of a frame on a link (R405 to R410). -/

def badFrame (p : Port) (s : State) : State := s.modPort p fun q => { q with badFrame := satInc q.badFrame }
def noRoute (p : Port) (s : State) : State := s.modPort p fun q => { q with noRoute := satInc q.noRoute }

/-- ACK_WAIT of a port in ns (R410). -/
def State.ackWaitNs (s : State) (p : Port) : Nat := (s.port p).ackWait.toNat * 1000

/-- A NAK with the expected LSEQ, at most once per class per ACK_WAIT (R410). -/
def sendNak (p : Port) (c : Fin 6) (s : State) : State :=
  let k := (s.port p).classes[c]
  let due := match k.nakAt with
    | some t => decide (t + s.ackWaitNs p ≤ s.lcN)
    | none => true
  if due then
    sendLinkCtl p (linkCtlBlock c.val true false k.rxSeq 0) (s.modClass p c fun k => { k with nakAt := some s.lcN })
  else s

/-- What link acceptance makes of a frame. -/
inductive Accepted where
  | dropped (s : State)
  | taken (s : State)

/-- The frame is one of its class's sequence (R409): retried classes only, never a LOCAL frame. -/
def sequenced (f : Frame) : Bool := classRetried f.clsFin && !f.isLocal

/-- Header, CRC and sequence of a received frame (R405, R409, R410, R415). A stomped frame is acknowledged and discarded. -/
def acceptFrame (p : Port) (f : Frame) (s0 : State) : Accepted :=
  let s := s0.modPort p fun q => { q with framesRx := satInc q.framesRx }
  let c := f.clsFin
  let k := (s.port p).classes[c]
  if !f.headerOk then
    let s1 := badFrame p s
    .dropped (if f.w3 = hcrcOf f.w0 f.w1 f.w2 && decide (f.cls < 6) && sequenced f then sendNak p c s1 else s1)
  else if !f.crcOk && !f.stomped then .dropped (if sequenced f then sendNak p c s else s)
  else if sequenced f && f.lseq != k.rxSeq then .dropped (sendNak p c s)
  else
    let s1 := if sequenced f then
        sendLinkCtl p (linkCtlBlock c.val false false k.rxSeq 0) (s.modClass p c fun k => { k with rxSeq := k.rxSeq + 1 })
      else s
    let s2 := s1.modClass p c fun k => { k with held := if f.isLocal then k.held else k.held + f.bytes }
    if f.stomped then
      .dropped (returnCredits p c f (s2.modPort p fun q => { q with stomped := satInc q.stomped }))
    else if !f.typeOk then .dropped (returnCredits p c f (badFrame p s2))
    else .taken s2

/-- Frames that cross a link between different major versions (R428). -/
def crossesVersions (f : Frame) : Bool := f.type == 0x20 || f.cls == 5

/-- What a hub in Safe-Core keeps of the fabric (R420). -/
def safeCoreTakes (s : State) (f : Frame) : Bool :=
  f.cls == 0 || f.type == 0x20 || (f.cls == 1 && f.isLocal) || (f.type == 0x04 && f.dst == s.fab.hubId)

/-- Opcode groups that MGMT frames may carry (R428). -/
def mgmtGroup (code : Nat) : Bool := [0x01, 0x0C, 0x0E, 0x10].contains (code / 256)

/-- A frame with one hop less (R405). -/
def lessHop (f : Frame) : Frame :=
  { f with w0 := (f.w0 &&& 0xFF0FFFFF) ||| w32 (fld 20 4 (f.hopsLeft - 1)) }.seal

/-- The frame ends on the output with the complement of its correct CRC-32C (R415). -/
def stompFrame (f : Frame) : Frame := { f with crc := ~~~f.crc }

/-- A frame is forwarded cut-through: its HCRC has checked, its output queue is empty with nothing of it in spill, the output holds
credits for the whole frame, and the output's line rate does not exceed the input's (R415). -/
def State.cutsThrough (s : State) (input p : Port) (f : Frame) : Bool :=
  let c := f.clsFin
  f.headerOk && (s.port p).classes[c].queue.isEmpty && !(classSpills c && s.inSpill p c) && !s.isEth p && s.mayStart p c f &&
  (!(s.lane p).rate || (s.lane input).rate)

/-- A frame for this hub (R414, R423): a CMD packet is served, a record or a reply with EP_VALID leaves through its
endpoint, and the content of any other frame acts through the row of its own type (log entry 37). -/
def deliverLocal (input : Option Port) (f : Frame) (s : State) : State :=
  let credit := fun (s : State) => match input with
    | some p => returnCredits p f.clsFin f s
    | none => s
  if f.type = 0x04 then
    let bs := bytesOfWords f.payload
    let code := (bs.getD 0 0).toNat + 256 * (bs.getD 1 0).toNat
    let s1 := credit s
    if f.cls = 5 && !mgmtGroup code then s1
    else framePacket (.hub f.src) (if f.epValid then some f.ep else none) f.dst bs s1
  else if f.epValid && (f.type = 0x01 || f.type = 0x05) then
    match s.endpointPort f.ep with
    | some u => enqueueOut ⟨u.val, by omega⟩ f.clsFin input f s
    | none => match input with
      | some p => noRoute p (credit s)
      | none => s
  else credit s

/-- A frame is forwarded for another hub (R414). -/
def forwardFrame (input : Port) (f : Frame) (s : State) : State :=
  let c := f.clsFin
  if f.hopsLeft = 0 then noRoute input (returnCredits input c f s)
  else match s.route f.dst c with
    | none => noRoute input (returnCredits input c f s)
    | some p => enqueueOut p c (some input) (lessHop f) s

/-! Beacons and leadership (R424 to R428). -/

/-- The hubs that an image's member entries name; the PARTNER of a PAIRED entry counts as listed (R432, R528). -/
def imageMembers (img : List Word) : List (BitVec 10) :=
  (List.range (bits (pw img 3) 6 0)).flatMap fun k =>
    let e := pw img (16 + 2 * k)
    if bit e 20 then [e.extractLsb' 0 10, e.extractLsb' 10 10] else [e.extractLsb' 0 10]

/-- This hub is eligible by its own record: TQ 3 held for 1 s under the term, or the current leader (R426). -/
def State.eligible (s : State) : Bool :=
  s.fab.leads || (s.fab.leadPriority != 0 && (match s.fab.lockedSince with
    | some t => decide (t + 1000000000 ≤ s.lcN)
    | none => false))

/-- What this hub says of itself in its beacon (R424). -/
def State.selfMember (s : State) : Member :=
  { hub := s.fab.hubId, bseq := s.fab.bseq, term := s.fab.term, leader := s.fab.leader, priority := s.fab.leadPriority,
    tq := s.time.tq, mode := BitVec.ofNat 4 s.sup.mode.code, state := s.fab.state, eligible := s.eligible, verMajor := 1,
    fabGen := s.fabGen, digest := s.fabDigest, seenAt := s.lcN, tqGood := 0, timeOut := false }

/-- BEACON payload (R424). -/
def beaconWords (m : Member) : List Word :=
  [m.bseq, m.term,
   w32 (m.leader.toNat + fld 10 8 m.priority.toNat + fld 18 4 m.tq.toNat + fld 22 4 m.mode.toNat + fld 26 3 m.state.toNat +
     flag 29 m.eligible), w32 (fld 8 8 m.verMajor.toNat), m.fabGen] ++ words64 m.digest.toNat

/-- A beacon's sender as it reports itself (R424). -/
def memberOf (f : Frame) (lc : Nat) : Member :=
  let w := f.payload
  { hub := f.src, bseq := pw w 0, term := pw w 1, leader := (pw w 2).extractLsb' 0 10, priority := (pw w 2).extractLsb' 10 8,
    tq := (pw w 2).extractLsb' 18 4, mode := (pw w 2).extractLsb' 22 4, state := (pw w 2).extractLsb' 26 3,
    eligible := bit (pw w 2) 29, verMajor := (pw w 3).extractLsb' 8 8, fabGen := pw w 4,
    digest := BitVec.ofNat 64 (nat64 (pw w 5) (pw w 6)), seenAt := lc, tqGood := 0, timeOut := false }

/-- The leader's own beacon data, when it is known. -/
def State.leaderMember (s : State) : Option Member :=
  if s.fab.leads then some s.selfMember else s.fab.members.find? fun m => m.hub == s.fab.leader

/-- The leader's image, which this hub shares, leaves this hub out (R428). -/
def State.omitted (s : State) : Bool := !s.fab.image.isEmpty && !(imageMembers s.fab.image).contains s.fab.hubId

/-- This hub disagrees with the leader's configuration (R428). -/
def State.mismatched (s : State) : Bool :=
  match s.leaderMember with
  | none => false
  | some l => l.fabGen != s.fabGen || l.digest != s.fabDigest || s.omitted

/-- The membership state takes MEMBER or MISMATCH, and entering MISMATCH is noticed (R425, R428). -/
def judgeMember (s : State) : State :=
  if s.fab.state = 2 ∨ s.fab.state = 3 then
    if s.mismatched then
      if s.fab.state = 3 then s
      else
        let lead := (s.leaderMember.map (·.fabGen)).getD 0
        raise (s.modFab fun f => { f with state := 3 }) 0x0500
          [s.fabGen, lead, w32 (fld 0 10 s.fab.leader.toNat + flag 10 s.omitted)]
    else s.modFab fun f => { f with state := 2 }
  else s

/-- A hub sees neighbours of its version for the first time, or none any longer (R425). -/
def judgeAlone (s : State) : State :=
  if !s.fab.join then s.modFab fun f => { f with state := 4 }
  else if s.fab.members.isEmpty then s.modFab fun f => { f with state := 0 }
  else if s.fab.state = 0 ∨ s.fab.state = 4 then s.modFab fun f => { f with state := 1, followSince := s.lcN }
  else s

/-- The record of a hub with its latest beacon: its exclusion on time ends after 16 beacons with TQ 3 or 4 (R428). -/
def noteMember (m : Member) (s : State) : State :=
  let old := s.fab.members.find? fun x => x.hub == m.hub
  let good := m.tq == 3 || m.tq == 4
  let run := if good then ((old.map (·.tqGood)).getD 0) + 1 else 0
  let out := if !good then true else ((old.map (·.timeOut)).getD false) && decide (run < 16)
  s.modFab fun f => { f with members := { m with tqGood := run, timeOut := out } :: f.members.filter fun x => x.hub != m.hub }

/-- The hub at the other end of a port, from a beacon that has made no hop (R424, R428). -/
def noteNeighbour (p : Port) (m : Member) (s : State) : State :=
  s.modPort p fun q => { q with neighbour := some m.hub, nbState := m.state, nbMode := m.mode, verDiff := m.verMajor != 1 }

/-- A frame leaves on every fabric port but one (R424). -/
def flood (but : Option Port) (f : Frame) (s : State) : State :=
  forEach (s.fabricPorts.filter fun p => some p != but) (fun s p => sendOn p f s) s

/-- A beacon that has been received (R424, R425, R428). -/
def takeBeacon (p : Port) (f : Frame) (s : State) : State :=
  let m := memberOf f s.lcN
  let s1 := if f.hopsLeft = 15 then noteNeighbour p m s else s
  if f.src = s.fab.hubId || m.verMajor != 1 then s1
  else
    let newer := match s.fab.members.find? fun x => x.hub == m.hub with
      | some o => serialOlder o.bseq m.bseq
      | none => true
    if !newer then s1
    else
      let s2 := judgeMember (judgeAlone (noteMember m s1))
      if f.hopsLeft = 0 then s2 else flood (some p) (lessHop f) s2

/-- BEACON_RX (R424). -/
def execBeaconRx (port : Port) (f : Frame) (s : State) : Out :=
  guardNext (s.served && s.linkUp port && s.fab.portMask.getLsbD port.val && f.type == 0x20) s <|
    match acceptFrame port f s with
    | .dropped s1 => s1
    | .taken s1 => takeBeacon port f (returnCredits port f.clsFin f s1)

/-- BEACON_TX (R424). -/
def execBeaconTx (s : State) : Out :=
  guardNext (s.served && !s.fabricPorts.isEmpty) s <|
    let s1 := atLc (s.fab.beaconAt + 1000000) s
    let s2 := s1.modFab fun f => { f with beaconAt := s1.lcN, bseq := f.bseq + 1 }
    flood none (mkFrame s2 1 0x20 false true 0 none (beaconWords s2.selfMember)) s2

/-- MEMBER_TIMEOUT: three beacon intervals without a beacon (R425). -/
def execMemberTimeout (hub : BitVec 10) (s : State) : Out :=
  .next <|
    match s.fab.members.find? fun m => m.hub == hub with
    | none => s
    | some m =>
      let s1 := atLc (m.seenAt + 3000000) s
      judgeMember (judgeAlone (s1.modFab fun f => { f with members := f.members.filter fun x => x.hub != hub }))

/-- Hub a comes before hub b: higher LEAD_PRIORITY, then lower hub ID (R426). -/
def precedes (a b : Member) : Bool :=
  decide (b.priority.toNat < a.priority.toNat) || (a.priority == b.priority && decide (a.hub.toNat < b.hub.toNat))

/-- The hub of highest precedence in a list. -/
def bestMember (l : List Member) : Option Member :=
  l.foldl (fun acc m => match acc with
    | none => some m
    | some b => if precedes m b then some m else some b) none

/-- The hubs that can lead: the eligible ones, or without any every hub with a priority (R426). -/
def candidates (l : List Member) : List Member :=
  let e := l.filter (·.eligible)
  if e.isEmpty then l.filter fun m => m.priority != 0 else e

/-- Between two reports of terms, the one to follow: the higher term, then the leader of higher precedence (R426). -/
def followBefore (l : List Member) (a b : Word × BitVec 10) : Bool :=
  let who := fun (h : BitVec 10) => l.find? fun m => m.hub == h
  decide (b.1.toNat < a.1.toNat) ||
  (a.1 == b.1 && (match who a.2, who b.2 with
    | some x, some y => precedes x y
    | some _, none => true
    | none, _ => false))

/-- This hub follows a term and a leader: a change is noticed, JOINING starts again, and time at TQ 3 is counted anew
(R425, R426, R427). -/
def followTerm (term : Word) (leader : BitVec 10) (leads : Bool) (s : State) : State :=
  if s.fab.term = term && s.fab.leader = leader && s.fab.leads = leads then s
  else
    let was := s.fab.leads
    let s1 := s.modFab fun f =>
      { f with term := term, leader := leader, leads := leads, elections := satInc f.elections, followSince := s.lcN
               lockedSince := if s.time.tq = 3 then some s.lcN else none
               state := if f.state = 2 ∨ f.state = 3 then 1 else f.state }
    let s2 := raise s1 0x0501 [term, w32 leader.toNat]
    if leads && !was then leadTime s2 else if was && !leads then seekParent s2 else s2

/-- The three rules of R426 at one tick of election. With no candidate at all a hub leads itself. -/
def elect (s : State) : State :=
  let me := s.selfMember
  let all := me :: s.fab.members
  let top := all.foldl (fun n m => max n m.term.toNat) 0
  match bestMember (candidates all) with
  | none => followTerm s.fab.term s.fab.hubId true s
  | some w =>
    if w.hub = me.hub && !(s.fab.leads && s.fab.term.toNat = top) then followTerm (w32 (top + 1)) me.hub true s
    else
      let best := s.fab.members.foldl (fun b m => if followBefore all (m.term, m.leader) b then (m.term, m.leader) else b)
        (s.fab.term, s.fab.leader)
      followTerm best.1 best.2 (best.2 == me.hub) s

/-- ELECTION_TICK (R426). -/
def execElectionTick (s : State) : Out := guardNext (s.served && s.fab.join) s (elect s)

/-- JOIN_SETTLE: one term followed for 3 ms (R425). -/
def execJoinSettle (s : State) : Out :=
  guardNext (s.fab.state == 1) s <|
    judgeMember ((atLc (s.fab.followSince + 3000000) s).modFab fun f => { f with state := 2 })

/-! Frames through the switch. -/

/-- Bytes of a port's retry buffer that a set of classes holds (R411). -/
def retryBytes (q : FabPort) (l : List (Fin 6)) : Nat :=
  (l.map fun c => (q.classes[c].unacked.map fun x => x.1.bytes).sum).sum

/-- The retry buffer has room for a frame: SAMPLE, REPLAY and MGMT hold at most 224 KiB of its 256 KiB (R411). -/
def retryRoom (q : FabPort) (f : Frame) : Bool :=
  !sequenced f ||
  (decide (retryBytes q (List.finRange 6) + f.bytes ≤ 262144) &&
   (decide (f.cls < 3) || decide (retryBytes q [3, 4, 5] + f.bytes ≤ 229376)))

/-- The sub-queue of a queued frame: its input port, 32 for local sources (R415). -/
def subQueue (q : Queued) : Nat := (q.input.map (·.val)).getD 32

/-- The round of sub-queues brought up to date: those without frames leave it, new ones join at its end (R416). -/
def syncRound (c : PortClass) : List (Nat × Nat) :=
  let here := c.queue.map subQueue
  let kept := c.deficit.filter fun p => here.contains p.1
  kept ++ ((here.filter fun i => !(kept.any fun p => p.1 == i)).eraseDups.map fun i => (i, 0))

/-- WEIGHT of an input in a class, 4 for local sources (R416, R435). -/
def State.weight (s : State) (i : Nat) (c : Fin 6) : Nat :=
  match finOf 32 i with
  | some p => (s.port p).weights.toNat / 16 ^ c.val % 16
  | none => 4

/-- Deficit round robin: the frame to serve next and the round after it (R416). A sub-queue is given its quantum when its
turn comes. -/
def serveRound (s : State) (c : Fin 6) (k : PortClass) : Nat → List (Nat × Nat) → Option (Queued × List (Nat × Nat))
  | 0, _ => none
  | _, [] => none
  | n + 1, (i, d) :: t =>
    match k.queue.find? fun q => subQueue q == i with
    | none => serveRound s c k n t
    | some q =>
      if q.frame.bytes ≤ d then some (q, (i, d - q.frame.bytes) :: t)
      else
        match t ++ [(i, d)] with
        | [] => none
        | (j, e) :: u => serveRound s c k n ((j, e + 2048 * s.weight j c) :: u)

/-- The frame a class of a port would start now, with the round after it (R412, R416). -/
def State.nextFrame (s : State) (p : Port) (c : Fin 6) : Option (Queued × List (Nat × Nat)) :=
  let k := (s.port p).classes[c]
  match serveRound s c k 200 (syncRound k) with
  | some (q, r) => if s.mayStart p c q.frame && retryRoom (s.port p) q.frame then some (q, r) else none
  | none => none

/-- A frame starts on a port: sequence, credits, retry buffer, and the credits of the port it came in on (R409, R411,
R412). -/
def startFrame (p : Port) (c : Fin 6) (q : Queued) (round : List (Nat × Nat)) (s : State) : State :=
  let k := (s.port p).classes[c]
  let swl := !s.isEth p && !q.frame.isLocal
  let f := if swl && classRetried c then q.frame.withSeq k.txSeq else q.frame
  let s1 := s.modClass p c fun k =>
    { k with queue := k.queue.erase q, deficit := round
             credits := if swl then k.credits - f.credits else k.credits
             txSeq := if swl && classRetried c then k.txSeq + 1 else k.txSeq
             unacked := if swl && classRetried c then k.unacked ++ [(f, s.lcN)] else k.unacked }
  let s2 := s1.modPort p fun x => { x with lastTx := some f, framesTx := satInc x.framesTx }
  match q.input with
  | some i => returnCredits i c q.frame s2
  | none => s2

/-- SYNC starts to leave a port: t1 is the instant at which its first bit crosses the balls, in NT, and the SYNC_FU that waits behind
it carries it. The part of the stamp below 1 ns is not given to the model, so it is free (R232; log entry 2). -/
def stampSync (p : Port) (s : State) : State :=
  let d := s.drawWord
  let t1 := d.2.ntOfStamp (d.2.lcN * 256 + d.1.toNat % 256)
  d.2.modClass p 1 fun k =>
    { k with queue := k.queue.map fun q =>
        if q.input.isNone && q.frame.type == 0x11 then
          { q with frame := mkFrame d.2 1 0x11 true false (d.2.neighbourId p) none (syncFuPayload t1 d.2) }
        else q }

/-- A frame of this hub starts that must be stamped as it leaves (R232). -/
def Queued.isSync (q : Queued) : Bool := q.input.isNone && q.frame.isLocal && q.frame.type == 0x10

/-- The last frame sent in a class of a port is the one that was stomped: it is sent so again if it must be (R410, R415). -/
def stompLast (p : Port) (c : Fin 6) (s : State) : State :=
  (s.modClass p c fun k => { k with unacked := match k.unacked.getLast? with
      | some x => k.unacked.dropLast ++ [(stompFrame x.1, x.2)]
      | none => [] }).modPort p fun q => { q with lastTx := q.lastTx.map stompFrame }

/-- A frame for another hub whose CRC fails had left cut-through by then, so it ends stomped on its output (R415). The link where it
failed replays it, and what it took on this link stands. -/
def cutShort (input : Port) (f : Frame) (s0 s : State) : State :=
  let c := f.clsFin
  let due := !sequenced f || f.lseq == ((s0.port input).classes[c]).rxSeq
  if !f.headerOk || f.crcOk || !f.typeOk || !due || f.isLocal || f.bcast || f.dst == s.fab.hubId || f.hopsLeft == 0 ||
      ((s.port input).verDiff && !crossesVersions f) || (s.sup.mode == .safeCore && !safeCoreTakes s f) then s
  else match s.route f.dst c with
    | none => s
    | some p =>
      if s.cutsThrough input p f && retryRoom (s.port p) f then
        let sent := startFrame p c { input := none, since := s.lcN, frame := lessHop f } (s.port p).classes[c].deficit s
        if sequenced f then stompLast p c sent else sent.modPort p fun q => { q with lastTx := q.lastTx.map stompFrame }
      else s

/-- FRAME_FORWARD: a frame has arrived on a link (R409, R414, R415, R420, R428). -/
def execFrameForward (port : Port) (f : Frame) (s : State) : Out :=
  guardNext (s.served && (s.lane port).upForLink && !(s.lane port).testUse && !s.isEth port) s <|
    match acceptFrame port f s with
    | .dropped s1 => cutShort port f s s1
    | .taken s1 =>
      let drop := returnCredits port f.clsFin f s1
      if (s1.port port).verDiff && !crossesVersions f then drop
      else if s1.sup.mode == .safeCore && !safeCoreTakes s1 f then noRoute port drop
      else if f.type = 0x20 then takeBeacon port f drop
      else if f.dst = s1.fab.hubId then deliverLocal (some port) f s1
      else if f.isLocal then noRoute port drop
      else forwardFrame port f s1

/-- PORT_FRAME_START: the class of highest priority with a frame and the credits for it (R416). -/
def execPortFrameStart (port : Port) (s : State) : Out :=
  .next <|
    match (List.finRange 6).findSome? fun c => (s.nextFrame port c).map fun r => (c, r) with
    | none => s
    | some (c, q, r) => if q.isSync then stampSync port (startFrame port c q r s) else startFrame port c q r s

/-- SPILL_DRAIN: the oldest spilled frame of a port and class, when its queue is empty and credits are held and the rate of
6.4 GB/s leaves room for the read; not in Safe-Core, where the DRAM is in self-refresh (R26, R345, R419; log entry 221). -/
def execSpillDrain (port : Port) (replay : Bool) (s : State) : Out :=
  let c : Fin 6 := if replay then 4 else 3
  .next <|
    match s.hoard.spilled.find? fun x => x.port == port && x.replay == replay with
    | none => s
    | some x =>
      if (s.port port).classes[c].queue.isEmpty && !s.noCredits port c && s.mayStart port c x.frame && s.spillBacklog == 0 then
        useSpillRate x.frame.bytes ((s.modHoard fun h => { h with spilled := h.spilled.erase x }).modClass port c fun k =>
          { k with queue := [{ input := none, since := s.lcN, frame := x.frame }] })
      else s

/-- Age limit of a waiting class in ns, for the classes that do not spill (R408). -/
def ageLimit (c : Fin 6) : Option Nat :=
  if c = 0 then some 50000 else if c = 1 then some 500000 else if c = 2 ∨ c = 5 then some 10000000 else none

/-- FRAME_AGE_DISCARD (R408). -/
def execFrameAgeDiscard (port : Port) (cls : Fin 6) (s : State) : Out :=
  .next <|
    match ageLimit cls, (s.port port).classes[cls].queue.head? with
    | some ns, some q =>
      let s1 := (atLc (q.since + ns) s).modClass port cls fun k =>
        { k with queue := k.queue.erase q, aged := satInc k.aged }
      let s2 := if cls = 0 then s1.modPort port fun x => { x with safetyStale := satInc x.safetyStale } else s1
      match q.input with
      | some i => returnCredits i cls q.frame s2
      | none => s2
    | _, _ => s

/-- A class is replayed from its oldest unacknowledged frame; after 8 replays without acknowledgement the link goes down and
the lane retrains (R383, R410, R411). -/
def replayClass (p : Port) (c : Fin 6) (s : State) : State :=
  let k := (s.port p).classes[c]
  if k.unacked.isEmpty then s
  else if 8 ≤ k.replays then retrain p s
  else
    (s.modClass p c fun k => { k with replays := k.replays + 1, unacked := k.unacked.map fun x => (x.1, s.lcN) }).modPort p
      fun q => { q with retries := satInc q.retries, lastTx := k.unacked.getLast?.map (·.1) }

/-- ACK_WAIT_EXPIRY (R410). -/
def execAckWaitExpiry (port : Port) (cls : Fin 6) (s : State) : Out :=
  .next <|
    match (s.port port).classes[cls].unacked.head? with
    | none => s
    | some (_, t) => replayClass port cls (atLc (t + s.ackWaitNs port) s)

/-- Frames up to one acknowledged LSEQ leave the retry buffer (R410, R411). -/
def dropAcked (q : BitVec 16) (l : List (Frame × Nat)) : List (Frame × Nat) :=
  match l.findIdx? fun x => x.1.lseq == q with
  | some i => l.drop (i + 1)
  | none => l

def ackClass (q : BitVec 16) (k : PortClass) : PortClass :=
  let l := dropAcked q k.unacked
  { k with unacked := l, replays := if l.length < k.unacked.length then 0 else k.replays }

/-- LINK_CTL_RX (R407, R410, R412). -/
def execLinkCtlRx (port : Port) (block : BitVec 56) (s : State) : Out :=
  let b := block.toNat
  let seq : BitVec 16 := block.extractLsb' 5 16
  let credits := b / 2 ^ 21 % 2 ^ 16
  .next <|
    match finOf 6 (b % 8) with
    | none => s
    | some c =>
      if !(s.lane port).upForLink || s.isEth port then s
      else if block.getLsbD 4 then s.modClass port c fun k => { k with initRx := true, credits := credits }
      else
        let s1 := s.modClass port c fun k => { k with credits := k.credits + credits }
        if block.getLsbD 3 then replayClass port c (s1.modClass port c (ackClass (seq - 1)))
        else s1.modClass port c (ackClass seq)

/-! The fabric configuration image (R432, R433). -/

/-- Words of a complete image by its own header. -/
def imageLength (img : List Word) : Nat := 16 + 2 * bits (pw img 3) 6 0 + bits (pw img 4) 16 0 / 4

/-- The longest image there can be, in words (R432). -/
def imageMax : Nat := 16 + 2 * 64 + 16384

/-- The words written from index 0 on without a gap. -/
def contiguous : Nat → List (Nat × Word) → List Word
  | _, [] => []
  | k, (i, w) :: t => if i = k then w :: contiguous (k + 1) t else []

/-- The checks of an image, as RESULT reports them (R432, R437). -/
def imageResult (img : List Word) (gen : Word) : Nat :=
  let hdr := img.take 16
  let members := (img.drop 16).take (2 * bits (pw img 3) 6 0)
  let mc := bits (pw img 3) 6 0
  let reservedOk := resv (pw img 1) 31 16 && resv (pw img 3) 31 7 && resv (pw img 4) 31 17 &&
    ((img.drop 5).take 9).all (· == 0) &&
    (List.range mc).all fun k => resv (pw members (2 * k)) 31 21 && pw members (2 * k + 1) == 0
  if img.length < 16 || pw img 0 != 0x4246484E || bits (pw img 1) 15 8 != 1 || mc = 0 || 64 < mc ||
      65536 < bits (pw img 4) 16 0 || bits (pw img 4) 1 0 != 0 || !reservedOk || img.length != imageLength img then 2
  else if crcWords (img.drop 16) != pw img 14 || crcWords (hdr.take 15) != pw img 15 then 3
  else if !serialOlder gen (pw img 2) then 4
  else 1

/-- CONFIG_IMG payload of one chunk: word index, tick of adoption, words (R433; log entry 24). -/
def imgChunk (k : Nat) (tk : Nat) (ws : List Word) : List Word := w32 (4 * k) :: words64 tk ++ ws

/-- The leader sends the image to every member in chunks of 128 words (R433). -/
def distribute (img : List Word) (tk : Nat) (s : State) : State :=
  forEach s.fab.members (fun s m =>
    forEach (List.range ((img.length + 127) / 128)) (fun s k =>
      sendFrame (mkFrame s 2 0x07 false false m.hub none (imgChunk (128 * k) tk ((img.drop (128 * k)).take 128))) s) s) s

/-- The tick of adoption: the one given, or the first multiple of 2,000,000 at least 20 ms ahead (R437). -/
def State.applyTick (s : State) (tk : Nat) : Nat :=
  if tk = 0 then (s.tkN + 400000 + 1999999) / 2000000 * 2000000 else tk

/-- Reply words of FAB_CONFIG_PUBLISH (R437). -/
def publishWords (held result tk : Nat) : List Word := w32 (fld 0 17 (4 * held) + fld 17 3 result) :: words64 tk

/-- FAB_CONFIG_PUBLISH (R433, R437). -/
def fabPublishBody (_ : Ctx) (ws : List Word) (s : State) : Res :=
  let w0 := pw ws 0
  let off := bits w0 16 0
  let n := bits w0 24 17
  let tk := nat64 (pw ws 1) (pw ws 2)
  let isLocal := bit w0 27
  if !resv w0 31 28 || off % 4 != 0 || decide (128 < n) || decide (imageMax < off / 4 + n) ||
      (bit w0 26 && ((!s.fab.leads && !isLocal) || (tk != 0 && decide (tk < s.tkN + 200000)))) then refuse stBadParam s
  else
    let old := if bit w0 25 then [] else ((s.fab.staged.map (·.words)).getD [])
    let words := putAll (off / 4) ((ws.drop 3).take n) old
    let s1 := s.modFab fun f => { f with staged := some { words := words, applyTk := none } }
    if !bit w0 26 then .done stOk (publishWords words.length 0 0) s1
    else
      let img := contiguous 0 words
      let r := if img.length = words.length then imageResult img s.fabGen else 2
      if r ≠ 1 then .done stOk (publishWords words.length r 0) s1
      else
        let t := s.applyTick tk
        let s2 := s1.modFab fun f => { f with staged := none, next := some (img, t) }
        .done stOk (publishWords words.length 1 t) (if isLocal then s2 else distribute img t s2)

def fabPublishSpec : CmdSpec :=
  { code := 0x0C03, access := fun c _ _ => accEng c, mode := modeAll,
    length := fun ws => decide (1 ≤ ws.length) && ws.length == 3 + bits (pw ws 0) 24 17, body := fabPublishBody }

def execFabConfigPublish (p : Packet) (s : State) : Out := serve fabPublishSpec p s

/-- CONFIG_IMG_RX: a chunk at a byte offset; a complete image waits for its tick (R433). -/
def execConfigImgRx (offset : Nat) (words : List Word) (applyTk : Word64) (s : State) : Out :=
  guardNext (s.served && s.sup.mode != .safeCore && s.fab.join) s <|
    let old := match s.fab.staged with
      | some c => if c.applyTk = some applyTk.toNat then c.words else []
      | none => []
    let all := putAll (offset / 4) words old
    let img := contiguous 0 all
    if img.length = all.length && imageResult img s.fabGen = 1 then
      s.modFab fun f => { f with staged := none, next := some (img, applyTk.toNat) }
    else s.modFab fun f => { f with staged := some { words := all, applyTk := some applyTk.toNat } }

/-- FAB_CONFIG_APPLY: a complete image is adopted at its tick; an incomplete one is given up (R433, R428). -/
def execFabConfigApply (s : State) : Out :=
  .next <|
    match s.fab.next with
    | some (img, tk) =>
      judgeMember ((atTk tk s).modFab fun f => { f with image := img, next := none, staged := none })
    | none => match s.fab.staged.bind (·.applyTk) with
      | some tk => judgeMember ((atTk tk s).modFab fun f => { f with staged := none })
      | none => s

/-- A hub whose feeds this hub treats as missing (R429): either in MISMATCH, or for safety projections the source excluded
on time, as is one whose beacons have not reported TQ 3 or 4 (R428). -/
def State.excludedHub (s : State) (hub : BitVec 10) (safety : Bool) : Bool :=
  s.fab.state == 3 ||
  (match s.fab.members.find? fun m => m.hub == hub with
    | some m => m.state == 3 || (safety && m.timeOut)
    | none => safety)

/-! FAB_JOIN, FAB_ROUTE and FAB_STATUS. -/

/-- Reply words of FAB_JOIN (R434). -/
def fabJoinWords (s : State) : List Word :=
  [w32 (fld 0 10 s.fab.hubId.toNat + fld 10 3 s.fab.state.toNat + flag 13 s.fab.leads + fld 14 8 s.fab.leadPriority.toNat),
   s.fab.portMask]

/-- FAB_JOIN changes LEAD_PRIORITY, so it needs a second party (R434). -/
def joinProtected (ws : List Word) (s : State) : Bool :=
  bit (pw ws 0) 10 && (pw ws 0).extractLsb' 12 8 != s.fab.leadPriority

/-- The checks of FAB_JOIN with WRITE (R434). -/
def fabJoinCheck (ws : List Word) (s : State) : Nat :=
  let w0 := pw ws 0
  if allPorts.any fun p => (pw ws 1).getLsbD p.val && s.isEth p then stBadParam
  else if w0.extractLsb' 0 10 != s.fab.hubId && s.hoard.subs.any (·.isSome) then stBusy
  else stOk

/-- This hub's ID takes a value; a hub that leads itself is its own leader under that ID (R425, R434). -/
def setHubId (h : BitVec 10) (s : State) : State :=
  s.modFab fun f => { f with hubId := h, hubIdSet := true, leader := if f.leads then h else f.leader }

/-- The settings of FAB_JOIN applied (R425, R434). -/
def applyFabJoin (ws : List Word) (s : State) : State :=
  let w0 := pw ws 0
  judgeAlone ((setHubId (w0.extractLsb' 0 10) s).modFab fun f =>
    { f with join := bit w0 11, leadPriority := w0.extractLsb' 12 8, portMask := pw ws 1 })

/-- Reply words 1 and 2 of FAB_ROUTE for a port (R435). -/
def portSettings (q : FabPort) : List Word := [w32 q.weights.toNat, w32 (fld 0 8 q.ackWait.toNat + fld 8 8 q.spillThresh.toNat)]

/-- FAB_ROUTE of a hub (R435). -/
def routeBody (w0 w1 w2 : Word) (s : State) : Res :=
  let d : Fin 1024 := (w0.extractLsb' 0 10 : BitVec 10).toFin
  let reply := fun (s : State) =>
    let e := s.fab.routes[d]
    let up := fun (x : BitVec 6) => match routePort x with
      | some p => s.linkUp p
      | none => false
    Res.done stOk [w32 (flag 0 (!up e.1 && up e.2) + flag 1 (!up e.1 && !up e.2)), w32 (fld 0 6 e.1.toNat + fld 6 6 e.2.toNat), 0] s
  let good := fun (x : Nat) => x < 32 || x == 0x3F
  if !resv w1 31 12 || w2 != 0 then refuse stBadParam s
  else if !bit w0 10 then reply s
  else if !good (bits w1 5 0) || !good (bits w1 11 6) then refuse stBadParam s
  else reply (s.modFab fun f => { f with routes := vset f.routes d (w1.extractLsb' 0 6, w1.extractLsb' 6 6) })

/-- FAB_ROUTE of a port (R435). -/
def portRouteBody (w0 w1 w2 : Word) (s : State) : Res :=
  let p : Port := ⟨bits w0 4 0, Nat.mod_lt _ (by decide)⟩
  if bits w0 9 5 != 0 || !resv w1 31 24 || !resv w2 31 16 then refuse stBadParam s
  else if !bit w0 10 then .done stOk (0 :: portSettings (s.port p)) s
  else if (List.range 6).any (fun c => bits w1 (4 * c + 3) (4 * c) == 0) || decide (bits w2 7 0 < 10) || decide (bits w2 15 8 < 8) then
    refuse stBadParam s
  else
    let s1 := s.modPort p fun q =>
      { q with weights := w1.extractLsb' 0 24, ackWait := w2.extractLsb' 0 8, spillThresh := w2.extractLsb' 8 8 }
    .done stOk (0 :: portSettings (s1.port p)) s1

def fabRouteBody (_ : Ctx) (ws : List Word) (s : State) : Res :=
  if !resv (pw ws 0) 31 12 then refuse stBadParam s
  else if bit (pw ws 0) 11 then portRouteBody (pw ws 0) (pw ws 1) (pw ws 2) s
  else routeBody (pw ws 0) (pw ws 1) (pw ws 2) s

def fabRouteSpec : CmdSpec :=
  { code := 0x0C01, access := fun c ws _ => if bit (pw ws 0) 10 then accEng c else accAny c, mode := modeAll,
    length := fun ws => ws.length == 3, body := fabRouteBody }

def execFabRoute (p : Packet) (s : State) : Out := serve fabRouteSpec p s

/-- FAB_GEN and DIGEST of the leader; while its beacon is not known the spec states no value, so they are free (R436; log
entry 2). -/
def leaderWords (s : State) : Word × List Word × State :=
  match s.leaderMember with
  | some m => (m.fabGen, words64 m.digest.toNat, s)
  | none =>
    let a := s.drawWord
    let b := a.2.drawWord
    let c := b.2.drawWord
    (a.1, [b.1, c.1], c.2)

/-- The fabric's words of FAB_STATUS (R436). -/
def fabWords (s : State) : List Word × State :=
  let (gen, dig, s1) := leaderWords s
  ([w32 (fld 0 3 s.fab.state.toNat + flag 3 s.fab.leads + fld 4 10 s.fab.leader.toNat + fld 14 7 (s.fab.members.length + 1)),
    s.fab.term, s.fabGen, gen] ++ words64 s.fabDigest.toNat ++ dig ++ [s.fab.elections, 0, 0, 0], s1)

/-- A port's words of FAB_STATUS (R436). -/
def fabPortWords (p : Port) (s : State) : List Word :=
  let q := s.port p
  w32 (fld 0 10 (s.neighbourId p).toNat + flag 10 (s.linkUp p) + fld 11 3 q.nbState.toNat + fld 14 4 q.nbMode.toNat +
    flag 18 q.verDiff) :: portCounters q

/-- FAB_STATUS (R436). -/
def fabStatusBody (_ : Ctx) (ws : List Word) (s : State) : Res :=
  let w := pw ws 0
  let sel := bits w 5 0
  if !resv w 31 7 then refuse stBadParam s
  else if sel = 32 then
    let r := fabWords s
    .done stOk r.1 (if bit w 6 then r.2.modFab fun f => { f with elections := 0 } else r.2)
  else match finOf 32 sel with
    | some p => .done stOk (fabPortWords p s) (if bit w 6 then s.modPort p clearPortCounters else s)
    | none => refuse stBadParam s

def fabStatusSpec : CmdSpec :=
  { code := 0x0C02, access := fun c ws _ => if bit (pw ws 0) 6 then accOp c else accAny c, mode := modeAll,
    length := fun ws => ws.length == 1, body := fabStatusBody }

def execFabStatus (p : Packet) (s : State) : Out := serve fabStatusSpec p s

/-! Ethernet uplinks (R421 to R423, R438). -/

/-- Reply words of ETH_CONFIG (R438): word 0, words 1 to 4 as in force, the state word. -/
def ethReply (p : Fin 8) (kind : Bool) (ep : Fin 16) (s : State) : Res :=
  let u := s.fab.uplinks[p]
  .done stOk (w32 (fld 0 3 p.val + flag 4 kind + fld 5 4 ep.val + flag 9 ((s.lane (uplinkPort p)).rx == .up)) ::
    ((if kind then endpointWords u.eps[ep] else (interfaceWords u)) ++
      [w32 (maskOf 16 (fun e => (u.eps[e].mac).isSome) + flag 16 u.gwMac.isSome)])) s

/-- The reserved bits of words 0 to 4 of ETH_CONFIG (R438). -/
def ethReserved (kind : Bool) (ws : List Word) : Bool :=
  resv (pw ws 0) 31 9 &&
  (if kind then resv (pw ws 2) 31 17 && zeroFrom ws 3 else resv (pw ws 2) 31 30 && resv (pw ws 4) 31 22)

/-- MTU and PREFIX within their ranges (R438). -/
def interfaceOk (ws : List Word) : Bool :=
  let mtu := bits (pw ws 2) 29 16
  let pfx := bits (pw ws 4) 21 16
  decide (2100 ≤ mtu ∧ mtu ≤ 9000) && decide (8 ≤ pfx ∧ pfx ≤ 30)

/-- The interface as the words set it; a new gateway is not resolved yet (R421, R438; log entry 39). -/
def setInterface (ws : List Word) (u : Uplink) : Uplink :=
  { u with mac := BitVec.ofNat 48 ((pw ws 1).toNat + bits (pw ws 2) 15 0 * 2 ^ 32), mtu := (pw ws 2).extractLsb' 16 14
           ip := pw ws 3, gateway := pw ws 4, udpPort := (pw ws 4).extractLsb' 0 16, pfx := (pw ws 4).extractLsb' 16 6
           gwMac := if u.gateway = pw ws 4 then u.gwMac else none }

/-- An endpoint as the words set it; a new address is not resolved yet (R421, R438). -/
def setEndpoint (ws : List Word) (e : Endpoint) : Endpoint :=
  { ip := pw ws 1, udp := (pw ws 2).extractLsb' 0 16, enable := bit (pw ws 2) 16
    mac := if e.ip = pw ws 1 then e.mac else none }

/-- ETH_CONFIG (R438). -/
def ethConfigBody (_ : Ctx) (ws : List Word) (s : State) : Res :=
  let w0 := pw ws 0
  let p : Fin 8 := ⟨bits w0 2 0, Nat.mod_lt _ (by decide)⟩
  let ep : Fin 16 := ⟨bits w0 8 5, Nat.mod_lt _ (by decide)⟩
  if !ethReserved (bit w0 4) ws then refuse stBadParam s
  else if !bit w0 3 then ethReply p (bit w0 4) ep s
  else if !s.isEth (uplinkPort p) then refuse stBadParam s
  else if bit w0 4 then ethReply p true ep (s.modUplink p fun u => { u with eps := vmod u.eps ep (setEndpoint ws) })
  else if !interfaceOk ws then refuse stBadParam s
  else ethReply p false ep (s.modUplink p (setInterface ws))

def ethConfigSpec : CmdSpec :=
  { code := 0x0C04, access := fun c ws _ => if bit (pw ws 0) 3 then accEng c else accAny c, mode := modeAll,
    length := fun ws => ws.length == 5, body := ethConfigBody }

def execEthConfig (p : Packet) (s : State) : Out := serve ethConfigSpec p s

/-- The port receives Ethernet traffic. -/
def State.uplinkLive (s : State) (port : Fin 8) : Bool :=
  s.served && s.isEth (uplinkPort port) && (s.lane (uplinkPort port)).upForLink && !(s.lane (uplinkPort port)).testUse

/-- A discard on an uplink is counted (R421). -/
def uplinkDiscard (port : Fin 8) (s : State) : State :=
  s.modUplink port fun u => { u with discards := satInc u.discards }

/-- The endpoint in use whose address a datagram comes from (R423). -/
def Uplink.sourceEndpoint (u : Uplink) (ip : Word) (udp : BitVec 16) : Option (Fin 16) :=
  (List.finRange 16).find? fun e => (u.eps[e]).enable && (u.eps[e]).ip == ip && (u.eps[e]).udp == udp

/-- A frame from an endpoint as it goes on into the fabric: SRC this hub, EP its endpoint, EP_VALID 1 (R423). -/
def fromEndpoint (s : State) (e : Fin 16) (f : Frame) : Frame :=
  { f with w1 := (f.w1 &&& 0xFFF003FF) ||| w32 (fld 10 10 s.fab.hubId.toNat)
           w2 := (f.w2 &&& 0xFFFFFFE0) ||| w32 (e.val + 16) }.seal

/-- What an uplink does with a good frame: CONTROL to MGMT only (R422), served or forwarded (R423). -/
def uplinkFrame (port : Fin 8) (d : Datagram) (f : Frame) (s : State) : State :=
  if f.cls < 2 then s
  else if !f.typeOk then badFrame (uplinkPort port) s
  else if f.dst = s.fab.hubId then
    let bs := bytesOfWords f.payload
    if f.type = 0x04 && (f.cls != 5 || mgmtGroup ((bs.getD 0 0).toNat + 256 * (bs.getD 1 0).toNat)) then
      framePacket (.uplink port d.srcIp d.srcUdp) none f.dst bs s
    else s
  else if s.sup.mode == .safeCore then s
  else match (s.fab.uplinks[port]).sourceEndpoint d.srcIp d.srcUdp with
    | some e => forwardFrame (uplinkPort port) (fromEndpoint s e f) s
    | none => s

/-- UDP_DATAGRAM_RX: a datagram for the port's own address and UDP port (R421 to R423). -/
def execUdpDatagramRx (port : Fin 8) (d : Datagram) (s : State) : Out :=
  let u := s.fab.uplinks[port]
  guardNext (s.uplinkLive port) s <|
    if d.fragment || d.options || d.tagged || d.pause then uplinkDiscard port s
    else if d.dstIp != u.ip || d.dstUdp != u.udpPort then s
    else if !d.checksumOk then uplinkDiscard port s
    else match d.frame with
      | none => uplinkDiscard port s
      | some f =>
        let s1 := s.modPort (uplinkPort port) fun q => { q with framesRx := satInc q.framesRx }
        if !f.headerOk then uplinkDiscard port (badFrame (uplinkPort port) s1)
        else if !f.crcOk then uplinkDiscard port s1
        else uplinkFrame port d f s1

/-- The port sends a message outside SWL (R421). -/
def sendOut (port : Fin 8) (m : EthOut) (s : State) : State := s.modUplink port fun u => { u with sentOut := m :: u.sentOut }

/-- The addresses an uplink resolves: its endpoints in use and its gateway (R421). -/
def Uplink.asked (u : Uplink) : List Word :=
  ((u.eps.toList.filter (·.enable)).map (·.ip)) ++ (if u.gateway = 0 then [] else [u.gateway])

/-- ARP_RX: a request for the port's own address is answered, and a reply resolves what has its address (R421). -/
def execArpRx (port : Fin 8) (a : Arp) (s : State) : Out :=
  let u := s.fab.uplinks[port]
  guardNext (s.uplinkLive port) s <|
    if a.isRequest then (if a.targetIp = u.ip then sendOut port (.arpReply a.senderIp a.senderMac) s else s)
    else s.modUplink port fun u =>
      { u with eps := u.eps.map fun e => if e.enable && e.ip == a.senderIp then { e with mac := some a.senderMac } else e
               gwMac := if u.gateway != 0 && u.gateway == a.senderIp then some a.senderMac else u.gwMac }

/-- ARP_REFRESH: every 60 s the endpoints and the gateway are asked for again (R421). -/
def execArpRefresh (s : State) : Out :=
  guardNext (s.served && (List.finRange 8).any s.uplinkLive) s <|
    let live := (List.finRange 8).filter s.uplinkLive
    let first := live.foldl (fun m p => min m (s.fab.uplinks[p]).arpAt) (2 ^ 64)
    let s1 := atLc (first + 60000000000) s
    forEach live (fun s p =>
      forEach (s.fab.uplinks[p]).asked (fun s ip => sendOut p (.arpRequest ip) s) (s.modUplink p fun u => { u with arpAt := s1.lcN })) s1

/-- ICMP_ECHO_RX: an echo request to the port's own address is answered (R421). -/
def execIcmpEchoRx (port : Fin 8) (srcIp dstIp : Word) (ident seq : BitVec 16) (data : List Byte) (s : State) : Out :=
  guardNext (s.uplinkLive port && dstIp == (s.fab.uplinks[port]).ip) s
    (sendOut port (.echoReply srcIp ident seq data) s)

end Sys2Proof.Machine
end

