-- ==== Sys2Proof/Machine/PlanData.lean ====
section
/-! DEFINITION. The sample plan as data: its image, entries, segments and cycle, its validation and its SAFETY_DIGEST (R196
to R212, R219, R220). -/

namespace Sys2Proof.Machine

/-! Entries (R200, R201). -/

def eType (e : Word64) : Nat := e.toNat % 16
def eOffset (e : Word64) : Nat := e.toNat / 2 ^ 4 % 2 ^ 21
def eTarget (e : Word64) : Nat := e.toNat / 2 ^ 25 % 2 ^ 6
def eArg (e : Word64) : Nat := e.toNat / 2 ^ 32
def eMask (e : Word64) : Nat := eArg e % 2 ^ 12
def eLength (e : Word64) : Nat := eArg e / 2 ^ 12
def eCode (e : Word64) : Nat := eArg e / 2 ^ 12 % 4

/-- The entry ends its segment: END or JUMP (R198). -/
def eEnds (e : Word64) : Bool := eType e == 0xB || eType e == 0xC

/-- The entry's target is a den with a SETT_MASK (R201). -/
def eMasked (e : Word64) : Bool := [1, 2, 3, 4, 5, 7].contains (eType e)

/-- The entry acts on a sett: its mask names it, or it is a RANGE of it (R201). -/
def eNames (k : SettId) (e : Word64) : Bool :=
  if eMasked e then eTarget e == k.val / 12 && (eMask e).testBit (k.val % 12) else eType e == 6 && eTarget e == k.val

/-- The setts that a masked entry names, in order (R201). -/
def eSetts (e : Word64) : List SettId := allSetts.filter fun k => eMasked e && eNames k e

/-- Samples of a burst length code (R136). -/
def burstLen (code : Nat) : Nat := 256 * 4 ^ code

/-! Banks (R219). -/

/-- An uncorrectable error is in one of n image words from index i on (R218). -/
def Bank.eccIn (b : Bank) (i n : Nat) : Bool := b.upsets.any fun u => decide (i ≤ u.1 ∧ u.1 < i + n) && !u.2

/-- An uncorrectable error is in the bank (R218). -/
def Bank.ecc (b : Bank) : Bool := b.upsets.any fun u => !u.2

/-- The errors that reading n image words from index i on corrects (R218). -/
def Bank.corrected (b : Bank) (i n : Nat) : List (Nat × Bool) := b.upsets.filter fun u => decide (i ≤ u.1 ∧ u.1 < i + n) && u.2

/-- n image words of a bank are read from index i on: errors that the code corrects are counted, and put right (R218). -/
def Plan.readWords (k : Fin 2) (i n : Nat) (p : Plan) : Plan :=
  let fixed := (p.banks[k]).corrected i n
  { p with banks := vmod p.banks k fun b => { b with upsets := b.upsets.filter fun u => !fixed.contains u }
           eccCorrected := p.eccCorrected + fixed.length }

/-- The image words of a full bank (R219). -/
def bankWords : Nat := 8200

def Bank.frameTicks (b : Bank) : Nat := bits (b.header 2) 20 0
def Bank.budget (b : Bank) : Nat := bits (b.header 4) 10 0
def Bank.planId (b : Bank) : Word := b.header 5
def Bank.entry (b : Bank) (i : Nat) : Word64 := b.word (8 + i)

/-- The entries that the header counts, with their indexes. -/
def Bank.entries (b : Bank) : List (Nat × Word64) :=
  ((b.words.filter fun e => 8 ≤ e.1 && e.1 < 8 + b.count).map fun e => (e.1 - 8, e.2))

/-- A segment: the entries from the first of a list to the END or JUMP that ends it (R198). -/
def takeSegment : List (Nat × Word64) → List (Nat × Word64)
  | [] => []
  | e :: t => if eEnds e.2 then [e] else e :: takeSegment t

/-- The segment that begins at an index. -/
def segmentAt (es : List (Nat × Word64)) (i : Nat) : List (Nat × Word64) := takeSegment (es.dropWhile fun e => decide (e.1 < i))

/-- Where the frame after a segment begins, when the segment ends as it should (R198). -/
def segmentNext (seg : List (Nat × Word64)) : Option Nat :=
  seg.getLast?.bind fun e => if eType e.2 = 0xB then some (e.1 + 1) else if eType e.2 = 0xC then some (eArg e.2 % 2 ^ 13) else none

/-- The segments of one pass round the chain from index i, until it returns to index 0 (R198). -/
def chainGo (es : List (Nat × Word64)) (n : Nat) : Nat → Nat → Option (List (List (Nat × Word64)))
  | 0, _ => none
  | k + 1, i =>
    if n ≤ i then none
    else
      let seg := segmentAt es i
      (segmentNext seg).bind fun j => if j = 0 then some [seg] else (chainGo es n k j).map fun t => seg :: t

/-- The plan's cycle, one segment for each frame; none when the chain does not return to index 0 (R198). -/
def Bank.cycle (b : Bank) : Option (List (List (Nat × Word64))) := chainGo b.entries b.count (b.count + 1) 0

/-- An entry at its tick of the cycle, with its index. -/
structure Timed where
  tick : Nat
  idx  : Nat
  e    : Word64
  deriving DecidableEq, Repr

/-- The timed entries of the cycle in order (R208). -/
def timedGo (ft : Nat) : Nat → List (List (Nat × Word64)) → List Timed
  | _, [] => []
  | f, seg :: t => ((seg.filter fun e => !eEnds e.2).map fun e => { tick := f * ft + eOffset e.2, idx := e.1, e := e.2 }) ++
      timedGo ft (f + 1) t

/-- A plan as validation and the sequencer look at it: its frame length, cycle length and timed entries. -/
structure Cycle where
  ft     : Nat
  len    : Nat
  frames : List (List (Nat × Word64))
  timed  : List Timed
  deriving DecidableEq, Repr

def Bank.asCycle (b : Bank) : Cycle :=
  let fs := (b.cycle).getD []
  { ft := b.frameTicks, len := fs.length * b.frameTicks, frames := fs, timed := timedGo b.frameTicks 0 fs }

/-- Ticks from a to b round the cycle. -/
def Cycle.dist (c : Cycle) (a b : Nat) : Nat := if c.len = 0 then 0 else (b + c.len - a % c.len) % c.len

/-- Entries of a type that act on a sett. -/
def Cycle.of (c : Cycle) (type : Nat) (k : SettId) : List Timed := c.timed.filter fun t => eType t.e == type && eNames k t.e

/-! Drivers over the cycle (R119, R202, R209). -/

/-- From each EXC_ON of a sett, its tick and the ticks until the next EXC_OFF; none when no EXC_OFF follows (R209). -/
def Cycle.onSpans (c : Cycle) (k : SettId) : List (Nat × Option Nat) :=
  let offs := (c.of 2 k).map (·.tick)
  (c.of 1 k).map fun a =>
    (a.tick, (offs.map fun o => let d := c.dist a.tick o; if d = 0 then c.len else d).min?)

/-- The driver of a sett is on at a tick, after the tick's entries (R202). -/
def Cycle.onAt (c : Cycle) (k : SettId) (t : Nat) : Bool :=
  (c.onSpans k).any fun x => match x.2 with
    | none => true
    | some d => decide (c.dist x.1 t < d)

/-- The sett counts its ILIM at a tick: while on and for 100 ticks more (R119, R209). -/
def Cycle.countsAt (c : Cycle) (k : SettId) (t : Nat) : Bool :=
  (c.onSpans k).any fun x => match x.2 with
    | none => true
    | some d => decide (c.dist x.1 t < d + 100)

/-- The cyclic state of a sett: its driver state at the end of the cycle (R202). -/
def Cycle.cyclicOn (c : Cycle) (k : SettId) : Bool := decide (0 < c.len) && c.onAt k (c.len - 1)

/-- The longest burst length that the active plan gives a sett, in samples, 0 when it gives none (R301). -/
def Plan.longestBurst (p : Plan) (k : SettId) : Nat :=
  if !p.active then 0
  else (p.bank.entries.map fun e => if eType e.2 = 4 ∧ eNames k e.2 then burstLen (eCode e.2) else 0).foldl max 0

/-- FRAME_TICKS of the active plan, 0 when none is active (R225). -/
def Plan.frameTicks (p : Plan) : Nat := if p.active then p.bank.frameTicks else 0

/-- The next plan-frame boundary: of the active plan, or now when none is active (R196, R314; log entry 46). -/
def State.nextBoundary (s : State) : Nat :=
  let n := s.plan.frameTicks
  if n = 0 then s.tkN else (s.tkN / n + 1) * n

/-- The active plan holds an injection slot for a sett (R152). -/
def Plan.hasInject (p : Plan) (k : SettId) : Bool :=
  p.active && p.bank.entries.any fun e => eType e.2 == 7 && eNames k e.2

/-! Validation (R208 to R211). -/

/-- A check that fails: its code, the entry index and the offset. -/
structure PlanError where
  code   : Nat
  idx    : Nat
  offset : Nat
  deriving DecidableEq, Repr

/-- The failure at an entry. -/
def errAt (code : Nat) (t : Timed) : PlanError := { code := code, idx := t.idx, offset := eOffset t.e }

/-- The failure of no entry in particular. -/
def errPlan (code : Nat) : PlanError := { code := code, idx := 0, offset := 0 }

/-- The offending entry of the lowest index (R208). -/
def lowest (l : List PlanError) : Option PlanError :=
  l.foldl (fun acc e => match acc with
    | none => some e
    | some a => if e.idx < a.idx then some e else some a) none

/-- The first failure of a list of checks. -/
def firstError (l : List (Option PlanError)) : Option PlanError := l.findSome? id

/-- FRAME_TICKS that R196 permits. -/
def frameOk (n : Nat) : Bool := decide (200 ≤ n) && 2000000 % n == 0

/-- Check 0x01 (R196, R219). -/
def headerOk (b : Bank) : Bool :=
  let h := fun k => b.header k
  h 0 == 0x4C50484E && bits (h 1) 15 8 == 1 && resv (h 1) 31 16 && resv (h 2) 31 21 && resv (h 3) 31 14 && resv (h 4) 31 11 &&
  ((List.range 8).all fun k => h (6 + k) == 0) && frameOk b.frameTicks && decide (100 ≤ b.budget) && decide (b.budget ≤ 1200) &&
  h 15 == crcWords ((List.range 15).map h)

/-- The bytes of an entry. -/
def entryBytes (e : Word64) : List Byte := leBytes 8 e.toNat

/-- Check 0x02 (R219). -/
def entriesOk (b : Bank) : Bool :=
  decide (1 ≤ b.count) && decide (b.count ≤ 8192) && b.entries.length == b.count &&
  b.header 14 == crc32c (b.entries.flatMap fun e => entryBytes e.2)

/-- Check 0x03 on one entry (R200, R201). -/
def entryOk (e : Word64) : Bool :=
  let a := eArg e
  let t := eTarget e
  !e.getLsbD 31 &&
  match eType e with
  | 0x0 => t == 0 && a == 0
  | 0x1 | 0x2 | 0x5 => decide (t < 4) && a / 2 ^ 12 == 0
  | 0x3 => decide (t < 4) && decide (1 ≤ eLength e)
  | 0x4 | 0x7 => decide (t < 4) && a / 2 ^ 14 == 0 && eCode e != 3
  | 0x6 => decide (t < 48) && a / 2 ^ 11 == 0
  | 0x8 => decide (t < 4) && a == 0
  | 0x9 => t == 0 && a / 2 ^ 29 == 0 && decide (400 ≤ a / 2 ^ 8) && decide (a / 2 ^ 8 ≤ 2000000)
  | 0xA => t == 0 && a / 2 ^ 16 == 0
  | 0xB => t == 0 && a == 0 && eOffset e == 0
  | 0xC => t == 0 && a / 2 ^ 13 == 0 && eOffset e == 0
  | _ => false

/-- The first entry that a check refuses. -/
def firstBad (code : Nat) (ok : Word64 → Bool) (es : List (Nat × Word64)) : Option PlanError :=
  (es.find? fun e => !ok e.2).map fun e => { code := code, idx := e.1, offset := eOffset e.2 }

/-- The first entry whose offset lies outside the frame or decreases within its segment; `last` is the offset before it (R196,
R198). -/
def firstOffset (ft : Nat) : Nat → List (Nat × Word64) → Option PlanError
  | _, [] => none
  | last, e :: t =>
    if eEnds e.2 then firstOffset ft 0 t
    else if eOffset e.2 < last ∨ ft ≤ eOffset e.2 then some { code := 4, idx := e.1, offset := eOffset e.2 }
    else firstOffset ft (eOffset e.2) t

/-- Check 0x04 (R198). -/
def offsetsError (b : Bank) : Option PlanError := firstOffset b.frameTicks 0 b.entries

/-- Check 0x05 (R198). -/
def structureError (b : Bank) : Option PlanError :=
  let es := b.entries
  match es.getLast? with
  | none => some (errPlan 5)
  | some l =>
    match es.find? fun e => eType e.2 == 0xC && decide (b.count ≤ eArg e.2 % 2 ^ 13) || e.1 == l.1 && !eEnds e.2 with
      | some e => some { code := 5, idx := e.1, offset := eOffset e.2 }
      | none => match b.cycle with
        | none => some (errPlan 5)
        | some fs =>
          let seen := fs.flatMap fun seg => seg.map (·.1)
          (es.find? fun e => !seen.contains e.1).map fun e => { code := 5, idx := e.1, offset := eOffset e.2 }

/-- Two entries at one offset conflict (R199). -/
def conflict (a b : Word64) : Bool :=
  let both := fun (x y : Nat) => eType a == x && eType b == y && eTarget a == eTarget b && eMask a &&& eMask b != 0
  both 1 2 || both 2 1 || both 4 4 || both 7 7 ||
  (eType a == 6 && eType b == 6 && eTarget a == eTarget b && (eArg a &&& eArg b) % 256 != 0)

/-- Check 0x06 on one segment: at most 8 entries at an offset, no conflicting pair (R199). -/
def segmentErrors (seg : List (Nat × Word64)) : List PlanError :=
  let ts := seg.filter fun e => !eEnds e.2
  (ts.filter fun e =>
    let here := ts.filter fun x => eOffset x.2 == eOffset e.2
    (here.countP fun x => decide (x.1 ≤ e.1)) == 9 || here.any fun x => decide (x.1 < e.1) && conflict x.2 e.2).map fun e =>
      { code := 6, idx := e.1, offset := eOffset e.2 }

/-- A burst or slot of a sett lasts this many ticks (R136). -/
def State.lengthOf (s : State) (k : SettId) (t : Timed) : Nat := burstLen (eCode t.e) * s.setTicks k

/-- Check 0x07 of a sett (R197). -/
def State.gridError (s : State) (c : Cycle) (k : SettId) : Option PlanError :=
  let p := s.period k
  if !(s.setts[k]).burstMode && (chansOf k).any (fun x => (s.chans[x]).enable) && p % c.ft != 0 && c.ft % p != 0 then
    some (errPlan 7)
  else none

/-- Check 0x08 of a sett (R142). -/
def State.alignError (s : State) (c : Cycle) (k : SettId) : Option PlanError :=
  if !(s.setts[k]).lowPower then none
  else firstError [lowest ((c.timed.filter fun t => [4, 6, 7].contains (eType t.e) && eNames k t.e && eOffset t.e % 4 != 0).map (errAt 8)),
    if c.ft % 4 = 0 then none else some (errPlan 8)]

/-- The channels that a RANGE entry of a sett masks (R201). -/
def rangeChans (k : SettId) (e : Word64) : List Chan := ((List.finRange 8).filter fun j => (eArg e).testBit j.val).map (chanOf k)

/-- Check 0x09 of a sett (R104, R107). -/
def State.rangeError (s : State) (c : Cycle) (k : SettId) : Option PlanError :=
  lowest (((c.of 6 k).filter fun t =>
    let r := eArg t.e / 2 ^ 8 % 8
    decide (4 < r) || (rangeChans k t.e).any fun x => decide (r < (s.chans[x]).scale.toNat)).map (errAt 9))

/-- Check 0x0A of a sett (R113). -/
def State.rangeBurstError (s : State) (c : Cycle) (k : SettId) : Option PlanError :=
  lowest (((c.of 6 k).filter fun t => (rangeChans k t.e) != [] && (c.of 4 k).any fun b =>
    decide (c.dist b.tick t.tick < s.lengthOf k b) || decide (c.dist t.tick b.tick < 40)).map (errAt 0xA))

/-- Bursts and injection slots of a sett. -/
def Cycle.conversions (c : Cycle) (k : SettId) : List Timed := c.timed.filter fun t => (eType t.e == 4 || eType t.e == 7) && eNames k t.e

/-- Check 0x0B of a sett (R118, R203). -/
def State.settleError (s : State) (c : Cycle) (k : SettId) : Option PlanError :=
  lowest (((c.conversions k).filter fun t =>
    ((s.setts[k]).excMode != 0 && (c.of 1 k).any fun a => decide (c.dist a.tick t.tick < 160)) ||
    (c.of 3 k).any fun f => decide (c.dist f.tick t.tick < eLength f.e)).map (errAt 0xB))

/-- Check 0x0C of a sett (R124). -/
def State.offError (s : State) (c : Cycle) (k : SettId) : Option PlanError :=
  if (s.setts[k]).excMode = 0 then none
  else lowest (((c.of 2 k).filter fun t => (c.of 4 k).any fun b => decide (c.dist b.tick t.tick < s.lengthOf k b)).map (errAt 0xC))

/-- A conversion comes within `gap` ticks after another of its kind, round the cycle. -/
def Cycle.tooClose (c : Cycle) (l : List Timed) (gap : Timed → Nat) (t : Timed) : Bool :=
  l.any fun a =>
    let d := c.dist a.tick t.tick
    if a.tick = t.tick ∧ a.idx = t.idx then decide (c.len < gap a) else decide (d < gap a)

/-- Check 0x0D of a sett (R139). -/
def State.burstError (s : State) (c : Cycle) (k : SettId) : Option PlanError :=
  let bs := c.of 4 k
  if (s.setts[k]).burstMode then lowest ((bs.filter (c.tooClose bs fun b => max 1000 (s.lengthOf k b))).map (errAt 0xD))
  else lowest (bs.map (errAt 0xD))

/-- Check 0x0E of a sett (R208). -/
def State.slotError (s : State) (c : Cycle) (k : SettId) : Option PlanError :=
  let l := c.of 7 k
  lowest ((l.filter (c.tooClose l (s.lengthOf k))).map (errAt 0xE))

/-- The counted current at a tick of the cycle, with the setts of a carried tail (R209, R210). -/
def State.plannedMa (s : State) (c : Cycle) (carried : List SettId) (t : Nat) : Nat :=
  ((allSetts.filter fun k => (s.setts[k]).excMode != 0 && (c.countsAt k t || (decide (t < 100) && carried.contains k))).map s.ilimMa).sum

/-- The ticks at which the counted current can be largest: the start of the cycle and every EXC_ON (R209). -/
def Cycle.loadTicks (c : Cycle) : List Timed := c.timed.filter fun t => eType t.e == 1

/-- PEAK_MA (R209, R210). -/
def State.peakMa (s : State) (c : Cycle) (carried : List SettId) : Nat :=
  ((c.loadTicks.map fun t => s.plannedMa c carried t.tick) ++ [s.plannedMa c carried 0]).foldl max 0

/-- The counted current exceeds the budget (R209, R210). -/
def State.budgetError (s : State) (c : Cycle) (code budget : Nat) (carried : List SettId) : Option PlanError :=
  match lowest ((c.loadTicks.filter fun t => decide (budget < s.plannedMa c carried t.tick)).map (errAt code)) with
  | some e => some e
  | none => if budget < s.plannedMa c carried 0 then some (errPlan code) else none

/-- The setts whose driver is on at a frame boundary of a plan (R210). -/
def Cycle.onAtBoundary (c : Cycle) (k : SettId) : Bool :=
  (List.range c.frames.length).any fun f => c.onAt k ((f + 1) * c.ft - 1)

/-- The burst overhang of a sett in a plan (R210). -/
def State.overhang (s : State) (c : Cycle) (k : SettId) : Nat :=
  ((c.of 4 k).map fun b => b.tick + s.lengthOf k b - (b.tick / c.ft + 1) * c.ft).foldl max 0

/-- The setts whose counting the active plan carries over (R210). -/
def State.carried (s : State) : List SettId :=
  if s.plan.active then
    let c := s.plan.bank.asCycle
    allSetts.filter c.onAtBoundary
  else []

/-- Check 0x10 (R210). -/
def State.carryError (s : State) (c : Cycle) (budget : Nat) : Option PlanError :=
  if !s.plan.active then none
  else
    let old := s.plan.bank.asCycle
    let late := allSetts.map fun k => (k, s.overhang old k)
    let first := (timedGo c.ft 0 (c.frames.take 1))
    firstError [s.budgetError c 0x10 budget s.carried,
      lowest ((first.filter fun t => [2, 4, 6].contains (eType t.e) && late.any fun x => eNames x.1 t.e && decide (t.tick < x.2)).map (errAt 0x10))]

/-- The longest way from one start tick to the next, round the cycle, stays within 2,000,000 ticks (R205, R206). -/
def Cycle.covered (c : Cycle) (starts : List Nat) : Bool :=
  !starts.isEmpty && starts.all fun a =>
    decide (((starts.filterMap fun b => if b = a then none else some (c.dist a b)).min?.getD c.len) ≤ 2000000)

/-- Check 0x11 (R205). -/
def compareError (c : Cycle) : Option PlanError :=
  let steps := c.timed.filter fun t => eType t.e == 8
  let share := fun (a b : Nat) => a == b || (a + 1) % 4 == b || (b + 1) % 4 == a
  firstError [
    if (List.range 4).all fun d => c.covered ((steps.filter fun t => eTarget t.e == d).map (·.tick)) then none else some (errPlan 0x11),
    lowest ((steps.filter fun t => steps.any fun a =>
      if a.idx = t.idx ∧ a.tick = t.tick then decide (c.len < 400)
      else share (eTarget a.e) (eTarget t.e) && decide (c.dist a.tick t.tick < 400)).map (errAt 0x11))]

/-- The window that a PULSE_WIN opens grows by those it overlaps: its length, from its start (R206). -/
def growWindow (c : Cycle) (ws : List Timed) (start : Nat) : Nat → Nat → Nat
  | 0, l => l
  | n + 1, l =>
    let m := (ws.map fun w => let d := c.dist start w.tick; if d < l then d + eArg w.e / 2 ^ 8 else 0).foldl max l
    if m = l then l else growWindow c ws start n m

/-- The merged windows that name an output: start, length and the entry that opens each (R206). -/
def mergedWindows (c : Cycle) (so : Nat) : List (Timed × Nat) :=
  let ws := c.timed.filter fun t => eType t.e == 9 && (eArg t.e).testBit so
  let heads := ws.filter fun w => !ws.any fun v => !(v.tick == w.tick && v.idx == w.idx) &&
    (let d := c.dist v.tick w.tick
     decide (d < eArg v.e / 2 ^ 8) && (d != 0 || decide (v.idx < w.idx)))
  let hs := if heads.isEmpty then ws.take 1 else heads
  hs.map fun h => (h, growWindow c ws h.tick (ws.length + 1) (eArg h.e / 2 ^ 8))

/-- Check 0x12 (R206). -/
def State.windowError (s : State) (c : Cycle) : Option PlanError :=
  match s.owl.block with
  | none => none
  | some b =>
    let used := (List.finRange 8).filter fun n => b.soUsed.getLsbD n.val
    let need := fun (n : Fin 8) => 20 * (s.owl.sos[n]).width.toNat + 400
    let short := used.flatMap fun n => ((mergedWindows c n.val).filter fun w => decide (w.2 < need n)).map fun w => errAt 0x12 w.1
    firstError [lowest short,
      if used.all fun n => c.covered (((mergedWindows c n.val).filter fun w => decide (need n ≤ w.2)).map fun w => w.1.tick) then none
      else some (errPlan 0x12)]

/-- The checks that concern one sett, in the order of the table: the code and the check (R208, R211). -/
def State.settChecks (s : State) (c : Cycle) : List (SettId → Option PlanError) :=
  [s.gridError c, s.alignError c, s.rangeError c, s.rangeBurstError c, s.settleError c, s.offError c, s.burstError c, s.slotError c]

/-- The first failure of one check over setts. -/
def overSetts (ks : List SettId) (f : SettId → Option PlanError) : Option PlanError := lowest (ks.filterMap f)

/-- Validation of a bank, in the order of the table "Validation error codes" (R208). -/
def State.validate (s : State) (b : Bank) : Option PlanError :=
  if b.ecc then some (errPlan 0x13)
  else if !headerOk b then some (errPlan 1)
  else if !entriesOk b then some (errPlan 2)
  else match firstError [firstBad 3 entryOk b.entries, offsetsError b, structureError b] with
    | some e => some e
    | none =>
      let c := b.asCycle
      firstError ([lowest (c.frames.flatMap segmentErrors)] ++ (s.settChecks c).map (overSetts allSetts) ++
        [s.budgetError c 0xF b.budget [], s.carryError c b.budget, compareError c, s.windowError c])

/-- The checks that FLT_START repeats against the active plan: the first that fails, with the first sett for which it fails
(R211, R591). -/
def State.startErrors (s : State) (ks : List SettId) : Option (PlanError × SettId) :=
  let b := s.plan.bank
  let c := b.asCycle
  match (s.settChecks c).findSome? fun f => ks.findSome? fun k => (f k).map fun e => (e, k) with
  | some r => some r
  | none => (s.budgetError c 0xF b.budget []).bind fun e => ks.head?.map fun k => (e, k)

/-! SAFETY_DIGEST (R220). -/

/-- The entry as the digest takes it: none when it is left out, a den entry with its mask reduced to the safety setts. -/
def digestEntry (safety : SettId → Bool) (e : Word64) : Option Word64 :=
  let t := eType e
  if eEnds e || t == 9 then some e
  else if t = 8 then
    (if (allSetts.any fun k => safety k && k.val / 12 == eTarget e) then some e else none)
  else if eMasked e then
    let drop := maskOf 12 fun j => (eMask e).testBit j.val && !(allSetts.any fun k => safety k && k.val == 12 * eTarget e + j.val)
    if eMask e = drop then none else some (BitVec.ofNat 64 (e.toNat - drop * 2 ^ 32))
  else if t = 6 then (if (allSetts.any fun k => safety k && k.val == eTarget e) then some e else none)
  else none

/-- The setts of the safety parameter block in force. -/
def State.blockSett (s : State) (k : SettId) : Bool :=
  match s.owl.block with
  | some b => b.settMask.getLsbD k.val
  | none => false

/-- PD_AFE of a den is on: in Safe-Core only where the safety parameter block names one of its setts (R26). -/
def State.afeOn (s : State) (d : DenId) : Bool := s.sup.mode != .safeCore || (settsOf d).any s.blockSett

/-- SAFETY_DIGEST of a plan (R220, R587). -/
def planDigest (safety : SettId → Bool) (b : Bank) : Nat :=
  digest64 (sha256 (leBytes 4 b.frameTicks ++ b.entries.flatMap fun e => match digestEntry safety e.2 with
    | some x => leBytes 2 e.1 ++ entryBytes x
    | none => []))

end Sys2Proof.Machine
end

