-- ==== Sys2Proof/Machine/Quad.lean ====
section
/-! DEFINITION. Quadrature pairs: phase, position, windows and ramps (R278 to R294). -/

namespace Sys2Proof.Machine

/-- The members of a slot's pair, X and Y (R278). -/
def Slot.memberX (q : Slot) : Chan := ⟨2 * (q.pairBase.toNat % 192), by omega⟩
def Slot.memberY (q : Slot) : Chan := ⟨2 * (q.pairBase.toNat % 192) + 1, by omega⟩

/-- The sett of a slot's pair (R278). -/
def Slot.sett (q : Slot) : SettId := settOf q.memberX

/-- A tap weight in 1/256 code (R154, R282). -/
def Channel.tap256 (x : Channel) : Nat := 256 * x.tap

/-- The trim's share of an offset: round(OX / tap), held within −512 to +511 (R282). -/
def trimShare (offset : Word) (tap256 : Nat) : BitVec 10 := BitVec.ofInt 10 (clamp (-512) 511 (roundDiv offset.toInt tap256))

/-- Coefficients taken at once, with the trims that carry them (R282, R292, R295). -/
def takeCoef (q : Fin 24) (c : QuadCoef) (s : State) : State :=
  let x := s.quad[q]
  s.modSlot q fun y =>
    { y with coef := c, target := c, trimX := trimShare c.ox (s.chans[x.memberX]).tap256
             trimY := trimShare c.oy (s.chans[x.memberY]).tap256 }

/-- POS restarts at PHASE with zero whole cycles and is lost (R292). -/
def restartPos (x : Slot) : Slot :=
  { x with pos := 0, havePhase := false, posLost := true, posInv := x.refRequired, posSet := none, win := QuadWin.empty }

/-- A start event of the pair's sett (R292). -/
def startSlot (q : Fin 24) (s : State) : State :=
  let x := s.quad[q]
  (takeCoef q (x.stored.getD QuadCoef.identity) s).modSlot q fun y => { restartPos y with qualified := false }

/-- The start event of a sett reaches its enabled pairs (R292). -/
def startSlots (k : SettId) (s : State) : State :=
  forEach (List.finRange 24) (fun s q => if (s.quad[q]).enable && (s.quad[q]).sett == k then startSlot q s else s) s

/-! PHASE and POS (R289 to R291). -/

/-- Distance between phases, the shortest way round, with its sign. -/
def phaseStep (was now : Word) : Int := (now - was).toInt

/-- The radius of a sample lies below a fraction of full scale in 1/256 (R284, R290). -/
def radiusBelow (x y : Int) (r : Nat) : Bool := decide (x * x + y * y < ((r * 32768 : Nat) : Int) ^ 2)

/-- The position is lost: POS_LOST and its notice (R291). -/
def losePos (q : Fin 24) (lc : Nat) (s : State) : State :=
  raise (s.modSlot q fun x => { x with posLost := true, posInv := x.posInv || x.refRequired }) 0x0400 (w32 q.val :: words64 lc)

/-- A signed 64-bit count advanced: it holds at its limits, and passing them is reported (R290). -/
def advancePos (pos : Word64) (d : Int) : Word64 × Bool :=
  let v := pos.toInt + d
  let h := clamp (-(2 ^ 63)) (2 ^ 63 - 1) v
  (BitVec.ofInt 64 h, h != v)

/-- POS from a phase with the whole cycles held so far (R291). -/
def posAt (pos : Word64) (ph : Word) : Word64 := (pos &&& 0xFFFFFFFF00000000) ||| ph.setWidth 64

/-- The exponents of the sums that a fit needs, in the order of `QuadWin.mom` (R281). -/
def momPowers : List (Nat × Nat) := (List.range 5).flatMap fun d => (List.range (d + 1)).map fun j => (d - j, j)

/-- The sums with one more sample. -/
def addMom (x y : Int) (m : Vector Int 15) : Vector Int 15 :=
  vmapI m fun n v => let p := momPowers.getD n.val (0, 0); v + x ^ p.1 * y ^ p.2

/-- The statistics of a window after a sample (R281, R283, R284). A full window that was not ended gives way to the next
(log entry 42). -/
def windowSample (x : Slot) (lc : Nat) (excluded : Bool) (step : Option Nat) (ph : Word) (xv yv : Int) : QuadWin :=
  let w := if 2 ^ x.winLog2.toNat ≤ x.win.n then QuadWin.empty else x.win
  let w1 := { w with n := w.n + 1, firstLc := if w.n = 0 then lc else w.firstLc, lastLc := lc
                     still := w.still + b2n (match step with
                       | some d => decide (d < 2 ^ 20)
                       | none => false)
                     travel := if w.n = 0 then 0 else w.travel + step.getD 0 }
  if excluded then { w1 with excluded := w1.excluded + 1 }
  else { w1 with sectors := w1.sectors ||| BitVec.ofNat 16 (2 ^ (ph.toNat / 2 ^ 28))
                 radius := w1.radius + isqrt (xv * xv + yv * yv).toNat, mom := addMom xv yv w1.mom }

/-- The flags that exclude a sample from the fit (R283). -/
def excludes (f : Byte) : Bool := hasF f (flagOvr ||| flagStl ||| flagInv ||| flagRet)

/-- A PHASE and its POS as the reduction engine takes them (R289, R290). -/
def quadInputs (tick : Nat) (fl : Byte) (bad low ovl : Bool) (x : Slot) : InWord × InWord :=
  let f := fl ||| whenF (bad || low) flagInv
  ({ tick := tick, value := x.phase.toNat, flags := f },
   { tick := tick, value := x.pos.toInt, flags := f ||| whenF ovl flagOvr ||| whenF x.posInv flagInv })

/-- One tick of a pair: PHASE, POS, the window, and the words the projections take (R283, R289 to R291). -/
def quadTick (q : Fin 24) (tick lc : Nat) (wx wy : Word) (s : State) : State :=
  let x := s.quad[q]
  let fl := sampleFlags wx ||| sampleFlags wy
  let bad := hasF fl (flagInv ||| flagRet)
  let xv := sampleValue wx
  let yv := sampleValue wy
  let low := !bad && radiusBelow xv yv x.radMin.toNat
  let p0 := phaseOf xv yv
  let ph := if bad then x.phase else if x.invert then -p0 else p0
  let d := phaseStep x.phase ph
  let step : Option Nat := if bad || !x.havePhase then none else some d.natAbs
  -- POS_SET loads at the next word, whatever the word is (R295)
  let x1 := match x.posSet with
    | some v => { x with pos := v, posSet := none, posLost := false, posInv := false }
    | none => x
  let lost := (bad && (x.havePhase || !x1.posLost)) || (match step with
    | some n => decide (3 * 2 ^ 29 < n)
    | none => false)
  let adv := if bad then (x1.pos, false)
    else if x.posSet.isSome then (x1.pos, false)
    else if x.havePhase then advancePos x1.pos d
    else (posAt x1.pos ph, false)
  let x2 := { x1 with phase := ph, pos := adv.1, havePhase := !bad, signalLow := low
                      win := if x.adapt then windowSample x lc (excludes fl) step ph xv yv else QuadWin.empty }
  let s1 := s.modSlot q fun _ => x2
  let s2 := if lost then losePos q lc s1 else s1
  s2.modRed fun r => { r with quadHist := vmod r.quadHist q fun l =>
    (quadInputs tick fl bad low adv.2 s2.quad[q] :: l).takeWhile fun e => decide (tick < e.1.tick + 4000000) }

/-- The pairs of a sett after the words of one tick (R289). -/
def quadTicks (k : SettId) (tick lc : Nat) (ws : Vector Word 8) (s : State) : State :=
  forEach (List.finRange 24) (fun s q =>
    let x := s.quad[q]
    if x.enable && x.sett == k then
      quadTick q tick lc ws[x.memberX.val % 8] ws[x.memberY.val % 8] s
    else s) s

/-! Windows and ramps (R284 to R286). -/

/-! The fit (R281; log entry 219). -/

/-- A polynomial in X and Y: coefficients with exponents. -/
abbrev Poly := List (Rat × Nat × Nat)

/-- The sum over the qualified samples of the product of two polynomials of degree 2 at most. -/
def QuadWin.inner (w : QuadWin) (p q : Poly) : Rat :=
  (p.flatMap fun a => q.map fun b =>
    let d := a.2.1 + a.2.2 + b.2.1 + b.2.2
    a.1 * b.1 * ((w.mom.toList.getD (d * (d + 1) / 2 + a.2.2 + b.2.2) 0 : Int) : Rat)).sum

/-- The parts of the conic a·(X² − Y²) + b·XY + d·X + e·Y + f + Y², whose squares count a and 1 − a (R281). -/
def conicBasis : List Poly := [[(1, 2, 0), (-1, 0, 2)], [(1, 1, 1)], [(1, 1, 0)], [(1, 0, 1)], [(1, 0, 0)]]

/-- The part that has no unknown. -/
def conicFixed : Poly := [(1, 0, 2)]

/-- One unknown removed from the rows of a linear system by a row that has it. -/
def eliminate (pivot : List Rat) (row : List Rat) : List Rat :=
  let f := row.headD 0 / pivot.headD 1
  List.zipWith (fun r p => r - f * p) row.tail pivot.tail

/-- The solution of a linear system, each row with its right side last; none when it has no single one. -/
def solve : Nat → List (List Rat) → Option (List Rat)
  | 0, _ => some []
  | n + 1, rows =>
    match rows.find? fun r => r.headD 0 != 0 with
    | none => none
    | some p =>
      (solve n ((rows.erase p).map (eliminate p))).map fun xs =>
        ((p.getLastD 0 - (List.zipWith (· * ·) p.tail xs).sum) / p.headD 1) :: xs

/-- The conic of least squares through the qualified samples: a, b, d, e and f (R281). -/
def QuadWin.conic (w : QuadWin) : Option (List Rat) :=
  solve 5 (conicBasis.map fun p => conicBasis.map (w.inner p) ++ [-(w.inner p conicFixed)])

/-- What a fit derives: the offsets in codes, A² in codes², K², the phase error's sine times 2·√(a·c) as its parts, and the mean square
of the conic's residual with the scale that makes it radial (R281, R284). -/
structure ConicFit where
  ox  : Rat
  oy  : Rat
  a   : Rat
  b   : Rat
  c   : Rat
  /-- −F at the centre -/
  g   : Rat
  /-- mean square of the algebraic residual -/
  msq : Rat
  deriving DecidableEq, Repr

/-- The fit of a window; none when its samples lie on no single ellipse (R281). -/
def QuadWin.fit (w : QuadWin) : Option ConicFit :=
  match w.conic with
  | some [a, b, d, e, f] =>
    let c := 1 - a
    let det := 4 * a * c - b * b
    if a ≤ 0 ∨ c ≤ 0 ∨ det ≤ 0 then none
    else
      let ox := (b * e - 2 * c * d) / det
      let oy := (b * d - 2 * a * e) / det
      let g := -(f + (d * ox + e * oy) / 2)
      let all := (List.zipWith (fun k (p : Poly) => p.map fun m => (k * m.1, m.2)) [a, b, d, e, f] conicBasis).flatten ++ conicFixed
      if g ≤ 0 then none
      else some { ox := ox, oy := oy, a := a, b := b, c := c, g := g, msq := w.inner all all / (w.n - w.excluded : Nat) }
  | _ => none

/-- A² of the fit: a is 1/A² in the scale of the conic, and g is cos² φ in it (R281). -/
def ConicFit.ampSq (f : ConicFit) : Rat := f.g * 4 * f.c / (4 * f.a * f.c - f.b * f.b)

/-- The square root of a non-negative rational times 2^k, rounded down. -/
def ratSqrt (q : Rat) (k : Nat) : Nat := isqrt (q * 4 ^ k).floor.toNat

/-- φ of the fit in 2^-32 turn, to 2^-24 turn: its tangent is −b over √(4·a·c − b²) (R281). -/
def ConicFit.phi (f : ConicFit) : Int :=
  let u : Int := ratSqrt (4 * f.a * f.c - f.b * f.b) 60
  let v : Int := (absR f.b * 2 ^ 60).floor
  let m : Int := (angleGo 22 0 u v * 256 : Nat)
  if f.b ≤ 0 then m else -m

/-- The rms radial residual is at most 2 % of A: the residual of the conic over its slope along the radius (R284). -/
def ConicFit.close (f : ConicFit) : Bool :=
  let s := f.a * f.ampSq
  decide (f.msq * 2500 ≤ 4 * s * s)

/-- The estimate: what the fit of the corrected samples derives, added to the corrections in force (R281). -/
def ConicFit.estimate (f : ConicFit) (c : QuadCoef) : Int × Int × Int × Int :=
  (c.ox.toInt - ratRound (f.ox * 256), c.oy.toInt - ratRound (f.oy * 256), c.k.toNat + (ratSqrt (f.c / f.a) 30 : Int) - 2 ^ 30,
   c.phi.toInt + f.phi)

/-- The bounds of an estimate: both offsets within 25 % of A, K within 0.5 to 2.0, φ within 15° (R284). -/
def estimateOk (amp : Nat) (e : Int × Int × Int × Int) : Bool :=
  decide (4 * e.1.natAbs ≤ 256 * amp) && decide (4 * e.2.1.natAbs ≤ 256 * amp) && decide (2 ^ 29 ≤ e.2.2.1) && decide (e.2.2.1 ≤ 2 ^ 31) &&
  decide (24 * e.2.2.2.natAbs ≤ 2 ^ 32)

/-- A of a fit, in codes. -/
def ConicFit.amplitude (f : ConicFit) : Nat := ratSqrt f.ampSq 0

/-- The first qualification condition that fails, 0 when all hold (R284). -/
def freezeReason (x : Slot) (fit : Option ConicFit) : BitVec 3 :=
  let w := x.win
  let n := 2 ^ x.winLog2.toNat
  let used := w.n - w.excluded
  if n < 8 * w.excluded then 1
  else if popCount 16 w.sectors.toNat < 12 then 2
  else if w.travel * 1000000000 < x.minSpeed.toNat * 2 ^ 32 * (w.lastLc - w.firstLc) || n < 4 * w.still then 3
  else if w.radius < x.radMin.toNat * 32768 * used || 95 * 2 ^ 23 * used < 100 * w.radius then 4
  else match fit with
    | none => 5
    | some f => if !f.close then 5 else if !estimateOk f.amplitude (f.estimate x.coef) then 6 else 0

/-- The slot runs: it is enabled, and its sett is not shed in Safe-Core (R294). -/
def State.slotRuns (s : State) (q : Fin 24) : Bool := (s.quad[q]).enable && !(s.setts[(s.quad[q]).sett]).shed

/-- What the end of a full window makes of a slot (R281, R284, R285). -/
def endQuadWindow (y : Slot) : Slot :=
  let r := freezeReason y y.win.fit
  match y.win.fit with
  | some f =>
    if r = 0 then
      let e := f.estimate y.coef
      { y with win := QuadWin.empty, freeze := 0, qualified := true, everQualified := true, winOk := satInc y.winOk
               amplitude := BitVec.ofNat 24 f.amplitude
               target := { ox := w32i e.1, oy := w32i e.2.1, k := w32i e.2.2.1, phi := w32i e.2.2.2 } }
    else { y with win := QuadWin.empty, freeze := r, winRejected := satInc y.winRejected }
  | none => { y with win := QuadWin.empty, freeze := r, winRejected := satInc y.winRejected }

/-- QUAD_WINDOW_END: the engine has fitted a full window by LC `lc`; the window qualifies and sets new targets, or is rejected (R281,
R284, R285, R294). -/
def execQuadWindowEnd (slot : Fin 24) (lc : Nat) (s : State) : Out :=
  let x := s.quad[slot]
  guardNext (s.slotRuns slot && x.adapt && 2 ^ x.winLog2.toNat == x.win.n) s ((atLc lc s).modSlot slot endQuadWindow)

/-- A value moved by at most `step` towards a target. -/
def approach (v target : Int) (step : Nat) : Int :=
  if v < target then min (v + step) target else max (v - step) target

/-- Offset and trim of one member moved by one interval: the trim by one tap, the digital part by at most one tap weight
(R286). -/
def approachOffset (offset : Word) (trim : BitVec 10) (target : Word) (tap : Nat) : Word × BitVec 10 :=
  let tt := (trimShare target (256 * tap)).toInt
  let t := approach trim.toInt tt 1
  let d := approach (digitalPart offset trim tap) (target.toInt - tt * (256 * tap)) (256 * tap)
  (w32i (d + t * (256 * tap)), BitVec.ofInt 10 t)

/-- The next boundary of intervals counted on LC from `start`: the number of the interval that comes after `done` and is
not past (R161, R286). -/
def nextInterval (start done step lc : Nat) : Nat := max (done + 1) ((lc - start + step - 1) / step)

/-- All coefficients equal their targets (R296). -/
def Slot.atTarget (x : Slot) (tapX tapY : Nat) : Bool :=
  x.coef == x.target && x.trimX == trimShare x.target.ox (256 * tapX) && x.trimY == trimShare x.target.oy (256 * tapY)

/-- QUAD_ADJUST_INTERVAL: trims, offsets, K and PHI step towards their targets. A slot that is FROZEN, that does not adapt or whose sett is
shed keeps its coefficients where they stand (R284 to R286, R294). -/
def execQuadAdjustInterval (slot : Fin 24) (s : State) : Out :=
  let x := s.quad[slot]
  let tx := (s.chans[x.memberX]).tap
  let ty := (s.chans[x.memberY]).tap
  guardNext (s.slotRuns slot && x.freeze == 0) s <|
    let n := nextInterval x.enableLc x.intervals (adjNs x.adjMs) s.lcN
    (atLc (x.enableLc + n * adjNs x.adjMs) s).modSlot slot fun y =>
      let a := approachOffset y.coef.ox y.trimX y.target.ox tx
      let b := approachOffset y.coef.oy y.trimY y.target.oy ty
      { y with intervals := n, trimX := a.2, trimY := b.2
               coef := { ox := a.1, oy := b.1, k := w32i (approach y.coef.k.toNat y.target.k.toNat 65536)
                         phi := w32i (approach y.coef.phi.toInt y.target.phi.toInt 65536) } }

/-- Intervals that a move takes in steps. -/
def intervalsFor (v target : Int) (step : Nat) : Nat := ((target - v).natAbs + step - 1) / step

/-! Slots of the block in force (R294). -/

/-- Slots that a projection term of the block in force names (R294, R299). -/
def Block.namesSlot (b : Block) (q : Nat) : Bool :=
  b.prjs.any fun p => p.2.terms.any fun t =>
    let w := t.setWidth 32
    (bits w 2 0 == 2 || bits w 2 0 == 3) && bits w 11 3 == q

/-- A command on a unit that the commissioned block names is refused outside Test (R164, R294, R309). -/
def State.safeLocked (s : State) (named : Block → Bool) : Bool :=
  s.sup.mode != .test && (match s.owl.block with
    | some b => named b
    | none => false)

end Sys2Proof.Machine
end

