-- ==== Sys2Proof/Machine/Reduce.lean ====
section
/-! DEFINITION. The reduction engine: accumulators, min-max trackers, projections and feeds (R297 to R316, R428 to R431). -/

namespace Sys2Proof.Machine

/-! Window ends (R311). -/

/-- ACC_WINDOW_END: a whole window ends (R311). -/
def execAccWindowEnd (kind : AccKind) (idx : Chan) (s : State) : Out :=
  guardNext (((s.acc kind idx.val).map Acc.full).getD false) s (endWindow kind idx.val false s)

/-- RAW_ACC_WINDOW_END: a raw window ends and the rms values are compared (R146). -/
def execRawAccWindowEnd (ch : Chan) (s : State) : Out :=
  guardNext (s.red.accRaw[ch]).full s (endWindow .raw ch.val false s)

/-! Feeds (R304, R430, R431). -/

/-- The class of feed traffic: SAFETY or SAMPLE (R304). -/
def feedClass (safety : Bool) : Nat := if safety then 0 else 3

/-- A feed entry (R431). -/
def feedEntry (isPrj : Bool) (index low : Nat) (word : Word) (tick : Nat) : List Word :=
  [w32 (fld 0 9 index + flag 9 isPrj + fld 24 8 low), word] ++ words64 tick

/-- The feed words of one tick go to the hubs that take them, one frame for each destination and class (R304, R431; log
entry 44). Safe-Core sheds those of class SAMPLE (R27). -/
def sendFeeds (isPrj : Bool) (tick : Nat) (words : List (Nat × Nat × Word)) (s : State) : State :=
  let dests := ((s.red.served.filter fun x => x.safety || s.sup.mode != .safeCore).map fun x => (x.hub, x.safety)).eraseDups
  forEach dests (fun s d =>
    let mine := words.filter fun w => s.red.served.any fun x =>
      x.hub == d.1 && x.safety == d.2 && x.isPrj == isPrj && x.index.toNat == w.1
    if mine.isEmpty then s
    else sendFrame (mkFrame s (feedClass d.2) 0x02 false false d.1 none
      (mine.flatMap fun w => feedEntry isPrj w.1 w.2.1 w.2.2 tick)) s) s

/-! Terms (R299 to R303). -/

def tSrc (t : Word64) : Nat := t.toNat % 8
def tIndex (t : Word64) : Nat := t.toNat / 2 ^ 3 % 2 ^ 9
def tHub (t : Word64) : BitVec 10 := t.extractLsb' 12 10
def tHold (t : Word64) : Bool := t.getLsbD 22
def tSet (t : Word64) : Nat := t.toNat / 2 ^ 23 % 4
def tShift (t : Word64) : Nat := t.toNat / 2 ^ 25 % 64
def tCoef (t : Word64) : Int := (t.extractLsb' 32 32).toInt

/-- The term belongs to the primary set (1) or the fallback set (2). -/
def inSet (k : Nat) (t : Word64) : Bool := (tSet t).testBit (k - 1)

/-- T_AN in whole ns, rounded up (R301). -/
def State.tAnUp (s : State) (k : SettId) : Nat := (s.factory.tAnPs[k] + 999) / 1000

/-- The arrival bound of a local channel in ns (R301). -/
def State.chanBound (s : State) (c : Chan) : Nat :=
  let k := settOf c
  if (s.setts[k]).burstMode then (s.plan.longestBurst k + 1) * 50 * s.setTicks k / 2 + 2000
  else if s.linear k then s.declaredNs k + 2000
  else s.declaredNs k + s.tAnUp k + 2000

/-- The arrival bound of a pair's PHASE and POS (R301). -/
def State.slotBound (s : State) (q : Nat) : Nat :=
  match finOf 24 q with
  | some q => s.chanBound (s.quad[q]).memberX + 1000
  | none => 0

/-- The feed of a remote term. -/
def State.feedOf (s : State) (hub : BitVec 10) (isPrj : Bool) (index : Nat) : Option Feed :=
  s.red.feeds.find? fun f => f.hub == hub && f.isPrj == isPrj && f.index.toNat == index

/-- The arrival bound of a term in ns; a latch term has none (R301). A remote source that has not announced its bound yet
counts with its transit allowance alone (log entry 45). -/
def State.termBound (s : State) (d : PrjDef) (t : Word64) : Nat :=
  let i := tIndex t
  match tSrc t with
  | 0 => ((chanAt i).map s.chanBound).getD 0
  | 1 => 0
  | 2 | 3 => s.slotBound i
  | 4 => ((finOf 64 i).map fun p => (s.prj p).latencyNs + 1000).getD 0
  | n => ((s.feedOf (tHub t) (n == 6) i).map (·.boundNs)).getD 0 + d.remoteLat.toNat * 1000

/-- The largest arrival bound of a projection's terms. -/
def State.prjBound (s : State) (d : PrjDef) : Nat := (d.terms.map (s.termBound d)).foldl max 0

/-- LATENCY of a projection: the largest bound rounded up to a whole microsecond (R301). -/
def State.prjLatency (s : State) (d : PrjDef) : Nat := (s.prjBound d + 999) / 1000 * 1000

/-- The projection is named in the block in force (R309). -/
def Block.namesPrj (b : Block) (p : Nat) : Bool := b.prjs.any fun x => x.1 == p

/-- A projection of the block in force. -/
def State.blockPrj (s : State) (p : Nat) : Bool :=
  match s.owl.block with
  | some b => b.namesPrj p
  | none => false

/-- A source's bound has grown beyond a LATENCY: PRJ_LATE, once for each enable (R303). -/
def judgeLate (s : State) : State :=
  forEach (List.finRange 64) (fun s p =>
    let x := s.prj p
    if x.enabled && !x.lateRaised && x.latencyNs < s.prjBound x.defn then
      raise (s.modPrj p fun x => { x with lateRaised := true }) 0x100B [w32 p.val]
    else s) s

/-- A FEED_REQ frame (R430). -/
def sendFeedReq (hub : BitVec 10) (words : List Word) (s : State) : State :=
  sendFrame (mkFrame s 2 0x06 false false hub none words) s

/-- The arrival bound of a local input, as announced (R301, R430). -/
def State.localBound (s : State) (w : Word) : Nat :=
  if bit w 9 then ((finOf 64 (bits w 8 0)).map fun p => (s.prj p).latencyNs + 1000).getD 0
  else ((chanAt (bits w 8 0)).map s.chanBound).getD 0

/-- An input word of a feed served. -/
def Served.word (x : Served) : Word := w32 (x.index.toNat + flag 9 x.isPrj)

/-- The arrival bounds of feeds served that have changed are announced again, in one answer for each hub and class (R430). -/
def announceBounds (s : State) : State :=
  let news := s.red.served.filter fun x => x.told != s.localBound x.word
  let s1 := s.modRed fun r => { r with served := r.served.map fun x => { x with told := s.localBound x.word } }
  forEach ((news.map fun x => (x.hub, x.safety)).eraseDups) (fun s1 d =>
    let mine := news.filter fun x => x.hub == d.1 && x.safety == d.2
    sendFeedReq d.1 (w32 (flag 0 true + flag 1 d.2 + flag 2 true) :: mine.flatMap fun x => [x.word, w32 (s.localBound x.word)]) s1) s1

/-- What follows where arrival bounds may have changed: PRJ_LATE events, and the bounds announced to other hubs (R303, R430). -/
def judgeBounds (s : State) : State := announceBounds (judgeLate s)

/-- A word of an input arrived whose projection tick has been computed: it counts as LATE on every projection that takes it
EXACT (R303). Ticks before the first of the run were never computed. -/
def countLate (isTerm : Word64 → Bool) (tick : Nat) (s : State) : State :=
  forEach (List.finRange 64) (fun s p =>
    let x := s.prj p
    if x.enabled && decide (x.fromTick ≤ tick) && decide (tick < x.nextTick) && tick % x.defn.period.toNat == 0 &&
        x.defn.terms.any (fun t => isTerm t && !tHold t) then
      s.modPrj p fun x => { x with late := satInc x.late }
    else s) s

/-- The words of an input that are kept: no projection asks for one more than 200 ms of ticks before the newest. -/
def keepWords (w : InWord) (l : List InWord) : List InWord := w :: l.takeWhile fun e => decide (w.tick < e.tick + 4000000)

/-- The word of a tick, if it is there (R302). -/
def exactWord (l : List InWord) (g : Nat) : Option InWord := l.find? fun w => w.tick == g

/-- The word that a HOLD term takes at tick g: the most recent at or before g whose bound has elapsed by the compute instant,
no more than HOLD_MAX_TICKS old (R302). -/
def holdWord (s : State) (l : List InWord) (g bound holdMax : Nat) (at_ : Int) : Option InWord :=
  (l.find? fun w => decide (w.tick ≤ g) && decide (s.lcOfTick w.tick + s.lcSpan bound * 256 ≤ at_)).bind fun w =>
    if g ≤ w.tick + holdMax then some w else none

/-- The latched value of a channel as an input word, with the tick of its input instant (R204, R301). The register is taken as
it stands, so its tick may follow g (R302). -/
def latchWord (s : State) (c : Chan) (g holdMax : Nat) : Option InWord :=
  (s.chans[c]).latch.bind fun r =>
    let tick := (s.tickOfLc ((r.stamp : Int) - s.lcSpan r.delay)).toNat
    if g ≤ tick + holdMax then some { tick := tick, value := sampleValue r.word, flags := sampleFlags r.word } else none

/-- POS as a term takes it: shifted right, then held at the signed 32-bit limits (R299). -/
def posInput (shift : Nat) (w : InWord) : InWord :=
  let v := w.value / 2 ^ shift
  let h := clamp (-(2 ^ 31)) (2 ^ 31 - 1) v
  { w with value := h, flags := w.flags ||| whenF (h != v) flagOvr }

/-- A list of words read EXACT or HOLD. -/
def pick (s : State) (d : PrjDef) (t : Word64) (g : Nat) (at_ : Int) (l : List InWord) : Option InWord :=
  if tHold t then holdWord s l g (s.termBound d t) d.holdMax.toNat at_ else exactWord l g

/-- The input word of a term at projection tick g, none when it is missing (R299, R302, R303, R429). -/
def termInput (s : State) (p : Nat) (d : PrjDef) (t : Word64) (g : Nat) (at_ : Int) : Option InWord :=
  let i := tIndex t
  match tSrc t with
  | 0 => (chanAt i).bind fun c => pick s d t g at_ s.red.chanHist[c]
  | 1 => (chanAt i).bind fun c => latchWord s c g d.holdMax.toNat
  | 2 => (finOf 24 i).bind fun q => exactWord (s.red.quadHist[q].map (·.1)) g
  | 3 => (finOf 24 i).bind fun q => (exactWord (s.red.quadHist[q].map (·.2)) g).map (posInput (tShift t))
  | 4 => (finOf 64 i).bind fun j => exactWord (s.prj j).out g
  | n =>
    if s.excludedHub (tHub t) (s.blockPrj p) then none
    else (s.feedOf (tHub t) (n == 6) i).bind fun f => if f.opened then pick s d t g at_ f.words else none

/-- A term set is unusable: an input is missing or carries INV or RET, or it has no terms (R305). -/
def setUsable (ins : List (Word64 × Option InWord)) : Bool :=
  !ins.isEmpty && ins.all fun x => match x.2 with
    | some w => !hasF w.flags (flagInv ||| flagRet)
    | none => false

/-- Division by 2^n rounded to nearest, ties away from zero (R297). -/
def shiftRound (acc : Int) (n : Nat) : Int :=
  if acc < 0 then -((2 * -acc + 2 ^ n) / 2 ^ (n + 1)) else (2 * acc + 2 ^ n) / 2 ^ (n + 1)

/-- P of a term set, with OVR when a limit held it (R297). -/
def prjValue (ins : List (Word64 × Option InWord)) (offset : Word64) (outShift : Nat) : Int × Bool :=
  let acc := ins.foldl (fun a x => a + tCoef x.1 * ((x.2.map (·.value)).getD 0)) offset.toInt
  let a1 := clamp (-(2 ^ 63 - 1)) (2 ^ 63 - 1) acc
  let p := shiftRound a1 outShift
  let p1 := clamp (-2147483392) 2147483647 p
  (p1, a1 != acc || p1 != p)

/-- The flags that an output takes from its inputs (R306). -/
def prjFlagMask : Byte := flagOvr ||| flagStl ||| flagTu ||| flagLp ||| flagCalx

/-- The result of a projection at a tick: P, the flags and FALLBACK (R297, R305, R306). -/
structure PrjOut where
  p        : Int
  flags    : Byte
  fallback : Bool
  deriving DecidableEq, Repr

def prjResult (d : PrjDef) (ins : List (Word64 × Option InWord)) (tu : Bool) : PrjOut :=
  let one := fun (k : Nat) => ins.filter fun x => inSet k x.1
  let use := fun (k : Nat) (offset : Word64) =>
    let v := prjValue (one k) offset d.outShift.toNat
    let fl := ((one k).foldl (fun (f : Byte) x => f ||| ((x.2.map (·.flags)).getD 0)) 0) &&& prjFlagMask
    { p := v.1, flags := fl ||| whenF v.2 flagOvr ||| whenF tu flagTu, fallback := k == 2 : PrjOut }
  if setUsable (one 1) then use 1 d.offsetP
  else if setUsable (one 2) then use 2 d.offsetF
  else { p := -2147483648, flags := flagInv ||| whenF tu flagTu, fallback := false }

/-- The sample word of a projection (R298). -/
def prjWord (o : PrjOut) : Word := w32 (fld 8 24 (lowBits 24 (o.p / 256)) + o.flags.toNat)

/-- A projection entry (R307). -/
def prjEntry (i : Nat) (stamp : Nat) (o : PrjOut) : List Word :=
  words64 stamp ++ [prjWord o, w32 (fld 0 8 (lowBits 8 o.p) + fld 8 6 i + flag 14 o.fallback)]

/-- The output of a projection reaches stream 48, its accumulator and tracker, the projections that take it and the hubs
that it is served to (R307, R308). -/
def putOutput (p : Fin 64) (g stamp : Nat) (o : PrjOut) (s : State) : State :=
  let w : InWord := { tick := g, value := o.p, flags := o.flags }
  let s1 := s.modPrj p fun x =>
    { x with out := keepWords w x.out, fallbacks := if o.fallback then satInc x.fallbacks else x.fallbacks }
  let s2 := deliver { stream := 48, stamp := stamp, delay := 0, preset := 7, coded := false, count := 1, tick := none
                      words := prjEntry p.val stamp o } s1
  let s3 := countLate (fun t => tSrc t == 4 && tIndex t == p.val) g
    (modMinMax .projection p.val (fun m => m.take o.p o.flags stamp) (accumulate .projection p.val o.p o.flags stamp s2))
  sendFeeds true g [(p.val, lowBits 8 o.p, prjWord o)] s3

/-- The inputs that are missing, each once (R303). -/
def missingInputs (ins : List (Word64 × Option InWord)) : Nat :=
  (((ins.filter fun x => x.2.isNone).map fun x => x.1 &&& 0x7FFFFF).eraseDups).length

/-- The engine evaluates the projection: it is enabled, and in Safe-Core it is one of the block's (R309). -/
def State.prjRuns (s : State) (p : Fin 64) : Bool :=
  (s.prj p).enabled && s.served && s.time.sclk && (s.sup.mode != .safeCore || s.blockPrj p.val)

/-- The compute instant of a projection's next tick, in 1/256 ns (R302). -/
def State.prjDue (s : State) (p : Fin 64) : Int := s.lcOfTick (s.prj p).nextTick + s.lcSpan (s.prj p).latencyNs * 256

/-- No other projection that runs computes before this one: in the order of the compute instants, and in PRJ order where they
coincide (R307). -/
def State.prjFirst (s : State) (p : Fin 64) : Bool :=
  (List.finRange 64).all fun q =>
    !s.prjRuns q || decide (s.prjDue p < s.prjDue q) || (s.prjDue p == s.prjDue q && decide (p ≤ q))

/-- PRJ_COMPUTE: a projection's next tick is computed at its instant plus LATENCY, in its turn (R302, R307). -/
def execPrjCompute (prj : Fin 64) (s : State) : Out :=
  guardNext (s.prjRuns prj && s.prjFirst prj) s <|
    let x := s.prj prj
    let g := x.nextTick
    let due := s.prjDue prj
    let s1 := atLc (due / 256).toNat s
    let stamp := nearNs (s1.lcOfTick g)
    let ins := x.defn.terms.map fun t => (t, termInput s1 prj.val x.defn t g due)
    let o := prjResult x.defn ins (s1.tuAt stamp)
    putOutput prj g stamp o (s1.modPrj prj fun x =>
      { x with nextTick := g + x.defn.period.toNat, missing := satAdd x.missing (missingInputs ins) })

/-- The first projection tick at or after a tick (R297, R314). -/
def firstTick (period tk : Nat) : Nat := if period = 0 then tk else (tk + period - 1) / period * period

/-- A projection's ticks begin at the first projection tick at or after a tick, with no output before it (R297, R314). -/
def Prj.startAt (x : Prj) (tk : Nat) : Prj :=
  { x with nextTick := firstTick x.defn.period.toNat tk, fromTick := firstTick x.defn.period.toNat tk, out := [] }

/-- The projections go on from a tick after a jump of TK (R237). -/
def realignPrjs (tk : Nat) (s : State) : State := s.modRed fun r => { r with prjs := r.prjs.map fun x => x.startAt tk }

/-! Words of channels. -/

/-- The PHASE and POS of a sett's pairs at a tick count as LATE where the tick has been computed (R303). -/
def lateSlots (k : SettId) (tick : Nat) (s : State) : State :=
  forEach (List.finRange 24) (fun s q =>
    if (s.quad[q]).enable && (s.quad[q]).sett == k then
      countLate (fun t => tSrc t == 3 && tIndex t == q.val) tick (countLate (fun t => tSrc t == 2 && tIndex t == q.val) tick s)
    else s) s

/-- The 8 words of one tick of a sett reach the engine: histories, accumulators, trackers, pairs and feeds (R289, R301,
R304, R310, R312). -/
def produceWords (k : SettId) (tick stamp : Nat) (ws : Vector Word 8) (s : State) : State :=
  let s1 := forEach (List.finRange 8) (fun s j =>
    let c := chanOf k j
    let w := ws[j]
    let v := sampleValue w
    let fl := sampleFlags w
    let h : InWord := { tick := tick, value := v, flags := fl }
    let s1 := s.modRed fun r => { r with chanHist := vmod r.chanHist c (keepWords h) }
    let s2 := countLate (fun t => tSrc t == 0 && tIndex t == c.val) tick s1
    let s3 := if hasF fl flagInv then s2
      else modAcc .raw c.val (fun a => { a with out := (a.out.1 + v, a.out.2.1 + v.natAbs ^ 2, a.out.2.2 + 1) }) s2
    modMinMax .channel c.val (fun m => m.take v fl stamp) (accumulate .channel c.val v fl stamp s3)) s
  let s2 := lateSlots k tick (quadTicks k tick stamp ws s1)
  sendFeeds false tick ((List.finRange 8).map fun j => ((chanOf k j).val, 0, ws[j])) s2

/-- The windows of a sett's words in progress end with PARTIAL (R311). -/
def endSettWindows (k : SettId) (s : State) : State :=
  forEach (chansOf k) (fun s c => endWindow .channel c.val true s) s

/-! PRJ_DEFINE (R300, R313). -/

/-- The terms of a definition from its words. -/
def termsOf : List Word → List Word64
  | a :: b :: t => (b ++ a) :: termsOf t
  | _ => []

/-- A definition from parameter words 0 onward (R313). -/
def prjDefOf (ws : List Word) : PrjDef :=
  { terms := termsOf (ws.drop 8), outShift := (pw ws 0).extractLsb' 13 6, period := (pw ws 1).extractLsb' 0 21
    holdMax := (pw ws 2).extractLsb' 0 21, remoteLat := (pw ws 3).extractLsb' 0 16, offsetP := pw ws 5 ++ pw ws 4
    offsetF := pw ws 7 ++ pw ws 6 }

/-- A term that R300 accepts in projection i. -/
def termOk (hub : BitVec 10) (i : Nat) (t : Word64) : Bool :=
  let n := tIndex t
  let indexOk := match tSrc t with
    | 0 | 1 | 5 => decide (n < 384)
    | 2 | 3 => decide (n < 24)
    | 4 => decide (n < i)
    | _ => decide (n < 64)
  let remote := tSrc t == 5 || tSrc t == 6
  tSrc t != 7 && tSet t != 0 && indexOk && !t.getLsbD 31 && (if tSrc t = 3 then decide (tShift t ≤ 32) else tShift t == 0) &&
  (if remote then tHub t != hub else tHub t == 0) &&
  !(tHold t && (tSrc t == 2 || tSrc t == 3 || tSrc t == 4)) && !(tSrc t == 1 && !tHold t)

/-- The checks of PRJ_DEFINE on a definition (R300, R313). -/
def prjDefOk (hub : BitVec 10) (i : Nat) (d : PrjDef) : Bool :=
  decide (1 ≤ d.terms.length) && decide (d.terms.length ≤ 32) && d.terms.all (termOk hub i) && d.terms.any (inSet 1) &&
  decide (50 ≤ d.period.toNat) && 2000000 % d.period.toNat == 0 && decide (d.outShift.toNat ≤ 48) &&
  decide (1 ≤ d.holdMax.toNat) && decide (d.holdMax.toNat ≤ 2000000)

def prjReply (p : Fin 64) (s : State) : List Word :=
  let x := s.prj p
  [w32 (p.val + flag 6 x.enabled + flag 7 (s.blockPrj p.val)), w32 (if x.enabled then x.latencyNs else 0), x.missing, x.late, x.fallbacks]

/-- PRJ_DEFINE (R313). -/
def prjDefineBody (_ : Ctx) (ws : List Word) (s : State) : Res :=
  let w0 := pw ws 0
  let p : Fin 64 := ⟨bits w0 5 0, Nat.mod_lt _ (by decide)⟩
  if !resv w0 31 19 then refuse stBadParam s
  else if !bit w0 6 then .done stOk (prjReply p s ++ (s.prj p).defn.words) s
  else
    let d := prjDefOf ws
    if !resv (pw ws 1) 31 21 || !resv (pw ws 2) 31 21 || !resv (pw ws 3) 31 16 || !prjDefOk s.fab.hubId p.val d then
      refuse stBadParam s
    else if s.safeLocked (fun b => b.namesPrj p.val) then refuse stSafeLocked s
    else if (s.prj p).enabled then refuse stBusy s
    else
      let s1 := s.modPrj p fun x => { x with defn := d, out := [] }
      .done stOk (prjReply p s1) s1

def prjDefineSpec : CmdSpec :=
  { code := 0x0800, access := fun c ws _ => if bit (pw ws 0) 6 then accEng c else accAny c, mode := modeAll
    length := fun ws => ws.length == (if bit (pw ws 0) 6 then 8 + 2 * bits (pw ws 0) 12 7 else 1), body := prjDefineBody }

def execPrjDefine (p : Packet) (s : State) : Out := serve prjDefineSpec p s

/-! PRJ_ENABLE (R300, R301, R304, R314). -/

/-- Terms per second of a projection (R300). -/
def prjLoad (d : PrjDef) : Nat := d.terms.length * (20000000 / d.period.toNat)

/-- The output period of a remote projection: the distance of the two newest words of its feed. Before it has two, this hub
knows none (R300; log entry 220). -/
def Feed.period (f : Feed) : Option Nat :=
  match f.words with
  | a :: b :: _ => some (a.tick - b.tick)
  | _ => none

/-- The output period in ticks of a term's input, when this hub knows one (R300). -/
def State.inputPeriod (s : State) (t : Word64) : Option Nat :=
  let ofChan := fun (c : Chan) => if (s.setts[settOf c]).burstMode then none else some (s.period (settOf c))
  match tSrc t with
  | 0 => (chanAt (tIndex t)).bind ofChan
  | 2 | 3 => (finOf 24 (tIndex t)).bind fun q => ofChan (s.quad[q]).memberX
  | 4 => (finOf 64 (tIndex t)).map fun j => (s.prj j).defn.period.toNat
  | 6 => (s.feedOf (tHub t) true (tIndex t)).bind Feed.period
  | _ => none

/-- The projections enabled after every change accepted so far and this one. -/
def State.enabledAfter (s : State) (on off : Nat) : List (Fin 64) :=
  (List.finRange 64).filter fun p =>
    let now := match s.red.enableAt with
      | some (_, a, b) => ((s.prj p).enabled || a.getLsbD p.val) && !b.getLsbD p.val
      | none => (s.prj p).enabled
    (now || on.testBit p.val) && !off.testBit p.val

/-- Remote inputs of a list of projections, each once. -/
def State.remoteInputs (s : State) (ps : List (Fin 64)) : List Word64 :=
  (ps.flatMap fun p => ((s.prj p).defn.terms.filter fun t => tSrc t == 5 || tSrc t == 6).map fun t => t &&& 0x3FFFFF).eraseDups

/-- Why one masked projection cannot be enabled: R309, R300, R429. -/
def enableRefusal (p : Fin 64) (s : State) : Nat :=
  let d := (s.prj p).defn
  if s.safeLocked (fun b => b.namesPrj p.val) then stSafeLocked
  else if !prjDefOk s.fab.hubId p.val d ||
      d.terms.any (fun t => !tHold t && (match s.inputPeriod t with
        | some n => d.period.toNat % n != 0
        | none => false)) then stBadParam
  else if s.fab.state == 3 && d.terms.any (fun t => tSrc t == 5 || tSrc t == 6) then stMismatch
  else stOk

/-- The first refusal of the masked projections, in order (R314). -/
def firstRefusal (f : Fin 64 → Nat) (l : List (Fin 64)) : Nat := ((l.map f).find? fun n => n != stOk).getD stOk

/-- One input of a feed request (R430). -/
def feedInput (t : Word64) : Word := w32 (fld 0 9 (tIndex t) + flag 9 (tSrc t == 6))

/-- The feed of a remote term. -/
def State.feedOfTerm (s : State) (t : Word64) : Option Feed := s.feedOf (tHub t) (tSrc t == 6) (tIndex t)

/-- The class a remote input travels in: SAFETY when a projection of the block in force takes it among those being enabled, or
when its feed travels there already (R304). -/
def State.inputSafety (s : State) (ps : List (Fin 64)) (t : Word64) : Bool :=
  !(s.remoteInputs (ps.filter fun p => s.blockPrj p.val)).all (· != t) || ((s.feedOfTerm t).map (·.safety)).getD false

/-- The feed of an input is asked for: it keeps what it has received so far (R304). -/
def askFeed (safety : Bool) (t : Word64) (s : State) : State :=
  let old := s.feedOfTerm t
  let f : Feed := { hub := tHub t, isPrj := tSrc t == 6, index := BitVec.ofNat 9 (tIndex t), safety := safety, asked := true
                    opened := (old.map (·.opened)).getD false, boundNs := (old.map (·.boundNs)).getD 0
                    words := (old.map (·.words)).getD [] }
  s.modRed fun r => { r with feeds := f :: r.feeds.filter fun g => !(g.hub == f.hub && g.isPrj == f.isPrj && g.index == f.index) }

/-- The remote inputs of projections that are not open in their class, each with its class. -/
def State.freshInputs (s : State) (ps : List (Fin 64)) : List (Word64 × Bool) :=
  ((s.remoteInputs ps).map fun t => (t, s.inputSafety ps t)).filter fun a =>
    match s.feedOfTerm a.1 with
    | some f => !f.opened || (a.2 && !f.safety)
    | none => true

/-- The feeds of the remote terms of projections are asked for, one request for each source hub and class (R304). -/
def openFeeds (ps : List (Fin 64)) (s : State) : State :=
  let fresh := s.freshInputs ps
  let s1 := forEach fresh (fun s a => askFeed a.2 a.1 s) s
  forEach ((fresh.map fun a => (tHub a.1, a.2)).eraseDups) (fun s d =>
    let ins := fresh.filter fun a => tHub a.1 == d.1 && a.2 == d.2
    sendFeedReq d.1 (w32 (flag 0 true + flag 1 d.2) :: ins.map fun a => feedInput a.1) s) s1

/-- A remote source of the projection has not announced its bound yet, at its own terms or at those of a local projection that it
takes (R301; log entry 45). -/
def State.boundOpen (s : State) (d : PrjDef) : Bool :=
  d.terms.any fun t =>
    match tSrc t with
    | 4 => ((finOf 64 (tIndex t)).map fun j => (s.prj j).boundOpen).getD false
    | 5 | 6 => !((s.feedOfTerm t).map (·.opened)).getD false
    | _ => false

/-- LATENCY of the masked projections, in ascending order so that one may take an earlier one's (R301). -/
def fixLatency (ps : List (Fin 64)) (s : State) : State :=
  forEach ps (fun s p => s.modPrj p fun x =>
    { x with latencyNs := s.prjLatency x.defn, boundOpen := s.boundOpen x.defn, lateRaised := false }) s

/-- The LATENCY of the projections that waited for a remote bound is completed with it, and with that of the local projections
that waited too (R301; log entry 45). -/
def completeLatency (s : State) : State :=
  forEach (List.finRange 64) (fun s p =>
    let x := s.prj p
    if x.boundOpen then
      let remote := { x.defn with terms := x.defn.terms.filter fun t => decide (4 ≤ tSrc t) }
      s.modPrj p fun x => { x with latencyNs := max x.latencyNs (s.prjLatency remote), boundOpen := s.boundOpen x.defn }
    else s) s

/-- PRJ_ENABLE (R314). -/
def prjEnableBody (_ : Ctx) (ws : List Word) (s : State) : Res :=
  let mask := nat64 (pw ws 0) (pw ws 1)
  let ps := (List.finRange 64).filter fun p => mask.testBit p.val
  let on := bit (pw ws 2) 0
  let after := s.enabledAfter (if on then mask else 0) (if on then 0 else mask)
  let load := (after.map fun p => prjLoad (s.prj p).defn).sum
  let why := if on then firstRefusal (fun p => enableRefusal p s) ps
    else firstRefusal (fun p => if s.safeLocked (fun b => b.namesPrj p.val) then stSafeLocked else stOk) ps
  if !resv (pw ws 2) 31 1 then refuse stBadParam s
  else if why ≠ stOk then refuse why s
  else if on && (640000000 < load || 256 < (s.remoteInputs after).length) then refuse stBadParam s
  else
    let edge := s.nextBoundary
    let old := s.red.enableAt
    let a0 : Word64 := (old.map (·.2.1)).getD 0
    let b0 : Word64 := (old.map (·.2.2)).getD 0
    let m : Word64 := pw ws 1 ++ pw ws 0
    let s1 := s.modRed fun r => { r with enableAt := some (edge, if on then (a0 ||| m, b0 &&& ~~~m) else (a0 &&& ~~~m, b0 ||| m)) }
    let s2 := if on then judgeBounds (fixLatency ps (openFeeds ps s1)) else s1
    .done stOk (words64 edge ++ [w32 (load / 1000)]) s2

def prjEnableSpec : CmdSpec :=
  { code := 0x0801, access := fun c _ _ => accEng c, mode := modeAll, length := fun ws => ws.length == 3
    body := prjEnableBody }

def execPrjEnable (p : Packet) (s : State) : Out := serve prjEnableSpec p s

/-- The feeds that no enabled projection takes any more are closed (R304, R430; log entry 47). -/
def closeFeeds (s : State) : State :=
  let used := s.remoteInputs (s.enabledAfter 0 0)
  let idle := s.red.feeds.filter fun f => !(used.any fun t => tHub t == f.hub && (tSrc t == 6) == f.isPrj && tIndex t == f.index.toNat)
  let s1 := s.modRed fun r => { r with feeds := r.feeds.filter fun f => !idle.contains f }
  forEach idle (fun s f => sendFeedReq f.hub [w32 (flag 1 f.safety), w32 (f.index.toNat + flag 9 f.isPrj)] s) s1

/-- A projection stops: its window ends with PARTIAL (R311). -/
def stopPrj (p : Fin 64) (s : State) : State :=
  (endWindow .projection p.val true s).modPrj p fun x => { x with enabled := false, out := [] }

/-- PRJ_ENABLE_EFFECT: at the boundary the masked projections change together (R314, R320). -/
def execPrjEnableEffect (s : State) : Out :=
  .next <|
    match s.red.enableAt with
    | none => s
    | some (edge, on, off) =>
      let s1 := endRecord 48 ((atTk edge s).modRed fun r => { r with enableAt := none })
      let s2 := forEach (List.finRange 64) (fun s p =>
        if off.getLsbD p.val && (s.prj p).enabled then stopPrj p s
        else if on.getLsbD p.val && !(s.prj p).enabled then
          s.modPrj p fun x => { x.startAt edge with enabled := true }
        else s) s1
      closeFeeds s2

/-! FEED_REQ_RX and FEED_RX (R304, R430, R431). -/

/-- The input words of a request name inputs that exist. -/
def feedInputOk (w : Word) : Bool := resv w 31 10 && (if bit w 9 then decide (bits w 8 0 < 64) else decide (bits w 8 0 < 384))

/-- The answer to a request: each input with its arrival bound (R430). -/
def feedAnswer (src : BitVec 10) (w0 : Word) (accept : Bool) (ins : List Word) (s : State) : State :=
  sendFeedReq src (w32 (bits w0 1 0 + flag 2 accept) :: ins.flatMap fun w => [w, w32 (s.localBound w)]) s

def servedOf (s : State) (src : BitVec 10) (safety : Bool) (w : Word) : Served :=
  { hub := src, isPrj := bit w 9, index := w.extractLsb' 0 9, safety := safety, told := s.localBound w }

/-- A request of another hub: its inputs are served, at most 256 words in all, or the feed is closed (R304, R430). -/
def takeRequest (src : BitVec 10) (w0 : Word) (ins : List Word) (s : State) : State :=
  let mine := ins.map (servedOf s src (bit w0 1))
  let same := fun (x y : Served) => x.hub == y.hub && x.isPrj == y.isPrj && x.index == y.index
  let rest := s.red.served.filter fun x => !mine.any (same x)
  if !bit w0 0 then feedAnswer src w0 true ins (s.modRed fun r => { r with served := rest })
  else if ins.all feedInputOk && rest.length + mine.eraseDups.length ≤ 256 then
    feedAnswer src w0 true ins (s.modRed fun r => { r with served := rest ++ mine.eraseDups })
  else feedAnswer src w0 false ins s

/-- The inputs of an answer with their bounds. -/
def answerPairs : List Word → List (Word × Nat)
  | a :: b :: t => (a, b.toNat) :: answerPairs t
  | _ => []

/-- The feed that an input word of a hub names. -/
def feedNamed (src : BitVec 10) (w : Word) (f : Feed) : Bool := f.hub == src && f.isPrj == bit w 9 && f.index == w.extractLsb' 0 9

def modFeeds (f : Feed → Feed) (s : State) : State := s.modRed fun r => { r with feeds := r.feeds.map f }

/-- An answer from a source: bounds announced, or the feed refused with a notice (R304, R430). The first announcement
completes the LATENCY of the projections that take the input, directly or through local projections (R301; log entry 45). -/
def takeAnswer (src : BitVec 10) (accept : Bool) (ins : List (Word × Nat)) (s : State) : State :=
  if accept then
    judgeBounds (completeLatency (forEach ins (fun s x =>
      modFeeds (fun f => if feedNamed src x.1 f then { f with opened := true, asked := false, boundNs := x.2 } else f) s) s))
  else
    forEach ins (fun s x =>
      if s.red.feeds.any (feedNamed src x.1) then
        raise (modFeeds (fun f => if feedNamed src x.1 f then { f with opened := false, asked := false } else f) s) 0x0401
          [w32 (src.toNat + fld 10 9 (bits x.1 8 0) + flag 19 (bit x.1 9))]
      else s) s

/-- FEED_REQ_RX: a request or an answer (R430). One with ACCEPT 0 is a refusal when this hub awaits a feed of its first input
from that source (log entry 48). -/
def execFeedReqRx (src : BitVec 10) (words : List Word) (s : State) : Out :=
  .next <|
    let w0 := pw words 0
    let awaited := s.red.feeds.any fun f => feedNamed src (pw words 1) f && f.asked
    if !s.boot.fwRuns || !resv w0 31 3 then s
    else if bit w0 2 then takeAnswer src true (answerPairs (words.drop 1)) s
    else if awaited then takeAnswer src false (answerPairs (words.drop 1)) s
    else takeRequest src w0 (words.drop 1) s

/-- The entries of a FEED frame. -/
def feedEntries : List Word → List (Word × Word × Nat)
  | a :: b :: c :: d :: t => (a, b, nat64 c d) :: feedEntries t
  | _ => []

/-- FEED_RX: each word is kept for the projections, or counted as LATE (R303, R431). -/
def execFeedRx (src : BitVec 10) (words : List Word) (s : State) : Out :=
  guardNext s.boot.fwRuns s <|
    forEach (feedEntries words) (fun s e =>
      let v := if bit e.1 9 then 256 * sampleValue e.2.1 + bits e.1 31 24 else sampleValue e.2.1
      let w : InWord := { tick := e.2.2, value := v, flags := sampleFlags e.2.1 }
      let s1 := modFeeds (fun f => if feedNamed src e.1 f && f.opened then { f with words := keepWords w f.words } else f) s
      countLate (fun t => (tSrc t == 5 || tSrc t == 6) && tHub t == src && feedInput t == w32 (bits e.1 9 0)) e.2.2 s1) s

/-! ACC_CONFIG and MINMAX_READ (R315, R316). -/

/-- KIND and INDEX of a parameter word (R315). -/
def kindAt (w : Word) : Option (AccKind × Nat) :=
  let i := bits w 10 2
  match bits w 1 0 with
  | 0 => if i < 384 then some (.channel, i) else none
  | 1 => if i < 64 then some (.projection, i) else none
  | 2 => if i < 384 then some (.raw, i) else none
  | _ => none

def accReply (kind : AccKind) (i : Nat) (s : State) : Res :=
  let a := (s.acc kind i).getD Acc.reset
  .done stOk [w32 (flag 0 a.enable + fld 1 5 a.nLog2.toNat + flag 6 a.emit + fld 7 8 a.oob.toNat), a.windows] s

/-- The values that an accumulator's settings may take (R310, R315). -/
def accOk (kind : AccKind) (w : Word) : Bool :=
  let n := bits w 18 14
  match kind with
  | .raw => decide (8 ≤ n) && decide (n ≤ 16) && decide (2 ≤ bits w 27 20)
  | _ => decide (4 ≤ n) && decide (n ≤ 20) && bit w 19 && bits w 27 20 == 0

/-- An accumulator reconfigured: the window in progress ends first (R311). -/
def setAcc (kind : AccKind) (w : Word) (i : Nat) (s : State) : State :=
  modAcc kind i (fun a => { a.clear with
    enable := bit w 13, nLog2 := w.extractLsb' 14 5, emit := bit w 19, oob := w.extractLsb' 20 8
    windows := if a.enable then a.windows else 0 }) (endWindow kind i true s)

/-- ACC_CONFIG (R315). -/
def accConfigBody (_ : Ctx) (ws : List Word) (s : State) : Res :=
  let w := pw ws 0
  match kindAt w with
  | none => refuse stBadParam s
  | some (kind, i) =>
    if !resv w 31 28 || (kind == .projection && bit w 11) then refuse stBadParam s
    else if !bit w 12 then accReply kind i s
    else if !accOk kind w then refuse stBadParam s
    else
      let is := if bit w 11 then (List.range 8).map fun j => i / 8 * 8 + j else [i]
      accReply kind i (forEach is (fun s i => setAcc kind w i s) s)

def accConfigSpec : CmdSpec :=
  { code := 0x0802, access := fun c ws _ => if bit (pw ws 0) 12 then accEng c else accAny c, mode := modeAll
    length := fun ws => ws.length == 1, body := accConfigBody }

def execAccConfig (p : Packet) (s : State) : Out := serve accConfigSpec p s

/-- MINMAX_READ (R316). -/
def minmaxReadBody (_ : Ctx) (ws : List Word) (s : State) : Res :=
  let w := pw ws 0
  match kindAt w with
  | none => refuse stBadParam s
  | some (kind, i) =>
    if !resv w 31 12 then refuse stBadParam s
    else
      let m := (s.minMax kind i).getD MinMax.reset
      .done stOk ([w32i m.min, w32i m.max] ++ words64 m.minStamp ++ words64 m.maxStamp ++ [w32 (b2n (m.count == 0)), m.count])
        (if bit w 11 then modMinMax kind i (fun _ => MinMax.reset) s else s)

def minmaxReadSpec : CmdSpec :=
  { code := 0x0803, access := fun c ws _ => if bit (pw ws 0) 11 then accOp c else accAny c, mode := modeAll
    length := fun ws => ws.length == 1, body := minmaxReadBody }

def execMinmaxRead (p : Packet) (s : State) : Out := serve minmaxReadSpec p s

end Sys2Proof.Machine
end

