-- ==== Sys2Proof/Machine/Conv.lean ====
section
/-! DEFINITION. Conversion modes, injected conversions, system calibration and raw results (R133 to R167). -/

namespace Sys2Proof.Machine

/-! CONV_MODE (R143). -/

def convReply (k : SettId) (s : State) : Res :=
  let x := s.setts[k]
  .done stOk [w32 (flag 0 x.burstMode + flag 1 x.lowPower + flag 2 x.run)] s

def convModeBody (_ : Ctx) (ws : List Word) (s : State) : Res :=
  let w := pw ws 0
  match finOf 48 (bits w 5 0) with
  | none => refuse stBadParam s
  | some k =>
    if !resv w 31 9 then refuse stBadParam s
    else if !bit w 6 then convReply k s
    else if !presetPermitted (s.preset k) (bit w 7) (bit w 8) then refuse stBadParam s
    else if (s.setts[k]).run || s.plan.swap.isSome then refuse stBusy s
    else convReply k (judgeBounds ((clearValid s).modSett k fun x => { x with burstMode := bit w 7, lowPower := bit w 8 }))

def convModeSpec : CmdSpec :=
  { code := 0x0300, access := fun c ws _ => if bit (pw ws 0) 6 then accEng c else accAny c, mode := modeAll
    length := fun ws => ws.length == 1, body := convModeBody }

def execConvMode (p : Packet) (s : State) : Out := serve convModeSpec p s

/-! Injected conversions (R150 to R153). -/

/-- Channels with an injection pending. -/
def State.injections (s : State) : Nat := (List.finRange 384).countP fun c => (s.chans[c]).inject.isSome

/-- CONV_INJECT is refused in this mode (R152); the field that the mode depends on is checked first, with its word's reserved
bits (R450). -/
def injectMode (ws : List Word) (s : State) : Nat :=
  let c := chanAt (bits (pw ws 0) 8 0)
  modeField (c.isSome && resv (pw ws 0) 31 9) (!(s.sup.mode == .startup && !s.plan.active) &&
    !((c.map fun c => (s.setts[settOf c]).shed).getD false))

/-- CONV_INJECT (R150, R152): the reply is made when the slot has ended. A calibration of the channel is asked about first, since
an injection is still pending while the calibration is PENDING (R166). The ramp after a commit is no calibration "not yet ended":
RAMPING does not refuse (R163; log entry 215). -/
def convInjectBody (c : Ctx) (ws : List Word) (s : State) : Res :=
  let w := pw ws 0
  match chanAt (bits w 8 0) with
  | none => refuse stBadParam s
  | some ch =>
    if !resv w 31 9 then refuse stBadParam s
    else if (s.chans[ch]).cal.state != .idle && (s.chans[ch]).cal.state != .ramping then refuse stCalBusy s
    else if (s.chans[ch]).inject.isSome || 64 ≤ s.injections then refuse stBusy s
    else if !s.plan.hasInject (settOf ch) then refuse stPlanInvalid s
    else .deferred (s.modChan ch fun x => { x with inject := some { req := c.replyTo s, acceptTk := s.tkN, slot := none } })

def convInjectSpec : CmdSpec :=
  { code := 0x0301, access := fun c _ _ => accOp c, mode := injectMode, length := fun ws => ws.length == 1
    body := convInjectBody }

def execConvInject (p : Packet) (s : State) : Out := serve convInjectSpec p s

/-! Calibration state (R155 to R166). -/

def State.modCal (s : State) (c : Chan) (f : Cal → Cal) : State := s.modChan c fun x => { x with cal := f x.cal }

/-- A coefficient set stands at its targets (R161). -/
def CoefSet.settled (x : CoefSet) : Bool := x.trim == x.trimT && x.offset == x.offsetT && x.gain == x.gainT

/-- No set of the channel is on its way to a target. -/
def Channel.settled (x : Channel) : Bool := x.coefs.toList.all CoefSet.settled

/-- The channel stays in calibration: neither IDLE nor RAMPING (R164). -/
def Cal.inProgress (x : Cal) : Bool := x.state != .idle && x.state != .ramping

/-- The state of a channel once its calibration has ended: a ramp of an earlier commit goes on (R161, R163). -/
def restState (x : Channel) : CalState := if x.settled then .idle else .ramping

/-- The calibration of a channel starts: a point held in PENDING begins (R166). -/
def startCal (c : Chan) (s : State) : State :=
  s.modCal c fun x => { x with state := if x.point.isSome then .measuring else .opened }

/-- Channels whose calibrations were accepted together and still wait (R166). -/
def State.calGroup (s : State) (c : Chan) : List Chan :=
  let x := (s.chans[c]).cal
  (chansOf (settOf c)).filter fun d =>
    let y := (s.chans[d]).cal
    y.state == .pending && y.startTk == x.startTk && y.startLc == x.startLc

/-- The calibrations accepted with a channel's start once none of them waits for an injection any more (R166). -/
def releaseGroup (c : Chan) (s : State) : State :=
  if (s.chans[c]).cal.state != .pending then s
  else
    let g := s.calGroup c
    if g.any fun d => (s.chans[d]).inject.isSome then s else forEach g (fun s d => startCal d s) s

/-- What an injection or a calibration of a channel held back in its sett may start now (R166). -/
def releaseCal (c : Chan) (s : State) : State := forEach (chansOf (settOf c)) (fun s d => releaseGroup d s) s

/-- An injection completes with its reply, and a calibration that waited for it may start (R151, R166). -/
def finishInject (c : Chan) (status : Nat) (words : List Word) (s : State) : State :=
  match (s.chans[c]).inject with
  | none => s
  | some i => releaseCal c (answerLater 0x0301 i.req status words (s.modChan c fun x => { x with inject := none }))

/-- An injection that completes without a result: VALUE 0x800000 and INV; the other result words have no stated value, so
they are free (R153; log entry 2). -/
def dropInject (c : Chan) (status : Nat) (s : State) : State :=
  if (s.chans[c]).inject.isNone then s
  else
    let a := s.drawWord
    let b := a.2.drawWord
    let d := b.2.drawWord
    finishInject c status [sampleWord 0 flagInv, a.1, b.1, d.1 &&& 0x1F] d.2

/-- The result of an injection slot in progress makes the reply available, stamped and flagged (R150, R151). -/
def injectDone (ch : Chan) (conv : Conv) (s : State) : State :=
    match (s.chans[ch]).inject.bind (·.slot) with
    | none => s
    | some j =>
      let k := settOf ch
      let n := burstLen j.len.toNat
      let s1 := atTk (j.startTk + n * s.modTicks k) s
      let x := (s1.chans[ch])
      let stamp := nearNs (j.startLc + s1.lcSpan ((n - 1) * 50 * s1.modTicks k / 2) * 256)
      let first : Int := (j.startTk : Int) - 1
      let fl := s1.commonFlags ch stamp conv |||
        whenF (x.cal.inProgress || (s1.slotOf ch).isNone && !j.coef.stored) flagCalx |||
        whenF (((s1.setts[k]).excMode != 0 && !(match (s1.chans[ch]).inject.bind (·.slot) with
            | some j => j.covered
            | none => true)) ||
          since x.replacedTk first || (s1.setts[k]).regLost || since (s1.setts[k]).regLostTk first) flagInv
      let v := clamp (-valueLimit) valueLimit conv.value
      let value := if (s1.slotOf ch).isSome then v
        else roundDiv (j.coef.gain.toNat * (256 * v + j.coef.offset.toInt)) (2 ^ 38)
      finishInject ch stOk ([sampleWord value (fl ||| whenF (decide (valueLimit ≤ value ∨ value ≤ -valueLimit)) flagOvr)] ++
        words64 stamp ++ [w32 (fld 0 3 j.range.toNat + fld 3 2 j.len.toNat)]) s1

/-- INJECTION_RESULT: the slot ends, and the burst engine has formed the result from the samples of its length (R136, R150). -/
def execInjectionResult (ch : Chan) (input : BurstInput) (s : State) : Out :=
  .next <|
    match (s.chans[ch]).inject.bind (·.slot) with
    | none => s
    | some j => injectDone ch (s.burstConv ch j.len.toNat j.range j.startTk input) s

/-- CAL_PENDING_FRAME_END: no slot has started within one frame, so the injection gives way to the calibration (R166). -/
def execCalPendingFrameEnd (ch : Chan) (s : State) : Out :=
  let x := s.chans[ch]
  guardNext (x.cal.state == .pending && (match x.inject with
      | some i => i.slot.isNone
      | none => false)) s
    (dropInject ch stPreempted (atTk (x.cal.startTk + x.cal.frameTicks) s))

/-! Points (R157). -/

/-- CHANNEL and WHOLE_SETT of a calibration command. -/
def calChans (w : Word) : List Chan :=
  match chanAt (bits w 8 0) with
  | some c => namedChans c (bit w 9)
  | none => []

/-- The reply words of a CAL_POINT, once every channel has its outcome (R167). -/
def pointWords (w : Word) (outs : List (Chan × Int × BitVec 2)) : List Word :=
  let valid := outs.foldl (fun acc o => if o.2.2 = 0 then acc + 2 ^ (if bit w 9 then o.1.val % 8 else 0) else acc) 0
  let reason := ((outs.find? fun o => o.2.2 != 0).map fun o => o.2.2.toNat).getD 0
  w32 (fld 0 8 valid + fld 8 2 reason) ::
    (List.range 8).map fun n => w32i (((outs.find? fun o => o.1.val % 8 == n).map fun o => o.2.1).getD 0)

/-- The reply of a CAL_POINT is made available when all of its channels are done (R157). -/
def answerPoint (req : ReplyTo) (s : State) : State :=
  let w := pw req.packet.params 0
  let cs := calChans w
  let mine := fun (c : Chan) => (s.chans[c]).cal.outcome.bind fun o => if o.1 = req then some (c, o.2.1, o.2.2) else none
  let outs := cs.filterMap mine
  if outs.length != cs.length then s
  else
    answerLater 0x0303 req stOk (pointWords w outs) (forEach cs (fun s c => s.modCal c fun x => { x with outcome := none }) s)

/-- The calibration of a channel ends under a point: its reply is made available at once, with the outcomes there are. A channel
of the same request that still averages goes on, without a reply (R157; log entry 213). -/
def answerEarly (c : Chan) (p : CalPoint) (s : State) : State :=
  if p.answered then s
  else
    let w := pw p.req.packet.params 0
    let cs := calChans w
    let mine := fun (d : Chan) => (s.chans[d]).cal.outcome.bind fun o => if o.1 = p.req then some (d, o.2.1, o.2.2) else none
    let outs := cs.filterMap fun d => if d = c then some (d, 0, 3) else mine d
    answerLater 0x0303 p.req stOk (pointWords w outs) (forEach cs (fun s d => s.modCal d fun x =>
      { x with outcome := none, point := x.point.map fun q => { q with answered := q.answered || decide (q.req = p.req) } }) s)

/-- A point's outcome on one channel: kept when valid, then the reply where it was the last and none has been made (R157). -/
def finishPoint (c : Chan) (p : CalPoint) (mean : Int) (reason : BitVec 2) (s : State) : State :=
  (if p.answered then id else answerPoint p.req) (s.modCal c fun x =>
    { x with point := none, outcome := if p.answered then none else some (p.req, mean, reason)
             zero := if reason = 0 ∧ !p.full then some mean else x.zero
             full := if reason = 0 ∧ p.full then some (mean, p.target) else x.full })

/-- CAL_POINT_DONE: the averaging ends. A point that has both a flagged result and a differing range reports the flag, 0b01 (R157;
log entry 214). -/
def execCalPointDone (ch : Chan) (s : State) : Out :=
  .next <|
    match (s.chans[ch]).cal.state, (s.chans[ch]).cal.point with
    | .measuring, some p =>
      if p.left ≠ 0 then s
      else
        let reason : BitVec 2 := if p.flagged then 1 else if p.ranged then 2 else 0
        finishPoint ch p (roundDiv (256 * p.sum) p.count) reason (s.modCal ch fun x => { x with state := .opened })
    | _, _ => s

/-- A result of a channel is averaged: taken after the trim and before OFFSET_DIG and GAIN (R157). -/
def measure (c : Chan) (v : Conv) (fl : Byte) (s : State) : State :=
  let x := s.chans[c]
  match x.cal.state, x.cal.point with
  | .measuring, some p =>
    if p.left = 0 then s
    else s.modCal c fun y =>
      { y with point := some { p with left := p.left - 1, count := p.count + 1, sum := p.sum + clamp (-valueLimit) valueLimit v.value
                                      flagged := p.flagged || hasF fl (flagOvr ||| flagStl ||| flagInv ||| flagRet)
                                      ranged := p.ranged || x.range != y.range } }
  | _, _ => s

/-- The calibration of a channel ends without any change to its coefficients. A point under way is not kept, and channels that
waited with this one for an injection may start (R157, R163, R166). -/
def endCal (c : Chan) (s : State) : State :=
  let x := s.chans[c]
  if !x.cal.inProgress then s
  else
    let s1 := s.modCal c fun y => { y with state := restState x, zero := none, full := none, point := none }
    releaseCal c (match x.cal.point with
      | some p => answerEarly c p s1
      | none => s1)

/-- It ends by timeout or shedding: the CAL_ENDED notice (R163, R469). -/
def endCalNoted (c : Chan) (cause : Nat) (s : State) : State :=
  if !(s.chans[c]).cal.inProgress then s
  else raise (endCal c s) 0x0204 [w32 (c.val + fld 9 2 cause)]

/-- CAL_TIMEOUT: 600 s after CAL_START (R163). -/
def execCalTimeout (ch : Chan) (s : State) : Out :=
  let x := (s.chans[ch]).cal
  guardNext x.inProgress s (endCalNoted ch 1 (atLc (x.startLc + 600000000000) s))

/-! CAL_START, CAL_POINT, CAL_COMMIT and CAL_READ (R164, R167). -/

/-- An input of the block in force takes the channel: a monitor, or a block projection, directly or through a pair (R164). -/
def State.usesChan (s : State) (c : Chan) (b : Block) : Bool :=
  let is := fun (i : MonInput) => !i.isPrj && i.index == c.val
  let isO := fun (i : Option MonInput) => (i.map is).getD false
  b.mons.any (fun m => is m.primary || isO m.fallback || isO m.check) ||
  b.prjs.any fun p => p.2.terms.any fun t =>
    (decide (tSrc t ≤ 1) && tIndex t == c.val) ||
    ((tSrc t == 2 || tSrc t == 3) && (match finOf 24 (tIndex t) with
      | some q => (s.quad[q]).memberX.val / 2 == c.val / 2
      | none => false))

def calCode : CalState → Nat
  | .idle => 0 | .pending => 1 | .opened => 2 | .measuring => 3 | .ramping => 4

/-- CAL_START (R164, R166, R293). -/
def calStartBody (_ : Ctx) (ws : List Word) (s : State) : Res :=
  let w := pw ws 0
  match chanAt (bits w 8 0) with
  | none => refuse stBadParam s
  | some c =>
    let cs := namedChans c (bit w 9)
    if !resv w 31 13 || !rangeOk (bits w 12 10) then refuse stBadParam s
    else if cs.any fun c => s.safeLocked (s.usesChan c) then refuse stSafeLocked s
    else if cs.any fun c => (s.slotOf c).isSome then refuse stBusy s
    else if cs.any fun c => (s.chans[c]).cal.inProgress then refuse stCalBusy s
    else
      let waits := cs.any fun c => (s.chans[c]).inject.isSome
      let s1 := forEach cs (fun s c => s.modCal c fun x =>
        { x with state := if waits then .pending else .opened, range := w.extractLsb' 10 3, startLc := s.lcN, startTk := s.tkN
                 frameTicks := s.plan.frameTicks, zero := none, full := none, point := none }) s
      let mask := maskOf 8 fun j => cs.contains (chanOf (settOf c) j) && (s.chans[chanOf (settOf c) j]).inject.isSome
      .done stOk [w32 (fld 0 3 (calCode (s1.chans[c]).cal.state) + fld 3 8 mask)] s1

def calStartSpec : CmdSpec :=
  { code := 0x0302, access := fun c _ _ => accEng c, mode := modeAll, length := fun ws => ws.length == 1, body := calStartBody }

def execCalStart (p : Packet) (s : State) : Out := serve calStartSpec p s

/-- CAL_POINT (R157, R167). -/
def calPointBody (c : Ctx) (ws : List Word) (s : State) : Res :=
  let w := pw ws 0
  let cs := calChans w
  let avg := bits w 15 11
  if cs.isEmpty || !resv w 31 16 || avg < 4 || 16 < avg || (!bit w 10 && pw ws 1 != 0) ||
      cs.any (fun c => !(s.chans[c]).cal.inProgress) then refuse stBadParam s
  else if cs.any fun c => (s.chans[c]).cal.point.isSome then refuse stBusy s
  else
    let p : CalPoint := { req := c.replyTo s, full := bit w 10, target := (pw ws 1).toInt, left := 2 ^ avg, count := 0
                          sum := 0, flagged := false, ranged := false, answered := false }
    .deferred (forEach cs (fun s c => s.modCal c fun x =>
      { x with point := some p, outcome := none, state := if x.state = .opened then .measuring else x.state }) s)

def calPointSpec : CmdSpec :=
  { code := 0x0303, access := fun c _ _ => accEng c, mode := modeAll, length := fun ws => ws.length == 2, body := calPointBody }

def execCalPoint (p : Packet) (s : State) : Out := serve calPointSpec p s

/-- Bound on |M0| in codes for G_SCALE 1, and the bounds of GAIN_T in percent, of a calibration range (R159). -/
def calBounds (range : Nat) : Nat × Nat × Nat :=
  match range with
  | 0 => (419430, 95, 105)
  | 1 => (104858, 95, 105)
  | 2 => (52429, 92, 108)
  | 3 => (26214, 90, 110)
  | _ => (16384, 90, 110)

/-- GAIN_T as a quotient: T over M1 − M0, both in 1/256 code, or the gain in force over 1.0 (R158). -/
def gainRatio (m0 : Int) (full : Option (Int × Int)) (now : Word) : Int × Int :=
  match full with
  | some (m1, t) => if m1 - m0 < 0 then (-(256 * t), m0 - m1) else (256 * t, m1 - m0)
  | none => (now.toNat, 2 ^ 30)

/-- The set of a channel's calibration range. -/
def Channel.calSet (x : Channel) : CoefSet := x.coefs.toList.getD x.cal.range.toNat CoefSet.reset

/-- The new targets of a channel, when they lie within the bounds (R158, R159). -/
def commitSet (x : Channel) (m0 : Int) : Option CoefSet :=
  let c := x.calSet
  let tap256 : Int := 256 * x.tap
  let b := calBounds x.cal.range.toNat
  let g := gainRatio m0 x.cal.full c.gain
  if m0.natAbs ≤ 256 * (b.1 * x.gScale) ∧ 0 < g.2 ∧ (b.2.1 : Int) * g.2 ≤ 100 * g.1 ∧ 100 * g.1 ≤ (b.2.2 : Int) * g.2 then
    let t := clamp (-512) 511 (c.trim.toInt - roundDiv m0 tap256.toNat)
    some { c with trimT := BitVec.ofInt 10 t, offsetT := w32i (-(m0 + (t - c.trim.toInt) * tap256))
                  gainT := w32i (roundDiv (g.1 * 2 ^ 30) g.2.toNat), stored := true }
  else none

def setCoef (range : BitVec 3) (f : CoefSet → CoefSet) (x : Channel) : Channel :=
  match finOf 5 range.toNat with
  | some r => { x with coefs := vmod x.coefs r f }
  | none => x

/-- Intervals that a set's ramp still takes (R161). -/
def CoefSet.rampLeft (c : CoefSet) (tap : Nat) : Nat :=
  max (intervalsFor c.trim.toInt c.trimT.toInt 1)
    (max (intervalsFor c.offset.toInt c.offsetT.toInt (256 * tap)) (intervalsFor c.gain.toNat c.gainT.toNat 65536))

/-- One channel commits: new targets, and its ramp begins (R158, R161). -/
def commitChan (c : Chan) (adj : Byte) (s : State) : State × Bool :=
  let x := s.chans[c]
  match x.cal.zero.bind (commitSet x) with
  | none => (s, false)
  | some y =>
    let s1 := s.modChan c (setCoef x.cal.range fun _ => y)
    (s1.modChan c fun z =>
      { z with cal := { z.cal with state := restState z, zero := none, full := none, adjMs := adj, commitLc := s.lcN, intervals := 0 } }, true)

/-- CAL_COMMIT (R158, R159, R163; log entry 49). -/
def calCommitBody (_ : Ctx) (ws : List Word) (s : State) : Res :=
  let w := pw ws 0
  let cs := calChans w
  if cs.isEmpty || !resv w 31 19 then refuse stBadParam s
  else if bit w 10 then .done stOk [0] (forEach cs (fun s c => endCal c s) s)
  else if cs.any fun c => (s.chans[c]).cal.zero.isNone then refuse stBadParam s
  else if cs.any fun c => (s.chans[c]).cal.state == .measuring then refuse stBusy s
  else
    let r := cs.foldl (fun (acc : State × Nat × Nat) c =>
      let y := commitChan c (w.extractLsb' 11 8) acc.1
      let b := 2 ^ (c.val % 8)
      if y.2 then (y.1, acc.2.1 + b, acc.2.2) else (y.1, acc.2.1, acc.2.2 + b)) (s, 0, 0)
    let left := ((cs.filter fun c => r.2.1.testBit (c.val % 8)).map fun c =>
      let x := r.1.chans[c]
      x.calSet.rampLeft x.tap).foldl max 0
    .done (if r.2.2 = 0 then stOk else stCalBounds) [w32 (r.2.1 + fld 8 8 r.2.2 + fld 16 16 (min 0xFFFF left))] r.1

def calCommitSpec : CmdSpec :=
  { code := 0x0304, access := fun c _ _ => accEng c, mode := modeAll, length := fun ws => ws.length == 1, body := calCommitBody }

def execCalCommit (p : Packet) (s : State) : Out := serve calCommitSpec p s

/-- One interval's move of a set towards its targets (R161). -/
def CoefSet.approachT (c : CoefSet) (tap : Nat) : CoefSet :=
  { c with trim := BitVec.ofInt 10 (approach c.trim.toInt c.trimT.toInt 1)
           offset := w32i (approach c.offset.toInt c.offsetT.toInt (256 * tap))
           gain := w32i (approach c.gain.toNat c.gainT.toNat 65536) }

/-- CAL_ADJUST_INTERVAL: TRIM, OFFSET_DIG and GAIN step towards their targets, and CALX clears at the end (R161). -/
def execCalAdjustInterval (ch : Chan) (s : State) : Out :=
  let x := s.chans[ch]
  guardNext (!x.settled) s <|
    let n := nextInterval x.cal.commitLc x.cal.intervals (adjNs x.cal.adjMs) s.lcN
    (atLc (x.cal.commitLc + n * adjNs x.cal.adjMs) s).modChan ch fun x =>
      let y : Channel := { x with coefs := x.coefs.map fun c => c.approachT x.tap }
      { y with cal := { y.cal with intervals := n, state := if y.cal.state = .ramping then restState y else y.cal.state } }

/-- CAL_READ (R167). -/
def calReadBody (_ : Ctx) (ws : List Word) (s : State) : Res :=
  let w := pw ws 0
  match chanAt (bits w 8 0), finOf 5 (bits w 11 9) with
  | some c, some r =>
    if !resv w 31 12 then refuse stBadParam s
    else
      let x := s.chans[c]
      let k := x.coefs[r]
      .done stOk [w32 (fld 0 10 k.trim.toNat + fld 10 10 k.trimT.toNat + fld 20 3 (calCode x.cal.state) + flag 23 k.stored), k.offset,
        k.offsetT, k.gain, k.gainT, w32 (min 0xFFFF (k.rampLeft x.tap))] s
  | _, _ => refuse stBadParam s

def calReadSpec : CmdSpec :=
  { code := 0x0305, access := fun c _ _ => accAny c, mode := modeAll, length := fun ws => ws.length == 1, body := calReadBody }

def execCalRead (p : Packet) (s : State) : Out := serve calReadSpec p s

/-! Raw results (R144 to R149). -/

/-- Raw results per second of one channel of a sett (R144). -/
def State.rawRate (s : State) (k : SettId) : Nat := 20000000 / s.modTicks k / (s.rawShape k).cicR

/-- Raw tap words per second of a slot (R148). -/
def State.tapRate (s : State) (t : TapSlot) : Nat := popCount 8 t.mask.toNat * s.rawRate t.sett / 2 ^ t.sub.toNat

/-- The mode and phase that allow raw tap (R147). -/
def State.rawTapAllowed (s : State) : Bool := s.sup.mode == .startup || s.sup.mode == .test || s.boot.recovery

def tapReply (s : State) : Res :=
  let open_ := maskOf 4 fun i => (s.hoard.taps[i]).isSome
  let rate := (s.hoard.taps.toList.map fun t => (t.map s.tapRate).getD 0).sum
  .done stOk [w32 (open_ + fld 8 24 (rate / 1000))] s

/-- RAW_TAP (R147 to R149). -/
def rawTapBody (_ : Ctx) (ws : List Word) (s : State) : Res :=
  let w := pw ws 0
  let i : Fin 4 := ⟨bits w 1 0, Nat.mod_lt _ (by decide)⟩
  match finOf 48 (bits w 8 3) with
  | none => refuse stBadParam s
  | some k =>
    let t : Option TapSlot := if bit w 2 then
        some { sett := k, mask := w.extractLsb' 9 8, sub := w.extractLsb' 17 3, seen := Vector.replicate 8 0 } else none
    let taps := vset s.hoard.taps i t
    if !resv w 31 20 then refuse stBadParam s
    else if bit w 2 && decide (8000000 < (taps.toList.map fun t => (t.map s.tapRate).getD 0).sum) then refuse stBadParam s
    else tapReply (s.modHoard fun h => { h with taps := taps })

def rawTapSpec : CmdSpec :=
  { code := 0x0306, access := fun c _ _ => accEng c, mode := fun _ s => modeIf s.rawTapAllowed, length := fun ws => ws.length == 1
    body := rawTapBody }

def execRawTap (p : Packet) (s : State) : Out := serve rawTapSpec p s

/-- Every raw tap slot closes, with the RAW_TAP_CLOSED notice (R147). -/
def closeTaps (s : State) : State :=
  let m := maskOf 4 fun i => (s.hoard.taps[i]).isSome
  if m = 0 then s
  else raise (s.modHoard fun h => { h with taps := Vector.replicate 4 none }) 0x0006 [w32 m]

/-- A raw tap word (R149). -/
def rawWords (raw : Int) (ch : Nat) (ovr held lp : Bool) (dtick : Nat) : List Word :=
  [w32i raw, w32 (fld 0 9 ch + flag 9 ovr + flag 10 held + flag 11 lp + fld 16 16 dtick)]

/-- A raw tap word enters stream 51; a record that its DTICK no longer reaches ends first (R149, R319, R320). -/
def deliverRaw (ch : Chan) (raw : Int) (ovr held lp : Bool) (stamp : Nat) (s : State) : State :=
  let dtick := fun (lc : Nat) => roundDiv (((stamp : Int) - lc) * (2 ^ 40 + s.time.rate.toInt)) (50 * 2 ^ 40)
  let entry := fun (d : Int) => ({ stream := 51, stamp := stamp, delay := 0, preset := 0, coded := false, count := 1, tick := none
                                   words := rawWords raw ch.val ovr held lp d.toNat } : Entry)
  let st := s.hoard.streams[(51 : Fin 54)]
  match st.openRec with
  | none => deliver (entry 0) s
  | some o =>
    let d := dtick o.lc
    if d < 0 ∨ 65535 < d ∨ recordEnds s st.recMax o (entry d) then deliver (entry 0) (endRecord 51 s) else deliver (entry d) s

/-- A raw result passes an open tap slot that names its channel (R147). -/
def tapSlot (i : Fin 4) (ch : Chan) (raw : Int) (ovr held lp : Bool) (stamp : Nat) (s : State) : State :=
  match s.hoard.taps[i] with
  | none => s
  | some t =>
    let j : Fin 8 := ⟨ch.val % 8, Nat.mod_lt _ (by decide)⟩
    if t.sett != settOf ch || !t.mask.getLsbD j.val then s
    else
      let n := t.seen[j] + 1
      let s1 := s.modHoard fun h => { h with taps := vset h.taps i (some { t with seen := vset t.seen j n }) }
      if n % 2 ^ t.sub.toNat = 0 then deliverRaw ch raw ovr held lp stamp s1 else s1

/-- A raw result feeds its accumulator and tracker and the tap slots (R144 to R147, R311, R312). -/
def useRaw (ch : Chan) (raw : Int) (held : Bool) (tk : Nat) (s : State) : State :=
  let ovr := decide (2 ^ 30 ≤ raw ∨ raw ≤ -2 ^ 30)
  let lp := (s.setts[settOf ch]).lowNow
  let stamp := nearNs (s.lcOfTick tk + 2 * (s.chains[settOf ch]).tap)
  let fl := whenF ovr flagOvr ||| whenF held flagStl ||| whenF lp flagLp
  let s1 := modMinMax .raw ch.val (fun m => m.take raw fl stamp) (accumulate .raw ch.val raw fl stamp s)
  forEach (List.finRange 4) (fun s i => tapSlot i ch raw ovr held lp stamp s) s1

/-- RAW_RESULT: the samples of one decimation period of the CIC make a raw result, which goes on into the chain (R11, R135, R144,
R168). -/
def execRawResult (ch : Chan) (volts sense : List Int) (s : State) : Out :=
  let n := (s.rawShape (settOf ch)).cicR
  guardNext (s.modulating ch && volts.length == n && sense.length == n) s <|
    let tk := s.rawTick ch
    let s1 := atTk tk s
    let r := feedChain s1 ch tk (List.zipWith ModSample.mk volts sense)
    useRaw ch r.2 (s1.rawHeld ch tk r.1) tk (s1.modChan ch fun x => { x with dsp := r.1 })

end Sys2Proof.Machine
end

