-- ==== Sys2Proof/Machine/Filter.lean ====
section
/-! DEFINITION. Filter starts and stops, tick groups and their delivery, and the filter commands (R175 to R194, R591). -/

namespace Sys2Proof.Machine

/-! Delivery (R12, R137, R176, R320, R366). -/

/-- The tick at which the reduction engine places a group (R301). -/
def State.groupTick (s : State) (g : TickGroup) : Nat :=
  match g.tick with
  | some (t, _) => t
  | none => (s.tickOfLc ((g.stamp : Int) - s.lcSpan g.delay)).toNat

/-- A burst group: PRESET 0x6 in bits [2:0] (R177). -/
def TickGroup.isBurst (g : TickGroup) : Bool := g.preset &&& 7 == 6

/-- The entry of a group that is not coded (R319). -/
def groupEntry (k : SettId) (g : TickGroup) : Entry :=
  { stream := settStream k, stamp := g.stamp, delay := g.delay, preset := g.preset, coded := false, count := 1, tick := g.tick
    words := (if g.isBurst then words64 g.stamp else []) ++ g.words.toList }

/-- The result queue of a den (R14, R324). -/
def denQueue (d : DenId) : Fin 76 := ⟨d.val, by omega⟩

/-- The words of a group as the chip ingress reads them from the den's result queue, a unit of 32 bytes (R12, R14, R325, R326). -/
def passDen (k : SettId) (g : TickGroup) (s : State) : State × TickGroup :=
  let r := passQueue (denQueue (denOf k)) 32 s
  (pushAll pushLimit r.2.2 r.1,
   { g with words := vmapI g.words fun j w => if hitWord r.2.1 j.val then lostSample else w, tq := s.tqAt g.stamp, gen := s.fabGen })

/-- A tick group leaves for its stream and the reduction engine, with the TQ in force at its stamp (R12, R240, R320, R366). -/
def deliverGroup (k : SettId) (g : TickGroup) (s : State) : State :=
  let r := passDen k g s
  let s1 := if (s.coders[k]).enable && !g.isBurst && s.sup.mode != .safeCore then stageGroup k r.2 r.1 else deliver (groupEntry k r.2) r.1
  produceWords k (s1.groupTick g) g.stamp r.2.words s1

/-- What every result of a sett does on its channels: the calibration points average it, LATCH can take it,
and OVERLOAD tells of its window (R132, R157, R204). -/
def noteResults (k : SettId) (convs : Vector Conv 8) (ws : Vector Word 8) (stamp delay last : Nat) (s : State) : State :=
  forEach (List.finRange 8) (fun s j =>
    let c := chanOf k j
    (measure c convs[j] (sampleFlags ws[j]) s).modChan c fun x =>
      { x with overload := (convs[j]).ovl, recent := ({ word := ws[j], stamp := stamp, delay := delay, lastTk := last } :: x.recent).take 4 }) s

/-- The preset field of a sett's records (R177). -/
def State.presetField (s : State) (k : SettId) (burst : Bool) : BitVec 4 :=
  BitVec.ofNat 4 ((if burst then 6 else s.preset k) + flag 3 (s.chains[k]).custom.isSome)

/-- A sett produces words of continuous conversion now (R27, R193, R237). `last` is the last modulator sample of the word that
follows. -/
def State.producing (s : State) (k : SettId) (last : Nat) : Bool :=
  let x := s.setts[k]
  s.served && s.time.sclk && x.run && !x.shed && !x.burstMode &&
  (match (s.chains[k]).stopAt with
    | some b => decide (last < b)
    | none => true) &&
  (match s.plan.stopped, s.time.realign.bind (·.stopTk) with
    | true, some b => decide (last < b.toNat)
    | true, none => false
    | false, _ => true)

/-- The words of one grid tick, stamped and flagged; a linear chain holds them until their stamp (R12, R175, R176, R178). -/
def tickGroup (sett : SettId) (convs : Vector Conv 8) (s : State) : State :=
    match (s.chains[sett]).nextTick with
    | none => s
    | some t =>
      let last := t + s.delayNs sett / 50
      if !s.producing sett last then s
      else
        let s1 := atTk last s
        let stamp := s1.wordStamp sett last
        let delay := s1.recordDelay sett
        let ws := correctWords sett convs (Vector.ofFn fun j => s1.wordFlags (chanOf sett j) last stamp convs[j]) s1
        let next := t + s1.period sett
        let g : TickGroup := { stamp := stamp, delay := delay, preset := s1.presetField sett false, tick := some (t, next)
                               tq := s1.time.tq, gen := s1.fabGen, words := ws }
        let s2 := (noteResults sett convs ws stamp delay last { s1 with free := s1.free + 1 }).modChain sett fun c =>
          { c with words := c.words + 1, nextTick := some next }
        if s1.linear sett then s2.modChain sett fun c => { c with retime := c.retime ++ [g] } else deliverGroup sett g s2

/-- FIR_TICK_GROUP: the words that the chains of a sett have at the last modulator sample of its next grid tick (R168, R175). -/
def execFirTickGroup (sett : SettId) (beyond : Byte) (s : State) : Out :=
  .next <|
    match (s.chains[sett]).nextTick with
    | none => s
    | some t => tickGroup sett (s.chainConvs sett beyond (t + s.delayNs sett / 50)) s

/-- TU of a word as its stamp has it: a group that was held is judged when its stamp is reached (R240). -/
def retimeWord (tu : Bool) (w : Word) : Word := (w &&& ~~~ (w32 flagTu.toNat)) ||| w32 (if tu then flagTu.toNat else 0)

/-- BEAR_RETIME_RELEASE: LC reaches the stamp of the oldest group held (R176, R240). -/
def execBearRetimeRelease (sett : SettId) (s : State) : Out :=
  .next <|
    match (s.chains[sett]).retime with
    | [] => s
    | g :: rest =>
      let s1 := (atLc g.stamp s).modChain sett fun c => { c with retime := rest }
      deliverGroup sett { g with words := g.words.map (retimeWord (s1.tuAt g.stamp)) } s1

/-! Starts and stops (R178, R191 to R193, R249, R292). -/

/-- The FILTER_EDGE notice (R193, R469). -/
def raiseEdge (k : SettId) (stop : Bool) (lc : Nat) (s : State) : State :=
  raise s 0x0203 (w32 (k.val + flag 6 stop) :: words64 lc)

/-- The first grid tick whose word has its last modulator sample at or after a boundary (R174, R178). -/
def firstWordTick (period delayTicks boundary : Nat) : Nat := firstTick period (boundary - delayTicks)

/-- A start event of a sett's chain at a boundary: its record ends, history cleared, the conversion mode as set, delay at its
target, its pairs restarted (R143, R178, R249, R292, R320, R360). -/
def startChain (k : SettId) (b : Nat) (s0 : State) : State :=
  let s := endRecord (settStream k) s0
  let s1 := s.modChain k fun c =>
    { c with startTk := b, startLc := nearNs (s.lcOfTick b), words := 0, tap := c.tapT, tapAt := s.lcN
             nextTick := some (firstWordTick (s.period k) (s.delayNs k / 50) b) }
  startSlots k (forEach (chansOf k) (fun s c => s.modChan c clearDsp) (s1.modSett k fun x => { x with lowNow := x.lowPower }))

/-- A sett takes its cyclic state (R202, R217). -/
def toCyclic (c : Cycle) (s : State) (k : SettId) : State :=
  let on := (s.setts[k]).run && (s.setts[k]).excMode != 0 && c.cyclicOn k
  let s1 := s.modSett k fun x => { x with planOn := on }
  if on && s.mayDrive k then switchDriver k true s1
  else if on then holdOff k (switchDriver k false s1)
  else driverOut k s1

/-- The filter start of a sett takes effect at a boundary, with its notice. A start at the edge of a new plan finds the sett in its
cyclic state of that plan (R191, R193, R217, R320). -/
def startSett (k : SettId) (b : Nat) (s : State) : State :=
  let s1 := startChain k b (s.modSett k fun x => { x with run := true, ocHold := false })
  let s2 := if s1.plan.active && s1.plan.frameCount == 0 && s1.plan.frameTk == b then toCyclic s1.plan.bank.asCycle s1 k else s1
  raiseEdge k false (s2.chains[k]).startLc s2

/-- FLT_START_EFFECT: an accepted start takes effect at its boundary (R191). -/
def execFltStartEffect (sett : SettId) (s : State) : Out :=
  .next <|
    match (s.chains[sett]).startAt with
    | none => s
    | some b => startSett sett b ((atTk b s).modChain sett fun c => { c with startAt := none })

/-- The filter stop of a sett takes effect at a boundary. The driver goes off there, or at the end of a burst that runs past
it (R192, R193, R311, R320). -/
def stopSett (k : SettId) (b : Nat) (s : State) : State :=
  let lc := nearNs (s.lcOfTick b)
  let s1 := if (s.setts[k]).burst.isSome then s else driverOut k s
  let s2 := (s1.modSett k fun x => { x with run := false, planOn := false, lost := false, restart := none }).modChain k fun c => { c with nextTick := none }
  raiseEdge k true lc (endSettWindows k (endRecord (settStream k) s2))

/-- FLT_STOP_EFFECT: an accepted stop takes effect at the end of its frame (R192). -/
def execFltStopEffect (sett : SettId) (s : State) : Out :=
  .next <|
    match (s.chains[sett]).stopAt with
    | none => s
    | some b => stopSett sett b ((atTk b s).modChain sett fun c => { c with stopAt := none })

/-! FLT_START and FLT_STOP (R187, R191, R192, R211, R591). -/

/-- The setts that a FLT_START names: with ALL, those with an enabled channel (R191). -/
def startSetts (w : Word) (s : State) : List SettId :=
  if bit w 6 then allSetts.filter fun k => (chansOf k).any fun c => (s.chans[c]).enable
  else match finOf 48 (bits w 5 0) with
    | some k => [k]
    | none => []

/-- The parameter word names setts that exist. -/
def fltWordOk (w : Word) : Bool := resv w 31 7 && (bit w 6 || decide (bits w 5 0 < 48))

/-- The LC of a coming boundary. -/
def State.boundaryLc (s : State) (b : Nat) : Nat := nearNs (s.lcOfTick b)

/-- FLT_START is refused in this mode (R191). -/
def fltStartMode (ws : List Word) (s : State) : Nat :=
  let w := pw ws 0
  modeField (fltWordOk w) (s.plan.active && !(startSetts w s).any fun k => (s.setts[k]).shed)

/-- The sett waits for neither: it is to be started by this command. -/
def State.toStart (s : State) (k : SettId) : Bool := !(s.setts[k]).run && (s.chains[k]).startAt.isNone

/-- FLT_START: with ALL and nothing to start, the boundary is that of the first sett named (R191; log entry 211). -/
def fltStartBody (_ : Ctx) (ws : List Word) (s : State) : Res :=
  let w := pw ws 0
  if !fltWordOk w then refuse stBadParam s
  else
    let ks := startSetts w s
    let fresh := ks.filter s.toStart
    let b := s.nextBoundary
    let edge := match ks, fresh with
      | k :: _, [] => if (s.setts[k]).run then (s.chains[k]).startLc else s.boundaryLc (((s.chains[k]).startAt).getD b)
      | _, _ => s.boundaryLc b
    if ks.any fun k => (s.chains[k]).stopAt.isSome then refuse stBusy s
    else if fresh.any fun k => (s.chains[k]).custom.isSome && s.blockSett k then refuse stSafeLocked s
    else if fresh.isEmpty then .done stOk (words64 edge) s
    else match s.startErrors fresh with
      | some (e, k) =>
        .done stPlanInvalid [w32 (fld 0 8 e.code + fld 8 13 e.idx + fld 21 6 k.val), w32 (fld 0 21 e.offset)]
          (s.modPlan fun p => { p with lastError := BitVec.ofNat 8 e.code })
      | none =>
        .done stOk (words64 edge) (forEach fresh (fun s k => s.modChain k fun c => { c with startAt := some b, load := [] })
          (s.modPlan fun p => { p with lastError := 0 }))

def fltStartSpec : CmdSpec :=
  { code := 0x0402, access := fun c _ _ => accEng c, mode := fltStartMode, length := fun ws => ws.length == 1, body := fltStartBody }

def execFltStart (p : Packet) (s : State) : Out := serve fltStartSpec p s

/-- FLT_STOP (R192). The EDGE_LC of a stop that finds nothing running is not stated, so it is free (log entry 2). -/
def fltStopBody (_ : Ctx) (ws : List Word) (s : State) : Res :=
  let w := pw ws 0
  if !fltWordOk w then refuse stBadParam s
  else
    let ks := if bit w 6 then allSetts else startSetts w s
    let b := s.nextBoundary
    let live := ks.filter fun k => (s.setts[k]).run
    if s.sup.mode != .test && live.any s.blockSett then refuse stSafeLocked s
    else if ks.any fun k => (chansOf k).any fun c => (s.chans[c]).cal.state == .measuring then refuse stCalBusy s
    else if ks.any fun k => (s.chains[k]).startAt.isSome then refuse stBusy s
    else if live.isEmpty then
      let a := s.drawWord
      let d := a.2.drawWord
      .done stOk [a.1, d.1] d.2
    else
      let at_ := (live.head?.bind fun k => (s.chains[k]).stopAt).getD b
      .done stOk (words64 (s.boundaryLc at_)) (forEach live (fun s k => s.modChain k fun c => { c with stopAt := some (c.stopAt.getD b) }) s)

def fltStopSpec : CmdSpec :=
  { code := 0x0403, access := fun c _ _ => accEng c, mode := modeAll, length := fun ws => ws.length == 1, body := fltStopBody }

def execFltStop (p : Packet) (s : State) : Out := serve fltStopSpec p s

/-! FLT_PRESET (R189). -/

/-- T_AN_PS of the reply; a delay beyond its 16 bits has no stated value there, so it is free (R189; log entry 2). -/
def tAnField (s : State) (k : SettId) : Nat :=
  if s.factory.tAnPs[k] < 65536 then s.factory.tAnPs[k] else (Config.freeWord s.free).toNat % 65536

def presetReply (k : SettId) (s : State) : Res :=
  let c := s.chains[k]
  .done stOk [w32 (fld 0 3 c.preset.toNat + flag 3 c.custom.isSome + flag 4 (s.linear k) + flag 5 (s.setts[k]).run + flag 6 c.shift +
    fld 16 16 (s.settle k)), w32 (tAnField s k)] { s with free := s.free + 1 }

def fltPresetBody (_ : Ctx) (ws : List Word) (s : State) : Res :=
  let w := pw ws 0
  match finOf 48 (bits w 5 0) with
  | none => refuse stBadParam s
  | some k =>
    let p := bits w 9 7
    if !resv w 31 10 then refuse stBadParam s
    else if !bit w 6 then presetReply k s
    else if 5 < p || !presetPermitted p (s.setts[k]).burstMode (s.setts[k]).lowPower || !s.health.presets.getLsbD p then
      refuse stBadParam s
    else if (s.setts[k]).run || s.plan.swap.isSome then refuse stBusy s
    else presetReply k (judgeBounds ((clearValid s).modChain k fun c => { c with preset := BitVec.ofNat 3 p, custom := none, load := [] }))

def fltPresetSpec : CmdSpec :=
  { code := 0x0400, access := fun c ws _ => if bit (pw ws 0) 6 then accEng c else accAny c, mode := modeAll
    length := fun ws => ws.length == 1, body := fltPresetBody }

def execFltPreset (p : Packet) (s : State) : Out := serve fltPresetSpec p s

/-! FLT_COEF_LOAD (R183 to R187, R190). -/

/-- Words per second times 8 that the passes of a structure cost (R183). -/
def Shape.load (x : Shape) (low : Bool) : Nat :=
  let rate := if low then 5000000 else 20000000
  8 * (x.tapsA * (rate / (x.perA * x.decA)) + x.tapsB * (rate / (x.perB * x.decB)))

/-- The load limit of R183 under a growth mode. -/
def loadLimit (shift : Bool) : Nat := if shift then 1280000000 else 640000000

/-- The coefficients of a pass from a load; none when a tap is missing (R185). -/
def passTaps (load : List (Nat × BitVec 24)) (pass n : Nat) : Option (List (BitVec 24)) :=
  (List.range n).mapM fun i => getAt (256 * pass + i) load

/-- GD_NS lies where R186 wants it. -/
def gdOk (x : Shape) (linear : Bool) (gd mod period : Nat) : Bool :=
  let lin := x.linearTwice * 50 * mod / 2
  gd % (50 * mod) == 0 &&
  (if linear then x.linearTwice % 2 == 0 && decide (lin ≤ gd) && decide (gd ≤ lin + 16 * period * 50)
   else decide (gd ≤ x.span * 50 * mod))

/-- The checks on a completed load, in order: the RESULT and the table (R185). -/
def judgeTable (s : State) (k : SettId) (t : FirTable) (load : List (Nat × BitVec 24)) (crc : Word) : Nat × FirTable :=
  let base := presetShape (s.preset k) (s.setts[k]).lowPower
  let x := customShape base t
  let low := (s.setts[k]).lowPower
  if (t.tapsB != 0) != (s.preset k == 5) then (7, t)
  else match passTaps load 0 t.tapsA, passTaps load 1 t.tapsB with
    | some a, some b =>
      if crcWords ((a ++ b).map coefWord) != crc then (3, t)
      else if t.linear && !(a == a.reverse && b == b.reverse) then (4, t)
      else if loadLimit (s.chains[k]).shift < x.load low then (5, t)
      else if !gdOk x t.linear t.gdNs (s.setTicks k) (s.period k) then (6, t)
      else (1, { t with coefs := a ++ b })
    | _, _ => (2, t)

/-- Deviation of a pass sum from 1.0 in ppm, held in 16 bits (R187). -/
def dcErr (l : List (BitVec 24)) : Nat :=
  if l.isEmpty then 0
  else
    let sum := l.foldl (fun (a : Int) c => a + c.toInt) 0
    lowBits 16 (clamp (-32768) 32767 (roundDiv ((sum - 2 ^ 22) * 1000000) (2 ^ 22)))

/-- Reply words of a load (R190). -/
def loadWords (k : SettId) (result : Nat) (s : State) : List Word :=
  let c := s.chains[k]
  let t := c.custom
  let ok := result == 1
  [w32 (fld 0 4 result + flag 4 t.isSome + fld 16 16 (if ok then s.settle k else 0)),
   w32 (if ok then fld 0 16 (dcErr ((t.map fun t => t.coefs.take t.tapsA).getD [])) +
     fld 16 16 (dcErr ((t.map fun t => t.coefs.drop t.tapsA).getD [])) else 0)]

/-- FLT_COEF_LOAD with READ (R190). -/
def coefRead (k : SettId) (w0 : Word) (s : State) : Res :=
  let x := s.shape k
  .done stOk ([w32 (fld 0 9 x.tapsA + fld 9 9 x.tapsB + flag 18 (s.linear k) + fld 19 3 x.order + flag 22 (s.chains[k]).custom.isSome),
    w32 (s.declaredNs k)] ++ (List.range (bits w0 24 17)).map fun i => coefWord (coefAt s k (bits w0 8 7) (bits w0 16 9 + i))) s

/-- The chunk with LAST completes the load (R185). -/
def completeLoad (k : SettId) (ws : List Word) (load : List (Nat × BitVec 24)) (s : State) : Res :=
  let w1 := pw ws 1
  let t : FirTable := { tapsA := bits w1 8 0, tapsB := bits w1 17 9, linear := bit w1 18, cicOrder := w1.extractLsb' 19 3
                        gdNs := (pw ws 2).toNat, coefs := [] }
  let r := judgeTable s k t load (pw ws 3)
  if r.1 = 1 then
    let s1 := judgeBounds (s.modChain k fun c => { c with custom := some r.2, load := [] })
    .done stOk (loadWords k 1 s1) s1
  else
    let s1 := s.modChain k fun c => { c with load := [] }
    .done stBadParam (loadWords k r.1 s1) s1

/-- Header fields of a load that R190 and R184 refuse. -/
def coefHeaderBad (ws : List Word) : Bool :=
  let w0 := pw ws 0
  let w1 := pw ws 1
  let last := bit w0 25
  !resv w0 31 27 || !resv w1 31 22 || 256 < bits w0 16 9 + bits w0 24 17 || 128 < bits w0 24 17 ||
  (!last && (w1 != 0 || pw ws 2 != 0 || pw ws 3 != 0)) ||
  (last && !bit w0 6 && (bits w1 8 0 = 0 || 256 < bits w1 8 0 || 256 < bits w1 17 9 ||
    !(bits w1 21 19 = 0 || (3 ≤ bits w1 21 19 && bits w1 21 19 ≤ 5))))

/-- FLT_COEF_LOAD (R185, R190). A takeover starts its setts before it loads the rest sections, so a table restored from section
0x15 goes to a running sett and is not refused for that (R187, R544). -/
def coefLoadBody (ctx : Ctx) (ws : List Word) (s : State) : Res :=
  let w0 := pw ws 0
  match finOf 48 (bits w0 5 0) with
  | none => refuse stBadParam s
  | some k =>
    let coefs := ws.drop 4
    if coefHeaderBad ws || coefs.any (fun w => !resv w 31 24) then refuse stBadParam s
    else if bit w0 26 then
      if w0 != w32 (k.val + flag 26 true) then refuse stBadParam s
      else if (s.setts[k]).run && !ctx.replay then refuse stBusy s
      else
        let s1 := judgeBounds (s.modChain k fun c => { c with custom := none, load := [] })
        .done stOk (loadWords k 8 s1) s1
    else if bit w0 6 then coefRead k w0 s
    else if 1 < bits w0 8 7 then refuse stBadParam s
    else if (s.setts[k]).run && !ctx.replay then refuse stBusy s
    else
      let load := putAll (256 * bits w0 8 7 + bits w0 16 9) (coefs.map fun w => w.extractLsb' 0 24) (s.chains[k]).load
      if bit w0 25 then completeLoad k ws load s
      else
        let s1 := s.modChain k fun c => { c with load := load }
        .done stOk (loadWords k 0 s1) s1

/-- The coefficient words that follow the header: none with READ (R190). -/
def coefLoadLength (ws : List Word) : Bool :=
  ws.length == 4 + (if bit (pw ws 0) 6 then 0 else bits (pw ws 0) 24 17)

def coefLoadSpec : CmdSpec :=
  { code := 0x0401, access := fun c ws _ => if bit (pw ws 0) 6 then accAny c else accEng c, mode := modeAll
    length := coefLoadLength, body := coefLoadBody }

def execFltCoefLoad (p : Packet) (s : State) : Out := serve coefLoadSpec p s

/-! FLT_GROWTH (R182, R183, R194). -/

def growthReply (k : SettId) (s : State) : Res :=
  let c := s.chains[k]
  .done stOk [w32 (flag 0 c.shift + flag 1 (s.setts[k]).run), c.shifts] s

/-- Shifts that R182 accepts on a structure. -/
def shiftsOk (x : Shape) (w : Word) : Bool :=
  (x.hb2 || shiftOf w 2 == 0) && (x.tapsB != 0 || shiftOf w 4 == 0) && decide (((List.range 5).map (shiftOf w)).sum ≤ 31)

def growthBody (_ : Ctx) (ws : List Word) (s : State) : Res :=
  let w0 := pw ws 0
  let w1 := pw ws 1
  match finOf 48 (bits w0 5 0) with
  | none => refuse stBadParam s
  | some k =>
    if !resv w0 31 8 || !resv w1 31 25 then refuse stBadParam s
    else if !bit w0 6 then growthReply k s
    else if (!bit w0 7 && w1 != 0) || !shiftsOk (s.shape k) w1 || loadLimit (bit w0 7) < (s.shape k).load (s.setts[k]).lowPower then
      refuse stBadParam s
    else if (s.setts[k]).run then refuse stBusy s
    else growthReply k (s.modChain k fun c => { c with shift := bit w0 7, shifts := w1 })

def growthSpec : CmdSpec :=
  { code := 0x0404, access := fun c ws _ => if bit (pw ws 0) 6 then accEng c else accAny c, mode := modeAll
    length := fun ws => ws.length == 2, body := growthBody }

def execFltGrowth (p : Packet) (s : State) : Out := serve growthSpec p s

end Sys2Proof.Machine
end

