-- ==== Sys2Proof/Machine/Modes.lean ====
section
/-! DEFINITION. The transitions between Service, Safe-Core and Test, what a fault of the chip does, and SYS_MODE_SET (R20,
R27 to R36, R589). -/

namespace Sys2Proof.Machine

/-- A pending PLAN_SWAP is withdrawn, with its notice (R215). -/
def withdrawSwap (cause : Nat) (s : State) : State :=
  match s.plan.swap with
  | some e => raise (s.modPlan fun p => { p with swap := none }) 0x0201 (w32 cause :: words64 e)
  | none => s

/-- A safety output goes off at once; an off-pulse in progress is taken over (R478, R482). -/
def dropOutput (o : So) : So :=
  if o.on then { o with on := false, resetSeen := false, pulseTaken := o.pulseTaken || o.pulse.isSome } else o

/-- Every safety output goes off. -/
def outputsOff (s : State) : State := s.modOwl fun o => { o with sos := o.sos.map dropOutput }

/-- The MODE_CHANGE notice: MODE_STATUS as it is after the change, and LC (R469). -/
def raiseMode (m : Mode) (causes : BitVec 4) (s : State) : State :=
  raise s 0x0003 (w32 (fld 0 4 m.code + fld 4 4 causes.toNat) :: s.lcWords)

/-! Fault of a start and yield, which Safe-Core needs. -/

/-- A start that fails: FAILED with its code, every SO off, ELAPSED_MS frozen (R20, R30, R93). -/
def failStart (code : Byte) (s : State) : State :=
  outputsOff (s.modBoot fun b =>
    { b with failed := true, waitHost := false, failCode := code, frozenMs := some (BitVec.ofNat 16 s.elapsedMs) })

/-- AUTO_YIELD (R550). -/
def Pair.autoYield (p : Pair) : Bool := bit p.word0 2

/-- Step 1 of a yield: every running sett stops at the end of the current frame and every SO goes off (R549). -/
def startYield (req : Option ReplyTo) (s : State) : State :=
  let b := s.nextBoundary
  let s1 := forEach (allSetts.filter fun k => (s.setts[k]).run) (fun s k => s.modChain k fun c => { c with startAt := none, stopAt := some b }) s
  (outputsOff s1).modPair fun p => { p with yieldStep := .stopping, yieldReq := req, yieldAt := s.boundaryLc b }

/-- The owner's conditions for the automatic yield of R534. -/
def State.autoYields (s : State) : Bool :=
  s.pair.autoYield && s.pair.owns && s.pair.partner == .ready && s.pair.yieldStep == .none

/-! Safe-Core (R27, R28, R589). -/

/-- The cause bits of R32 in the order of the reply word: command, overtemperature, fault, safety output. -/
def causeBit (i : Nat) : BitVec 4 := BitVec.ofNat 4 (2 ^ i)

/-- The setts that Safe-Core sheds: those the block in force does not name (R27). -/
def State.shedSetts (s : State) : List SettId := allSetts.filter fun k => !s.blockSett k

/-- The tick groups that a coder holds are not delivered: their stream's GAP declares them (R28, R371). -/
def shedStaging (k : SettId) (s : State) : State :=
  let s1 := forEach ((s.coders[k]).staging ++ (s.chains[k]).retime) (fun s g => noteShed (groupEntry k g) s) s
  let r := endRefusal k (s1.modCoder k fun c => { c with staging := [], stalled := false })
  pushAll pushLimit r.2 (r.1.modChain k fun c => if s.blockSett k then c else { c with retime := [] })

/-- What is in progress on a sett that is shed ends: its injections, calibrations and windows (R153, R163, R311). -/
def endShedWork (k : SettId) (s : State) : State :=
  forEach (chansOf k) (fun s c => endRawWindow c s)
    (endSettWindows k (forEach (chansOf k) (fun s c => endCalNoted c 2 (dropInject c stNotInMode s)) s))

/-- A sett is shed: its driver and a burst in progress end, its run state stays (R27, R589). -/
def shedSett (k : SettId) (s : State) : State :=
  (driverOut k s).modSett k fun x => { x with shed := true, burst := none }

/-- The windows of the projections that stop end with PARTIAL (R309, R311). -/
def endShedPrjs (s : State) : State :=
  forEach (List.finRange 64) (fun s p => if s.blockPrj p.val then s else endWindow .projection p.val true s) s

/-- What leaving Test for any mode ends: raw taps close, and test uses of the lanes stop (R147, R396). -/
def endTest (s : State) : State := if s.sup.mode = .test then closeTaps (lanesLeaveTest s) else s

/-- Entry to Safe-Core from Service or Test: what is shed ends and is declared, the streams' records end, and the rest keeps
running (R26 to R28, R215, R267, R589). -/
def shedAll (causes : BitVec 4) (s : State) : State :=
  let ks := s.shedSetts
  let s1 := drainEdges 4352 (flushTies (2 ^ 64) (withdrawSwap 0 (endTest s)))
  let s2 := raiseMode .safeCore causes (endShedPrjs (forEach ks (fun s k => endShedWork k s) s1))
  let s3 := endRecords (forEach allSetts (fun s k => shedStaging k s) s2)
  let s4 := (s3.modSup fun u => { u with mode := .safeCore, causes := causes }).modHoard fun h => { h with ackStop := some s.lcN }
  lanesEnterSafe (forEach ks (fun s k => shedSett k s) s4)

/-- A Safe-Core trigger: entry with its cause, or the cause added while already there. The instant of a trigger is kept for the
commands of the same cycle (R31). A fault with AUTO_YIELD and a READY
partner starts the yield at once (R20, R30, R33, R534). -/
def enterSafe (cause : Nat) (s : State) : State :=
  let s1 :=
    if s.sup.mode = .safeCore then s.modSup fun u =>
      { u with causes := u.causes ||| causeBit cause, safeAt := if cause = 0 then u.safeAt else some s.time.aonNs }
    else if s.working then (shedAll (causeBit cause) s).modSup fun u =>
      { u with safeAt := if cause = 0 then none else some s.time.aonNs }
    else s
  if s1.sup.mode == .safeCore && cause == 2 && s1.autoYields then startYield none s1 else s1

/-- A fault of R20 with the FAIL_CODE that names it: Safe-Core with CAUSE_FAULT, or the start fails; in Safe-Core the cause is
set. The recovery phase of a takeover counts as Start-up (R20). -/
def chipFault (code : Byte) (s : State) : State :=
  if s.sup.mode = .startup ∨ s.boot.recovery then failStart code s else enterSafe 2 s

/-- Overtemperature enters Safe-Core from Service or Test (R30). -/
def judgeTherm (s : State) : State := if s.sup.overtemp && s.working then enterSafe 1 s else s

/-- The GAP of a stream whose samples were converted in Safe-Core and not delivered (R28). -/
def declareShed (s : State) (t : Fin 54) : State :=
  match s.hoard.streams[t].shedLc with
  | some (a, b) =>
    let q := s.hoard.streams[t].nextSeq
    raiseGap (s.modStream t fun x => { x with shedLc := none }) t.val 3 q (q - 1) a b
  | none => s

/-- A cursor on return to Service: it goes on from ACKED + 1, and the time in Safe-Core does not count in its ACK_TIMEOUT (R339). -/
def resumeAt (away : Nat) (c : Cursor) : Cursor :=
  { c with nextSend := c.acked + 1, sentAt := c.sentAt.map fun p => (p.1, p.2 + away) }

/-- The record of stream 53 that holds the last of the GAP entries of a return (R28, R339). -/
def State.lastGap (s : State) : BitVec 48 :=
  let x := s.hoard.streams[(53 : Fin 54)]
  if x.openRec.isSome then x.nextSeq else x.nextSeq - 1

/-- Every cursor goes on; when samples were shed, their GAP entries are sent first (R28, R339). -/
def resumeCursors (gaps : Bool) (s : State) : State :=
  let away := (s.hoard.ackStop.map fun lc => s.lcN - lc).getD 0
  s.modHoard fun h => { h with ackStop := none, subs := h.subs.map fun u => u.map fun u =>
    { u with cursors := u.cursors.map (resumeAt away), hold := if gaps then some s.lastGap else u.hold } }

/-- A shed sett whose run state is set restarts at the next boundary, unless a FLT_STOP has been accepted for it meanwhile: that
stop clears its run state and the sett converts nothing (R28, R589). -/
def unshed (b : Nat) (s : State) (k : SettId) : State :=
  if (s.setts[k]).shed then
    let s1 := s.modSett k fun x => { x with shed := false }
    if !(s1.setts[k]).run then s1
    else if (s1.chains[k]).stopAt.isSome then s1.modChain k fun c => { c with nextTick := none }
    else startSett k b s1
  else s

/-- A projection that stopped in Safe-Core goes on at the first projection tick after the return (R309). -/
def resumePrj (s : State) (p : Fin 64) : State :=
  if s.blockPrj p.val then s
  else s.modPrj p fun x => x.startAt (s.tkN + 1)

/-- SYS_MODE_SET from Safe-Core to Service (R28, R30, R33, R339). -/
def leaveSafe (s : State) : State :=
  let s1 := s.modSup fun u => { u with mode := .service, causes := 0 }
  let s2 := forEach (List.finRange 54) declareShed (raiseMode .service 0 s1)
  let s3 := forEach allSetts (unshed s.nextBoundary) (resumeCursors (s1.hoard.streams.any fun x => x.shedLc.isSome) s2)
  judgeTherm (lanesStart (forEach (List.finRange 16) (fun s i => emitLoss i s) (forEach (List.finRange 64) resumePrj s3)))

/-! Test (R36, R396, R499). -/

/-- Entry to Test: every output goes off and READY clears; after Test the outputs wait for every monitor to be valid (R36, R479). -/
def enterTest (s : State) : State :=
  raiseMode .test 0 (((outputsOff s).modOwl fun o => { o with ready := false, testHold := true }).modSup fun u => { u with mode := .test })

/-- A safety sett is set up as its descriptor says, on a preset table of the ROM (R499). -/
def State.descOk (s : State) (d : SettDesc) : Bool :=
  match finOf 48 d.sett with
  | none => false
  | some k =>
    let x := s.setts[k]
    let c := s.chains[k]
    c.preset == d.preset && c.custom.isNone && x.burstMode == d.burst && x.lowPower == d.lowPower && x.excMode == d.excMode &&
    x.ilim == d.ilim && x.vcode == d.vcode &&
    (List.finRange 8).all fun j =>
      (s.chans[chanOf k j]).enable == d.enabled.getLsbD j.val && (s.chans[chanOf k j]).scale.toNat == bits (d.scales.setWidth 32) (3 * j.val + 2) (3 * j.val)

/-- The configuration of the hub is that of the block (R499). -/
def State.matchesBlock (s : State) (b : Block) : Bool :=
  b.setts.all s.descOk && b.prjs.all fun p => match finOf 64 p.1 with
    | some i => (s.prj i).defn == p.2
    | none => false

/-- Return from Test to Service: CONFIG_MISMATCH is judged anew (R36, R499). -/
def leaveTest (s : State) : State :=
  let s1 := endTest s
  let bad := match s1.owl.block with
    | some b => !s1.matchesBlock b
    | none => false
  judgeTherm (raiseMode .service 0 ((s1.modOwl fun o => { o with mismatch := o.mismatch || bad }).modSup fun u => { u with mode := .service }))

end Sys2Proof.Machine
end

