-- ==== Sys2Proof/Machine/Plan.lean ====
section
/-! DEFINITION. The sequencer: what each plan entry does, frame boundaries and swaps, the restart of a sett, the realignment of
TK, and the plan commands (R18, R110 to R125, R136, R150 to R153, R196 to R225, R237, R588). -/

namespace Sys2Proof.Machine

/-! Drivers under the plan (R121, R125, R202, R212). -/

/-- The plan's schedule has a sett's driver on: it drives if it may (R117, R125, R202). -/
def followPlan (k : SettId) (s : State) : State :=
  if (s.setts[k]).planOn && s.mayDrive k then switchDriver k true s else s

/-- EXC_ON would take the counted current above the budget (R212). -/
def State.overBudget (s : State) (k : SettId) : Bool :=
  decide (s.plan.bank.budget < s.countedMa + (if s.countsIlim k then 0 else s.ilimMa k))

/-- EXC_ON of one sett: stepped but not executed on a sett that is isolated, shed or blocked by contention, and held by the budget
guard; a driver that stays off is off outside the plan's schedule from here on (R119, R125, R202, R212). -/
def excOnSett (s : State) (k : SettId) : State :=
  let x := s.setts[k]
  if x.excMode = 0 ∨ !x.run then s
  else
    let s1 := s.modSett k fun x => { x with planOn := true }
    if x.driving then s1
    else if s.settOut k || x.shed || x.contention then holdOff k s1
    else if !x.counted && s.overBudget k then
      raise ((holdOff k s1).modPlan fun p => { p with budgetHold := true }) 0x1005 (w32 k.val :: words64 s.tkN)
    else
      let s2 := s1.modSett k fun x => { x with counted := true }
      if s.mayDrive k then switchDriver k true s2 else holdOff k s2

/-- EXC_OFF of one sett (R119, R202). -/
def excOffSett (s : State) (k : SettId) : State := driverOut k (s.modSett k fun x => { x with planOn := false })

/-! Entries (R200 to R207). -/

/-- The sequencer steps the entries of a frame. -/
def State.sequencing (s : State) : Bool := s.served && s.time.sclk && s.plan.active && !s.plan.stopped && !s.plan.firstFrame

/-- The entry of an index, when it belongs to the current frame's segment and has the type of its row (R198, R200). -/
def State.entryNow (s : State) (type idx : Nat) : Option Word64 :=
  if !s.sequencing then none
  else match (segmentAt s.plan.bank.entries s.plan.segment).find? fun e => e.1 == idx with
    | some e => if eType e.2 = type then some e.2 else none
    | none => none

/-- A plan entry is stepped at its tick. -/
def stepEntry (type idx : Nat) (f : Word64 → State → State) (s : State) : Out :=
  .next <|
    match s.entryNow type idx with
    | some e => f e (atTk (s.plan.frameTk + eOffset e) s)
    | none => s

/-- EXC_ON (R201, R202, R212). -/
def execExcOn (idx : Fin 8192) (s : State) : Out := stepEntry 0x1 idx.val (fun e s => forEach (eSetts e) excOnSett s) s

/-- EXC_OFF (R201, R202). -/
def execExcOff (idx : Fin 8192) (s : State) : Out := stepEntry 0x2 idx.val (fun e s => forEach (eSetts e) excOffSett s) s

/-- BURST of one sett: it starts where the sett runs in burst conversion and is not shed; excitation that is not as the plan
wants it breaks it (R124, R136, R137). -/
def burstSett (code : Nat) (s : State) (k : SettId) : State :=
  let x := s.setts[k]
  if x.run && x.burstMode && !x.shed && x.burst.isNone then
    s.modSett k fun x =>
      { x with burst := some { startTk := s.tkN, startLc := (s.lcOfTick s.tkN).toNat, len := BitVec.ofNat 2 code
                               broken := s.offPlan k || x.regLost } }
  else s

/-- BURST (R136, R201). -/
def execBurst (idx : Fin 8192) (s : State) : Out :=
  stepEntry 0x4 idx.val (fun e s => forEach (eSetts e) (burstSett (eCode e)) s) s

/-- The result of a burst leaves as one tick group stamped at the burst's centroid. A sett that was stopped meanwhile switches its
driver off now (R137, R192). -/
def burstDone (sett : SettId) (convs : Vector Conv 8) (s : State) : State :=
    match (s.setts[sett]).burst with
    | none => s
    | some b =>
      let n := burstLen b.len.toNat
      let last := b.startTk + (n - 1) * s.modTicks sett
      let s1 := atTk last s
      let stamp := nearNs (b.startLc + 256 * s1.lcSpan ((n - 1) * 25 * s1.modTicks sett))
      let ws := correctWords sett convs (Vector.ofFn fun j => s1.burstFlags (chanOf sett j) b stamp convs[j]) s1
      let g : TickGroup := { stamp := stamp, delay := 0, preset := s1.presetField sett true, tick := none, tq := s1.time.tq
                             gen := s1.fabGen, words := ws }
      let s2 := (noteResults sett convs ws stamp 0 last { s1 with free := s1.free + 1 }).modSett sett fun x => { x with burst := none }
      deliverGroup sett g (if (s2.setts[sett]).run then s2 else driverOut sett s2)

/-- BURST_COMPLETE: the burst engine has formed the results of the sett's channels from the samples of its length (R136, R137). -/
def execBurstComplete (sett : SettId) (inputs : Vector BurstInput 8) (s : State) : Out :=
  .next <|
    match (s.setts[sett]).burst with
    | none => s
    | some b =>
      burstDone sett (Vector.ofFn fun j =>
        s.burstConv (chanOf sett j) b.len.toNat (s.chans[chanOf sett j]).range b.startTk inputs[j]) s

/-- The most recent result that a LATCH tick can take (R204). -/
def latchChan (s : State) (c : Chan) : State :=
  s.modChan c fun x => { x with latch := (x.recent.find? fun r => decide (r.lastTk + 40 ≤ s.tkN)).orElse fun _ => x.latch }

/-- LATCH (R204). -/
def execLatch (idx : Fin 8192) (s : State) : Out :=
  stepEntry 0x5 idx.val (fun e s => forEach ((eSetts e).flatMap chansOf) latchChan s) s

/-- A RANGE entry on one channel: naming the range in force is no switch; otherwise 2 µs of samples are blanked, the switch sample
first, and the data path keeps what the samples before it were taken with (R109 to R111, R155). -/
def rangeChan (r : BitVec 3) (s : State) (c : Chan) : State :=
  if (s.chans[c]).range = r then s
  else s.modChan c fun x =>
    { x with range := r, blanking := true, dsp := { x.dsp with switches := x.dsp.switches ++ [(s.tkN, x.range, s.trimOf c)] }
             rangeTk := some (s.tkN + 40 - s.modTicks (settOf c)) }

/-- RANGE (R109 to R111, R201). -/
def execRange (idx : Fin 8192) (s : State) : Out :=
  stepEntry 0x6 idx.val (fun e s =>
    match finOf 48 (eTarget e) with
    | some k => forEach (rangeChans k e) (rangeChan (BitVec.ofNat 3 (eArg e / 2 ^ 8))) s
    | none => s) s

/-- RANGE_BLANKING_END: the sample after the last blanked one (R111). -/
def execRangeBlankingEnd (ch : Chan) (s : State) : Out :=
  guardNext (s.chans[ch]).blanking s
    ((atTk (((s.chans[ch]).rangeTk).getD 0 + s.modTicks (settOf ch)) s).modChan ch fun x => { x with blanking := false })

/-- The range that a channel has from a tick of the frame on: a RANGE of the same OFFSET acts on the same sample, whatever its
index (R199). -/
def State.rangeFrom (s : State) (off : Nat) (c : Chan) : BitVec 3 :=
  match (segmentAt s.plan.bank.entries s.plan.segment).find? fun e =>
      eType e.2 == 6 && eOffset e.2 == off && eTarget e.2 == (settOf c).val && (rangeChans (settOf c) e.2).contains c with
  | some e => BitVec.ofNat 3 (eArg e.2 / 2 ^ 8)
  | none => (s.chans[c]).range

/-- INJECT_SLOT on one channel: a request accepted before the slot is served in it, with the range and coefficients in force
(R150, R151, R199). -/
def injectChan (code off : Nat) (s : State) (c : Chan) : State :=
  let k := settOf c
  let r := s.rangeFrom off c
  match (s.chans[c]).inject with
  | some i =>
    if i.slot.isNone && decide (i.acceptTk < s.tkN) then
      let j : InjSlot :=
        { startTk := s.tkN, startLc := (s.lcOfTick s.tkN).toNat, len := BitVec.ofNat 2 code, range := r
          coef := ({ s.chans[c] with range := r } : Channel).coef, covered := (s.setts[k]).excMode == 0 || (s.setts[k]).driving }
      s.modChan c fun x => { x with inject := some { i with slot := some j } }
    else s
  | none => s

/-- INJECT_SLOT (R150, R201). -/
def execInjectSlot (idx : Fin 8192) (s : State) : Out :=
  stepEntry 0x7 idx.val (fun e s => forEach ((eSetts e).flatMap chansOf) (injectChan (eCode e) (eOffset e)) s) s

/-- The den that a comparison of DEN_d is made with (R19, R205). -/
def nextDen (d : DenId) : DenId := ⟨(d.val + 1) % 4, Nat.mod_lt _ (by decide)⟩

/-- CAL_STEP: the comparison is made unless a den it involves is isolated or has its band-gap off (R26, R205). -/
def execCalStep (idx : Fin 8192) (s : State) : Out :=
  stepEntry 0x8 idx.val (fun e s =>
    match finOf 4 (eTarget e) with
    | some d =>
      if (s.dens[d]).isolated || (s.dens[nextDen d]).isolated || !s.afeOn d || !s.afeOn (nextDen d) then s
      else s.modDen d fun x => { x with compareTk := some s.tkN }
    | none => s) s

/-- PULSE_WIN opens a window (R206). -/
def execPulseWin (idx : Fin 8192) (s : State) : Out :=
  stepEntry 0x9 idx.val (fun e s =>
    s.modPlan fun p => { p with windows := p.windows ++ [(BitVec.ofNat 8 (eArg e), s.tkN, s.tkN + eArg e / 2 ^ 8)] }) s

/-- MARK (R207). -/
def execMark (idx : Fin 8192) (s : State) : Out :=
  stepEntry 0xA idx.val (fun e s =>
    raise s 0x0202 ([w32 (fld 0 16 (eArg e)), s.plan.frameCount] ++ words64 (nearNs (s.lcOfTick s.tkN)))) s

/-! Frame boundaries and swaps (R117, R121, R196, R213 to R218). -/

/-- n image words of a bank are read from index i on: corrected errors are counted, and 8 within 1 ms are an ECC burst (R218, R554).
-/
def readBank (k : Fin 2) (i n : Nat) (s : State) : State :=
  let b := burstOf s.lcN ((s.plan.banks[k]).corrected i n).length s.plan.fixAt[k]
  let s1 := s.modPlan fun p => { Plan.readWords k i n p with fixAt := vset p.fixAt k b.1 }
  if b.2 then raise s1 0x1000 (burstBody (76 + k.val) s1) else s1

/-- An uncorrectable error is found in the shadow bank: VALID clears, a pending swap is withdrawn (R215, R218). -/
def shadowEcc (s : State) : State := withdrawSwap 3 (clearValid (raise s 0x1006 [1, 1]))

/-- A trip is reported for the frame in which it fell and the frame after it (R131). -/
def ageTrip (t : Option Nat) : Option Nat := t.bind fun n => if n = 0 then some 1 else none

/-- A den whose excitation was switched off restarts at a frame boundary (R121). -/
def restartDen (s : State) (d : DenId) : State :=
  if (s.dens[d]).excOff then
    forEach (settsOf d) (fun s k => followPlan k s) (s.modDen d fun x => { x with excOff := false })
  else s

/-- The hub reads a bank whose swap is pending at each frame boundary before its edge (R218; log entry 196). -/
def readPendingBank (s : State) : State :=
  if s.plan.swap.isNone then s
  else
    let s1 := readBank s.plan.shadowId 0 bankWords s
    if s1.plan.shadow.ecc then shadowEcc s1 else s1

/-- The wait of a tripped driver ends with its frame, and trips age (R117, R131). -/
def ageTrips (s : State) : State :=
  forEach allSetts (fun s k => s.modSett k fun x => { x with ocTrip := ageTrip x.ocTrip, ocHold := false }) s

/-- What every frame boundary does besides the entries: trips age, dens restart, ended windows go, and both banks are read
(R117, R121, R131, R206, R218). -/
def frameEdge (s : State) : State :=
  let s1 := ageTrips s
  let s2 := readPendingBank ((forEach (List.finRange 4) restartDen s1).modPlan fun p =>
    { p with windows := p.windows.filter fun w => decide (s.tkN < w.2.2) })
  let s3 := readBank s2.plan.activeBank 0 bankWords s2
  if s3.plan.bank.ecc then chipFault 0x14 s3 else s3

/-- PLAN_FRAME_BOUNDARY: the frame that follows begins, its start edge stamped to 2^-8 ns. The first frame of a plan begins at the
edge itself (R24, R196, R198). -/
def execPlanFrameBoundary (frac : Byte) (s : State) : Out :=
  let p := s.plan
  let n := p.frameTk + p.bank.frameTicks
  let swapDue := match p.swap with
    | some e => decide (e ≤ n)
    | none => false
  guardNext (s.served && s.time.sclk && p.active && !p.stopped) s <|
    if p.firstFrame then
      let s1 := atTk p.frameTk s
      s1.modPlan fun p => { p with firstFrame := false, frameLc := s1.lcN * 256 + frac.toNat }
    else if swapDue then s
    else
      let s1 := atTk n s
      frameEdge (s1.modPlan fun p =>
        { p with segment := (segmentNext (segmentAt p.bank.entries p.segment)).getD 0, frameTk := n
                 frameLc := s1.lcN * 256 + frac.toNat, frameCount := p.frameCount + 1 })

/-- The banks change roles and the sequencer stands before the new plan's first frame (R213, R217). -/
def flipBanks (edge lc : Nat) (p : Plan) : Plan :=
  let leave := fun (b : Bank) => { b with state := if b.words.isEmpty then .empty else .written }
  { p with banks := vmod p.banks p.activeBank leave, activeBank := p.shadowId, active := true, swap := none, budgetHold := false
           segment := 0, frameCount := 0, frameTk := edge, frameLc := lc * 256, firstFrame := true, windows := [] }

/-- Pending injections of setts for which the new plan holds no slot (R153). -/
def dropUnslotted (s : State) (c : Chan) : State :=
  match (s.chans[c]).inject with
  | some i => if i.slot.isNone && !s.plan.hasInject (settOf c) then dropInject c stPlanInvalid s else s
  | none => s

/-- A plan becomes active at its edge, which ends a wait of step 0x6 (R93, R217). The edge is a frame boundary for trips and dens
as well (R117, R121, R131). -/
def activatePlan (edge : Nat) (s : State) : State :=
  let s0 := ageTrips (atTk edge s)
  let s1 := { s0 with dens := s0.dens.map fun (d : Den) => { d with excOff := false } }
  let s2 := (s1.modPlan (flipBanks edge s1.lcN)).modBoot fun b => { b with waitHost := b.waitHost && !b.fwRuns }
  let s3 := forEach allSetts (toCyclic s2.plan.bank.asCycle) s2
  let s4 := raise s3 0x0200 ([s3.plan.bank.planId] ++ words64 edge ++ s1.lcWords)
  judgeBounds (forEach (List.finRange 384) dropUnslotted s4)

/-- PLAN_SWAP_EDGE (R213, R214, R217). -/
def execPlanSwapEdge (s : State) : Out :=
  .next <|
    match s.plan.swap with
    | some e => if s.served && s.time.sclk && !s.plan.stopped then activatePlan e s else s
    | none => s

/-! Restart of a sett (R16, R117, R588). -/

/-- SETT_RESTART: a start event at the first frame boundary after the fault (R178, R560, R588). -/
def execSettRestart (sett : SettId) (s : State) : Out :=
  .next <|
    match (s.setts[sett]).restart with
    | none => s
    | some t =>
      let n := s.plan.frameTicks
      let b := if n = 0 then s.tkN else (t / n + 1) * n
      let s1 := (atTk b s).modSett sett fun x => { x with restart := none, ocHold := false }
      followPlan sett ((startChain sett b s1).modUnitS sett (bump 1))

/-! Realignment of TK (R237). -/

/-- The boundary at which the sequencer stops: the end of the current frame, or now without a plan. -/
def State.stopBoundary (s : State) : Nat :=
  let p := s.plan
  if !p.active then s.tkN else if p.firstFrame then p.frameTk else p.frameTk + p.bank.frameTicks

/-- TK_ALIGN_STOP (R237). -/
def execTkAlignStop (s : State) : Out :=
  .next <|
    match s.time.realign with
    | some r =>
      if r.stopTk.isSome || !s.served || !s.time.sclk then s
      else
        let s1 := atTk s.stopBoundary s
        (withdrawSwap 2 (s1.modPlan fun p => { p with stopped := true, windows := [] })).modTime fun t =>
          { t with realign := some { r with stopTk := some s1.time.tk, stopLc := s1.time.lc } }
    | none => s

/-- A burst or an injection slot is still running (R237). -/
def State.converting (s : State) : Bool :=
  (allSetts.any fun k => (s.setts[k]).burst.isSome) ||
  (List.finRange 384).any fun c => ((s.chans[c]).inject.bind (·.slot)).isSome

/-- The TK of network time now, and the phase of the tick in 2^-40 ns (R229). -/
def State.fabricTk (s : State) : Nat × Nat :=
  let d := s.nt - s.time.tshift.toInt
  let tick : Int := 50 * 65536
  (((d / tick) % 2 ^ 64).toNat, (d % tick).toNat * 2 ^ 24)

/-- A tick moved with TK. -/
def moveTk (was now t : Nat) : Nat := t + now - was

/-- What a channel keeps on the tick scale: histories end with the stop, acceptances move with TK (R237). -/
def moveChan (was now : Nat) (x : Channel) : Channel :=
  { x with dsp := { Dsp.reset with hold := x.dsp.hold }, rangeTk := none, blanking := false, replacedTk := none, recent := [], latch := none
           cal := { x.cal with startTk := moveTk was now x.cal.startTk }
           inject := x.inject.map fun i => { i with acceptTk := moveTk was now i.acceptTk } }

/-- What a sett keeps on the tick scale (R237). -/
def moveSett (x : Sett) : Sett := { x with regLostTk := none, offTk := none, switchTk := none, planOn := false, lost := false }

/-- The first boundary of the active frame length at or after a tick. -/
def State.boundaryFrom (s : State) (tk : Nat) : Nat := firstTick s.plan.frameTicks tk

/-- The load of TK moves everything that waits for a tick to the new scale (R237). -/
def moveAll (was now resume : Nat) (s : State) : State :=
  { s with
    chans := s.chans.map (moveChan was now)
    setts := s.setts.map moveSett
    dens := s.dens.map fun d => { d with compareTk := d.compareTk.map (moveTk was now) }
    chains := s.chains.map fun c => { c with nextTick := none, startAt := c.startAt.map fun _ => resume, stopAt := c.stopAt.map fun _ => resume }
    health := { s.health with restores := s.health.restores.map fun r => (r.1, r.2.1, resume) }
    red := { s.red with
      enableAt := s.red.enableAt.map fun e => (resume, e.2), chanHist := s.red.chanHist.map fun _ => []
      quadHist := s.red.quadHist.map fun _ => [], prjs := s.red.prjs.map fun p => { p with out := [] } } }

/-- TK_ALIGN_LOAD: drivers off, TK loaded and its phase moved, once the last burst has ended (R237). -/
def execTkAlignLoad (s : State) : Out :=
  .next <|
    match s.time.realign with
    | some r =>
      if r.stopTk.isNone || r.loaded || s.converting then s
      else
        let s1 := forEach allSetts (fun s k => driverOut k s) s
        let v := s1.fabricTk
        let s2 := s1.modTime fun t =>
          { t with tk := BitVec.ofNat 64 v.1, tkPhase := v.2, eps := 0, realign := some { r with loaded := true, resumeFrom := v.1 + 400 } }
        let s3 := s2.modPlan fun p => { p with frameTk := v.1, frameLc := s.lcN * 256 - v.2 / 2 ^ 32 }
        realignPrjs v.1 (moveAll s.tkN v.1 (s3.boundaryFrom (v.1 + 400)) s3)
    | none => s

/-! PLAN_WRITE to PLAN_STATUS (R221 to R225). -/

/-- SHADOW_STATE (R221). -/
def bankCode : BankState → Nat
  | .empty => 0 | .written => 1 | .valid => 2 | .failed => 3

/-- 64-bit words from pairs of 32-bit words. -/
def pairWords : List Word → List Word64
  | a :: b :: t => (b ++ a) :: pairWords t
  | _ => []

/-- An image chunk enters a bank (R221). -/
def Bank.write (b : Bank) (first : Bool) (at_ : Nat) (ws : List Word64) : Bank :=
  { b with words := putAll at_ ws (if first then [] else b.words), state := .written
           upsets := if first then [] else b.upsets.filter fun u => decide (u.1 < at_ ∨ at_ + ws.length ≤ u.1) }

/-- PLAN_WRITE (R221). -/
def planWriteBody (_ : Ctx) (ws : List Word) (s : State) : Res :=
  let w := pw ws 0
  let off := bits w 16 0
  let n := bits w 24 17
  if !resv w 31 26 || n = 0 || 128 < n || off % 8 != 0 || decide (65600 < off + 8 * n) then refuse stBadParam s
  else if s.plan.swap.isSome then refuse stBusy s
  else
    let s1 := modShadow (fun b => b.write (bit w 25) (off / 8) (pairWords (ws.drop 1))) s
    let b := s1.plan.shadow
    .done stOk [w32 (fld 0 17 (8 * b.words.length) + fld 17 2 (bankCode b.state))] s1

def planWriteSpec : CmdSpec :=
  { code := 0x0500, access := fun c _ _ => accEng c, mode := modeAll
    length := fun ws => ws.length == 1 + 2 * bits (pw ws 0) 24 17, body := planWriteBody }

def execPlanWrite (p : Packet) (s : State) : Out := serve planWriteSpec p s

/-- PLAN_VALIDATE (R208, R218, R222). -/
def planValidateBody (_ : Ctx) (ws : List Word) (s : State) : Res :=
  if pw ws 0 != 0 then refuse stBadParam s
  else
    let b := s.plan.shadow
    let s0 := readBank s.plan.shadowId 0 bankWords s
    match s.validate b with
    | some e =>
      let s1 := if b.ecc then shadowEcc s0 else s0
      .done stPlanInvalid [w32 (fld 0 8 e.code + fld 8 13 e.idx), w32 (fld 0 21 e.offset), 0, 0, 0]
        ((modShadow (fun b => { b with state := .failed }) s1).modPlan fun p => { p with lastError := BitVec.ofNat 8 e.code })
    | none =>
      let c := b.asCycle
      let peak := s.peakMa c s.carried
      .done stOk ([0, 0, w32 (fld 0 11 peak + fld 16 14 c.frames.length)] ++ words64 (planDigest s.blockSett b))
        ((modShadow (fun b => { b with state := .valid, peakMa := peak }) s0).modPlan fun p => { p with lastError := 0 })

def planValidateSpec : CmdSpec :=
  { code := 0x0501, access := fun c _ _ => accEng c, mode := modeAll, length := fun ws => ws.length == 1
    body := planValidateBody }

def execPlanValidate (p : Packet) (s : State) : Out := serve planValidateSpec p s

/-- The ticks at which the shadow can take over: whole multiples of its frame, and boundaries of the active plan (R213, R214). -/
def State.swapGrid (s : State) : Nat := Nat.lcm (max 1 s.plan.frameTicks) (max 1 s.plan.shadow.frameTicks)

/-- The first edge at least 400 ticks ahead (R213). -/
def State.nextEdge (s : State) : Nat := firstTick s.swapGrid (s.tkN + 400)

/-- The digest of the shadow is not the one that a block in force holds (R216). -/
def State.swapLocked (s : State) : Bool :=
  s.safeLocked fun b => planDigest (fun k => b.settMask.getLsbD k.val) s.plan.shadow != b.planDigest.toNat

/-- The withdrawal by CANCEL 1, unless the edge has been reached (R215). -/
def cancelSwap (s : State) : Res :=
  match s.plan.swap with
  | some e =>
    if s.tkN < e then .done stOk (1 :: words64 e) (s.modPlan fun p => { p with swap := none })
    else .done stOk (0 :: words64 e) s
  | none => .done stOk [0, 0, 0] s

/-- PLAN_SWAP (R213 to R216, R223). -/
def planSwapBody (_ : Ctx) (ws : List Word) (s : State) : Res :=
  let w := pw ws 0
  let tk := nat64 (pw ws 1) (pw ws 2)
  if !resv w 31 2 || ((bit w 1 || !bit w 0) && tk != 0) || (bit w 1 && bit w 0) then refuse stBadParam s
  else if bit w 1 then cancelSwap s
  else if s.plan.swap.isSome then refuse stBusy s
  else if s.plan.shadow.state != .valid then refuse stPlanInvalid s
  else if bit w 0 && (tk % s.swapGrid != 0 || decide (tk < s.tkN + 20000) || decide (s.tkN + 200000000 < tk)) then refuse stBadParam s
  else if s.swapLocked then refuse stSafeLocked s
  else
    let e := if bit w 0 then tk else s.nextEdge
    .done stOk (0 :: words64 e) (s.modPlan fun p => { p with swap := some e })

def planSwapSpec : CmdSpec :=
  { code := 0x0502, access := fun c _ _ => accEng c, mode := fun _ s => modeIf (s.sup.mode != .safeCore)
    length := fun ws => ws.length == 3, body := planSwapBody }

def execPlanSwap (p : Packet) (s : State) : Out := serve planSwapSpec p s

/-- PLAN_READ (R218, R224). -/
def planReadBody (_ : Ctx) (ws : List Word) (s : State) : Res :=
  let w := pw ws 0
  let n := bits w 21 14
  let first := bits w 13 1
  let bad := if bit w 22 then n != 0 else n == 0 || decide (128 < n) || decide (8192 < first + n)
  if !resv w 31 23 || bad then refuse stBadParam s
  else
    let k := if bit w 0 then s.plan.shadowId else s.plan.activeBank
    let b := s.plan.banks[k]
    let at_ := if bit w 22 then 0 else 8 + first
    let m := if bit w 22 then 8 else n
    let words := if bit w 22 then (List.range 16).map b.header else (List.range n).flatMap fun i => words64 (b.entry (first + i)).toNat
    let s1 := readBank k at_ m s
    .done stOk words (if b.eccIn at_ m && bit w 0 then shadowEcc s1 else s1)

def planReadSpec : CmdSpec :=
  { code := 0x0503, access := fun c _ _ => accAny c, mode := modeAll, length := fun ws => ws.length == 1
    body := planReadBody }

def execPlanRead (p : Packet) (s : State) : Out := serve planReadSpec p s

/-- Reply words of PLAN_STATUS (R225). -/
def planStatusWords (s : State) : List Word :=
  let p := s.plan
  let b := p.bank
  let live := fun (n : Nat) => if p.active then n else 0
  [w32 (fld 0 1 p.activeBank.val + flag 1 p.active + fld 2 2 (bankCode p.shadow.state) + flag 4 p.swap.isSome + flag 5 p.budgetHold +
      fld 8 8 p.lastError.toNat + fld 16 13 p.segment),
   w32 (fld 0 21 p.frameTicks), w32 (live b.planId.toNat), p.frameCount] ++ words64 (p.swap.getD 0) ++
  [w32 (fld 0 11 (live b.peakMa) + fld 16 11 (live b.budget))]

def planStatusSpec : CmdSpec :=
  { code := 0x0504, access := fun c _ _ => accAny c, mode := modeAll, length := fun ws => ws.length == 1
    body := fun _ ws s => if pw ws 0 != 0 then refuse stBadParam s else .done stOk (planStatusWords s) s }

def execPlanStatus (p : Packet) (s : State) : Out := serve planStatusSpec p s

end Sys2Proof.Machine
end

