-- ==== Sys2Proof/Machine/Supply.lean ====
section
/-! DEFINITION. Rails, HOT_EN, the reset sources and what a reset leaves, the clocks and the temperature sensor, SYS_MODE_SET
and SYS_RESET (R29 to R36, R56, R58, R63 to R86, R573). -/

namespace Sys2Proof.Machine

/-! What is lost with the power domains (R26, R72). -/

/-- The supervisor when every other domain goes off: the causes of Safe-Core, VCORE_REQ and the sensor's counts are as at a start
(R33, R94, R573). An accepted SYS_RESET whose source is not yet active is dropped with the reset that overtakes it (R80; log
entry 203). -/
def Sup.kept (u : Sup) : Sup :=
  { u with causes := 0, vcoreReq := 0x0A, tjHigh := 0, tjLow := 0, tjSamples := 0, overtemp := false, pllLocked := 0
           sysResetDue := none, sysrefOk := true, safeAt := none }

/-- What the pair keeps in PD_AON, and the pair memory itself, which is a device of its own (R527, R533, R536, R537, R551). -/
def Pair.kept (p : Pair) : Pair :=
  { Pair.reset with
    word0 := p.word0, word1 := p.word1, ownLine := p.ownLine && !p.owns, standby := p.standby, cold := p.cold
    armed := p.armed, hbAt := p.hbAt, hbHeard := p.hbHeard, partnerSent := p.partnerSent, lastSync := p.lastSync, retainValid := p.retainValid, retainLanes := p.retainLanes, retainPorts := p.retainPorts
    retainMaps := p.retainMaps, retainDram := p.retainDram, takeovers := p.takeovers, ownWords := p.ownWords, slots := p.slots }

/-- The failed authentications and lockouts of the slots are kept in PD_AON; the keys are not (R94, R520). -/
def Prot.kept (p : Prot) : Prot :=
  { Prot.reset with slots := p.slots.map fun k => { KeySlot.reset with fails := k.fails, lockedUntil := k.lockedUntil } }

/-- Every domain but PD_AON goes off: what they hold is lost, the clocks stop, the pins are isolated and PAIR_OWN is released
(R26, R72). -/
def coreLoss (s : State) : State :=
  { State.reset with
    factory := s.factory
    sup := { s.sup.kept with mode := .hibernate }
    boot := { Startup.reset with failed := s.boot.failed, failCode := s.boot.failCode, frozenMs := s.boot.frozenMs, releaseAt := s.boot.releaseAt }
    time := { Time.reset with aonNs := s.time.aonNs }
    chains := s.factory.tAnPs.map Chain.reset
    lanes := { Lanes.reset with refPresent := s.lanes.refPresent }
    owl := { Owl.reset with commEn := s.owl.commEn }
    prot := s.prot.kept
    pair := s.pair.kept
    free := s.free
    pending := s.pending }

/-- Hibernate outside a reset: by command, by yield, or at the end of a standby sync (R30, R533). -/
def enterHibernate (s : State) : State := (coreLoss s).modSup fun u => { u with inReset := false }

/-- A reset source becomes active. The first one begins the reset; each is seen (R71, R77). One that becomes active after the
straps were sampled in the same reset has them sampled again (R57; log entry 201). -/
def resetBy (bitOf : Nat) (f : Sources → Sources) (s : State) : State :=
  let s1 := if s.sup.inReset then s else (coreLoss s).modSup fun u => { u with inReset := true, seen := 0 }
  s1.modSup fun u =>
    { u with src := f u.src, seen := u.seen ||| BitVec.ofNat 6 (2 ^ bitOf), straps := { u.straps with latched := false } }

/-- The hub is in reset rather than in Hibernate: RESET_N, SYS_RESET or the core clock holds it. A hub held by the other sources
alone is in Hibernate with a start condition missing (R37, R71). -/
def Sources.holds (r : Sources) : Bool := r.pin || r.cmd || r.clock

/-- No reset source is active. -/
def Sources.ended (r : Sources) : Bool := !(r.power || r.rail || r.hotEn || r.pin || r.cmd || r.clock)

/-- Every rail but VDD_AON is good (R63). -/
def Sup.railsGood (u : Sup) : Bool := (List.range 13).all fun c => u.railGood.getLsbD c

/-- The start conditions of R29, with the strap or without it (R533). -/
def Sup.startConditions (u : Sup) (strap : Bool) : Bool :=
  u.railsGood && u.hotQualified && !u.src.pin && !u.hold && !u.straps.factoryTest && !(strap && u.straps.pairRole)

/-- The supply VDD_AON is there. -/
def State.powered (s : State) : Bool := s.sup.mode != .off

/-! Rails and HOT_EN (R52, R63 to R70). -/

/-- VDD_AON_GOOD: Off to Hibernate, with the power-on and HOT_EN sources active (R30, R71). -/
def execVddAonGood (s : State) : Out :=
  guardNext (!s.powered) s <|
    (s.modTime fun t => { t with aonNs := 0 }).modSup fun u =>
      { u with mode := .hibernate, railGood := u.railGood ||| 0x2000, src := { Sources.none with power := true, hotEn := true }
               seen := 0x05, inReset := true, hold := false }

/-- VDD_AON_LOSS: Off, and all that PD_AON keeps is lost with it (R30, R66, R76). -/
def execVddAonLoss (s : State) : Out :=
  guardNext s.powered s <|
    { State.reset with
      factory := s.factory
      chains := s.factory.tAnPs.map Chain.reset
      lanes := { Lanes.reset with refPresent := s.lanes.refPresent }
      owl := { Owl.reset with commEn := s.owl.commEn }
      pair := { Pair.reset with ownLine := s.pair.ownLine && !s.pair.owns, ownWords := s.pair.ownWords, slots := s.pair.slots }
      free := s.free
      pending := s.pending }

/-- A rail becomes good; with the last one the power-on and rail-failure sources end (R71). -/
def setRailGood (c : Nat) (s : State) : State :=
  s.modSup fun u =>
    let u1 := { u with railGood := u.railGood ||| BitVec.ofNat 14 (2 ^ c) }
    if u1.railsGood then { u1 with src := { u1.src with power := false, rail := false } } else u1

/-- The VDD_IO bank of a rail code (R63). -/
def bankOf (c : Nat) : Option (Fin 4) := if 9 ≤ c then finOf 4 (c - 9) else none

/-- VCORE_MEAS at a measurement that no operand carries (log entry 2). -/
def measureVcore (s : State) : State :=
  let r := s.drawMeasured 8
  r.2.modSup fun u => { u with vcoreMeas := BitVec.ofNat 8 r.1 }

/-- RAIL_GOOD: a bank does not count as good before it has taken its level (R63, R64). -/
def execRailGood (rail : Fin 13) (s : State) : Out :=
  let levelled := match bankOf rail.val with
    | some b => (s.sup.bankLevel[b]).isSome
    | none => true
  guardNext (s.powered && levelled && !s.sup.railGood.getLsbD rail.val) s
    (setRailGood rail.val (if rail.val = 0 then measureVcore s else s))

/-- A bank takes its level. -/
def setBankLevel (b : Fin 4) (high : Bool) (s : State) : State :=
  s.modSup fun u => { u with bankLevel := vset u.bankLevel b (some high) }

/-- IO_BANK_LEVEL_3V3: the rail exceeds 2.5 V within 20 ms of crossing 1.62 V (R64). -/
def execIoBankLevel3v3 (bank : Fin 4) (s : State) : Out :=
  guardNext (s.powered && (s.sup.bankLevel[bank]).isNone) s (setBankLevel bank true s)

/-- IO_BANK_LEVEL_1V8: the bank takes the 1.8 V level, and is good then (R64). -/
def execIoBankLevel1v8 (bank : Fin 4) (s : State) : Out :=
  guardNext (s.powered && (s.sup.bankLevel[bank]).isNone) s (setRailGood (9 + bank.val) (setBankLevel bank false s))

/-- The number of the ACLK period at 32.768 kHz in which an instant of PD_AON time falls. -/
def aclkPeriod (ns : Nat) : Nat := ns * 32768 / 1000000000

/-- The first failed rail since the last release: the lowest code of the first ACLK period (R66). -/
def noteRail (rail now : Nat) : Option (Nat × Nat) → Nat × Nat
  | none => (rail, now)
  | some (r, p) => if p = now then (min r rail, p) else (r, p)

/-- RAIL_FAIL: a supervisor reset; in Hibernate it is a start condition that is missing (R66, R71). -/
def execRailFail (rail : Fin 13) (s : State) : Out :=
  guardNext (s.powered && s.sup.railGood.getLsbD rail.val) s <|
    let s1 := resetBy 1 (fun r => { r with rail := true }) s
    let s2 := s1.modSup fun u =>
      { u with jtagBalls := if rail.val = 0 ∨ rail.val = 9 then .functional else u.jtagBalls
               railGood := u.railGood &&& ~~~BitVec.ofNat 14 (2 ^ rail.val)
               firstFail := some (noteRail rail.val (aclkPeriod s.time.aonNs) u.firstFail) }
    match bankOf rail.val with
    | some b => s2.modSup fun u => { u with bankLevel := vset u.bankLevel b none }
    | none => s2

/-- HOT_EN_LOW: outputs and drivers go off, the pins are isolated, and the hub is in reset (R69). -/
def execHotEnLow (s : State) : Out :=
  guardNext s.powered s <|
    (resetBy 2 (fun r => { r with hotEn := true }) s).modSup fun u => { u with hotLevel := false, hotQualified := false }

/-- HOT_EN_QUALIFIED: the source ends, and so does a Hibernate hold (R29, R70). -/
def execHotEnQualified (s : State) : Out :=
  guardNext (s.powered && !s.sup.hotQualified) s <|
    s.modSup fun u => { u with hotLevel := true, hotQualified := true, hold := false, src := { u.src with hotEn := false } }

/-! RESET_N, the straps and the release (R29, R56 to R58, R71 to R77). -/

/-- RESET_N_ASSERT (R71, R74). -/
def execResetNAssert (s : State) : Out :=
  guardNext (s.powered && !s.sup.src.pin) s (resetBy 3 (fun r => { r with pin := true }) s)

/-- RESET_N_RELEASE: a hold of 163,840 ACLK periods or more sets LONG_RESET, and the release ends a Hibernate hold (R29, R75).
The notice stays due until firmware runs, and releases that are due together are noticed once (log entry 202). -/
def execResetNRelease (holdAclk : Nat) (s : State) : Out :=
  guardNext s.sup.src.pin s <|
    let long := decide (163840 ≤ holdAclk)
    s.modSup fun u =>
      { u with src := { u.src with pin := false }, hold := false, longReset := u.longReset || long
               longNoticeDue := u.longNoticeDue || long }

/-- STRAP_SAMPLE: at the fourth ACLK edge after RESET_N, or, where it was high, after the last other source (R56, R57, R71). -/
def execStrapSample (pairRole : Bool) (bootSrc : BitVec 2) (factoryTest : Bool) (s : State) : Out :=
  let u := s.sup
  guardNext (u.inReset && s.powered && !u.src.pin && !u.straps.latched && (u.seen.getLsbD 3 || u.src.ended)) s
    (s.modSup fun u => { u with straps := { pairRole := pairRole, bootSrc := bootSrc, factoryTest := factoryTest, latched := true } })

/-- RESET_STATUS is rewritten at the release of the internal reset (R66, R77). -/
def rewriteCauses (u : Sup) : Sup :=
  { u with resetCauses := u.seen.setWidth 7, firstFail := none, seen := 0, inReset := false
           railId := if u.seen.getLsbD 1 then BitVec.ofNat 4 ((u.firstFail.map (·.1)).getD 0) else 0 }

/-- The entry to Start-up that follows an executed SYS_RESET is the first one after it (R80). -/
def followReset (now : Nat) (u : Sup) : Sup :=
  if u.lastSysReset.isSome && u.resetEntry.isNone then { u with resetEntry := some now } else u

/-- Entry to Start-up (R29, R77, R80, R93). -/
def enterStartup (s : State) : State :=
  (s.modSup fun u => { followReset s.time.aonNs u with mode := .startup, startCount := satInc u.startCount }).modBoot fun _ =>
    { Startup.reset with releaseAt := s.time.aonNs }

/-- A start that is a standby sync: STEP 0xE (R530, R536). -/
def enterSync (s : State) : State := (s.modPair fun p => { p with syncing := true }).modBoot fun b => { b with takeStep := 0xE }

/-- INTERNAL_RESET_RELEASE: Start-up if the start conditions hold, Hibernate otherwise. A unit whose partner holds PAIR_OWN high
starts with a standby sync (R29, R71, R530, R533, R536). -/
def execInternalResetRelease (pairOwnHigh : Bool) (s : State) : Out :=
  let u := s.sup
  guardNext (u.inReset && s.powered && u.src.ended && u.straps.latched) s <|
    let s1 := ((s.modSup rewriteCauses).modBoot fun _ => { Startup.reset with releaseAt := s.time.aonNs }).modPair fun p =>
      { p with ownLine := pairOwnHigh, standby := s.sup.straps.pairRole, cold := false }
    if u.startConditions true then
      if pairOwnHigh then enterSync (enterStartup s1) else enterStartup s1
    else s1

/-! SYS_RESET and the core clock (R71, R78 to R80, R83). -/

/-- SYS_RESET (R78 to R80): the source becomes active 1 ms after the reply. A second one before that joins the first. -/
def sysResetBody (c : Ctx) (ws : List Word) (s : State) : Res :=
  let w := pw ws 0
  if !resv w 31 1 || (!bit w 0 && s.pair.paired) then refuse stBadParam s
  else
    let due := match s.sup.sysResetDue with
      | some (r, t) => (r && bit w 0, t)
      | none => (bit w 0, s.time.aonNs + 1000000)
    .done stOk [] (s.modSup fun u => { u with sysResetDue := some due, lastSysReset := some c.packet.reqId, resetEntry := none })

def sysResetSpec : CmdSpec :=
  { code := 0x0102, access := fun c _ _ => accEng c, mode := modeAll, length := fun ws => ws.length == 1
    body := sysResetBody }

def execSysReset (p : Packet) (s : State) : Out := serve sysResetSpec p s

/-- The supervisor's reset pulse of 10 µs begins (R71). -/
def pulseBy (bitOf : Nat) (f : Sources → Sources) (s : State) : State :=
  (resetBy bitOf f s).modSup fun u => { u with pulseEnd := s.time.aonNs + 10000 }

/-- SYS_RESET_SOURCE_ACTIVE: 1 ms after the reply; RESTART 0 sets the Hibernate hold (R29, R78, R80). -/
def execSysResetSourceActive (s : State) : Out :=
  .next <|
    match s.sup.sysResetDue with
    | none => s
    | some (restart, due) =>
      (pulseBy 4 (fun r => { r with cmd := true }) (atAon due s)).modSup fun u => { u with hold := u.hold || !restart }

/-- SYS_RESET_PULSE_END (R71). -/
def execSysResetPulseEnd (s : State) : Out :=
  guardNext s.sup.src.cmd s ((atAon s.sup.pulseEnd s).modSup fun u => { u with src := { u.src with cmd := false } })

/-- CORE_CLOCK_LOSS: a supervisor reset with CAUSE_CLOCK (R83). -/
def execCoreClockLoss (s : State) : Out :=
  guardNext (s.powered && s.sup.pllLocked.getLsbD 2) s (pulseBy 5 (fun r => { r with clock := true }) s)

/-- CLOCK_RESET_PULSE_END (R71). -/
def execClockResetPulseEnd (s : State) : Out :=
  guardNext s.sup.src.clock s ((atAon s.sup.pulseEnd s).modSup fun u => { u with src := { u.src with clock := false } })

/-! Clocks (R82 to R86). -/

/-- SYSREF_LOST: the time and sampling PLLs report loss of lock (R82, R85). -/
def execSysrefLost (s : State) : Out :=
  guardNext (s.served && s.sup.sysrefOk) s <|
    chipFault 0x05 (s.modSup fun u => { u with sysrefOk := false, pllLocked := u.pllLocked &&& 0xC })

/-- Bit of a PLL in PLL_LOCKED, and the FAIL_CODE that names it (R93). -/
def pllBit : Pll → Nat
  | .time => 0 | .sampling => 1 | .memory => 3

def pllCode : Pll → Byte
  | .time => 0x01 | .sampling => 0x02 | .memory => 0x04

/-- PLL_LOCK_LOSS: a fault that the chip cannot contain (R20, R83). -/
def execPllLockLoss (pll : Pll) (s : State) : Out :=
  guardNext (s.served && s.sup.pllLocked.getLsbD (pllBit pll)) s <|
    chipFault (pllCode pll) (s.modSup fun u => { u with pllLocked := u.pllLocked &&& ~~~BitVec.ofNat 4 (2 ^ pllBit pll) })

/-- LANE_PLL_LOCK_LOSS: the links of that group at that rate go down and retrain once the PLL locks again (R83, R376). -/
def execLanePllLockLoss (group : Fin 2) (rate : Bool) (s : State) : Out :=
  let i := pllIndex group.val rate
  guardNext s.lanes.pll[i] s <|
    let s1 := { s with lanes := { s.lanes with pll := vset s.lanes.pll i false } }
    forEach allPorts (fun s p =>
      let l := s.lane p
      if l.rx != .off && p.val / 16 == group.val && l.rate == rate then
        (retrain p s).modLane p fun l => { l with rx := .pll }
      else s) s1

/-- A measurement of VDD_CORE lies within 2 % of a request, both in the code of R68 (R67). -/
def vcoreNear (req measured : Byte) : Bool :=
  let v := fun (c : Byte) => 700 + 5 * (c.toNat : Int)
  measured != 0xFF && decide (100 * (v measured - v req).natAbs ≤ 2 * v req)

/-- VCORE_MISS: the rail is measured 100 ms after the notice, and is not where it was asked to be; a measurement within 2 %
only shows in VCORE_MEAS (R67, R565). -/
def execVcoreMiss (measured : Byte) (s : State) : Out :=
  .next <|
    match s.health.vcoreAt with
    | none => s
    | some t =>
      let s1 := ((atAon (t + 100000000) s).modSup fun u => { u with vcoreMeas := measured }).modHealth fun h => { h with vcoreAt := none }
      if vcoreNear s.sup.vcoreReq measured then s1
      else raise (s1.modHealth fun h => { h with vcoreFailed := true }) 0x1008 [s1.supplyStatus]

/-! Temperature (R573). -/

/-- Trip threshold in 1/16 °C (R573). -/
def tripAt (industrial : Bool) : Int := if industrial then 110 * 16 else 100 * 16

/-- One sample of the sensor, with OVERTEMP and its counts (R573). -/
def takeTemp (industrial : Bool) (tj : BitVec 16) (u : Sup) : Sup :=
  let hi := if tripAt industrial ≤ tj.toInt then min 8 (u.tjHigh + 1) else 0
  let lo := if tj.toInt < tripAt industrial - 160 then min 8 (u.tjLow + 1) else 0
  { u with tj := tj, tjHigh := hi, tjLow := lo, tjSamples := min 8 (u.tjSamples + 1)
           overtemp := if hi = 8 then true else if lo = 8 then false else u.overtemp }

/-- CAUSE_THERM clears with OVERTEMP (R33). -/
def clearTherm (u : Sup) : Sup :=
  if u.overtemp then u else { u with causes := u.causes &&& ~~~causeBit 1 }

/-- TEMP_SAMPLE: 1 ms after the last one; the sensor runs from step 0x2, or 0x9 of a takeover (R573). -/
def execTempSample (tj : BitVec 16) (s : State) : Out :=
  guardNext s.served s <|
    let s1 := atAon (s.sup.tempAt + 1000000) s
    judgeTherm (s1.modSup fun u => { clearTherm (takeTemp s.factory.industrial tj u) with tempAt := s1.time.aonNs })

/-! SYS_MODE_SET (R30 to R36). -/

/-- TARGET exists and the reserved bits are 0 (R32). -/
def targetOk (w : Word) : Bool := resv w 31 4 && [1, 3, 4, 5].contains (bits w 3 0)

/-- The mode from which a target can be reached (R30, R33, R34, R519). Service stays Service, and Safe-Core stays Safe-Core with
CAUSE_CMD, by the model's choice (log entry 110). A command that loses to a Safe-Core trigger of the same instant is out of its
mode (R31). -/
def targetMode (w : Word) (s : State) : Bool :=
  !(s.sup.mode == .safeCore && s.sup.safeAt == some s.time.aonNs) &&
  match bits w 3 0 with
  | 1 => s.sup.mode == .service
  | 3 => s.sup.mode == .service || (s.sup.mode == .test && s.prot.debugUntil.isNone) ||
      (s.sup.mode == .safeCore && s.sup.causes &&& 0xE == 0)
  | 4 => s.working || s.sup.mode == .safeCore
  | _ => s.sup.mode == .service

/-- The transition that an accepted target brings about (R30). -/
def goTo (w : Word) (s : State) : State :=
  match bits w 3 0 with
  | 1 => (enterHibernate s).modSup fun u => { u with hold := true }
  | 3 => if s.sup.mode = .test then leaveTest s else if s.sup.mode = .safeCore then leaveSafe s else s
  | 4 => enterSafe 0 s
  | _ => enterTest s

/-- SYS_MODE_SET (R32 to R36): Hibernate is not for a hub of a pair (R35). -/
def sysModeSetBody (_ : Ctx) (ws : List Word) (s : State) : Res :=
  let w := pw ws 0
  if bits w 3 0 = 1 ∧ s.pair.paired then refuse stBadParam s
  else
    let s1 := goTo w s
    .done stOk [s1.modeStatus] s1

def sysModeSetSpec : CmdSpec :=
  { code := 0x0101, access := fun c ws _ => if bits (pw ws 0) 3 0 = 5 then accEng c else accOp c
    mode := fun ws s => modeField (targetOk (pw ws 0)) (targetMode (pw ws 0) s), length := fun ws => ws.length == 1
    body := sysModeSetBody }

def execSysModeSet (p : Packet) (s : State) : Out := serve sysModeSetSpec p s

end Sys2Proof.Machine
end

