-- ==== Sys2Proof/Machine/Owl.lean ====
section
/-! DEFINITION. The safety parameter block, the Owl cycle, demand bits and outputs, off-pulses and safety connections (R470 to
R500). -/

namespace Sys2Proof.Machine

/-! The safety parameter block (R493 to R498). -/

/-- CRC-32 of IEEE 802.3 (R497). -/
def crcIeee (bs : List Byte) : Word := bs.foldl (crcByte 0xEDB88320) 0xFFFFFFFF ^^^ 0xFFFFFFFF

/-- The SCV of a block (R496). -/
def scvOf (ws : List Word) : Word := crcIeee (bytesOfWords ws)

/-- An SO entry; the entry of an unused output is 0 (R494, R495). -/
def soEntryOf (used : Bool) (a b : Word) : Option SoEntry :=
  let w := bits b 9 0
  let p := bits b 19 10
  let ok := if used then resv a 31 17 && resv b 31 20 && decide (50 ≤ w) && decide (w ≤ 800) && decide (1 ≤ p) && decide (p ≤ 600)
    else a == 0 && b == 0
  if ok then some { demandMask := a.extractLsb' 0 16, restartManual := bit a 16, widthMax := w, periodMax := p } else none

/-- An SI entry; the entry of an unused input is 0 (R494, R495). -/
def siEntryOf (used : Bool) (a : Word) : Option SiEntry :=
  let f := bits a 20 17
  let ok := if used then resv a 31 21 && decide (1 ≤ f) else a == 0
  if ok then some { demandMask := a.extractLsb' 0 16, latch := bit a 16, filterCyc := f } else none

/-- A sett descriptor of the sett that stands next in SETT_MASK (R494, R495). -/
def settDescOf (k : Nat) (a b : Word) : Option SettDesc :=
  let mode := bits a 12 11
  let il := bits a 16 13
  let ok := resv a 31 25 && bits a 5 0 == k && decide (bits a 8 6 ≤ 5) && mode != 3 && (mode == 0 || (decide (1 ≤ il) && decide (il ≤ 8))) &&
    (List.range 8).all fun n => decide (bits b (3 * n + 2) (3 * n) ≤ 4)
  if ok then some
      { sett := k, preset := a.extractLsb' 6 3, burst := bit a 9, lowPower := bit a 10, excMode := a.extractLsb' 11 2
        ilim := a.extractLsb' 13 4, vcode := a.extractLsb' 17 8, scales := b.extractLsb' 0 24, enabled := b.extractLsb' 24 8 }
  else none

/-- A monitor input from its SRC and INDEX. -/
def monInputOf (isPrj : Bool) (n : Nat) : Option MonInput :=
  if n < (if isPrj then 64 else 384) then some { isPrj := isPrj, index := n } else none

/-- A monitor entry from its eight words (R494, R495). -/
def monEntryOf (w : List Word) : Option MonEntry :=
  let a := pw w 0
  let b := pw w 1
  let kind := bits a 1 0
  let chk := bits b 17 16
  let limA := (pw w 2).toInt
  let limB := (pw w 3).toInt
  let speed := bits (pw w 4) 13 0
  let cyc := bits (pw w 6) 15 0
  let ok := kind != 0 && resv a 31 28 && resv b 31 27 && chk != 3 && resv (pw w 4) 31 14 && resv (pw w 6) 31 16 && pw w 7 == 0 &&
    (if kind = 2 then decide (limA < limB) else limB == 0) &&
    (if kind = 1 then decide (50 ≤ speed) && decide (speed ≤ 12800) else speed == 0) &&
    (if chk = 0 then pw w 5 == 0 && cyc == 0 else decide (1 ≤ cyc))
  let fb := monInputOf (bit a 13) (bits a 22 14)
  let ck := monInputOf (chk == 2) (bits b 26 18)
  if !ok || (bit a 12 && fb.isNone) || (chk != 0 && ck.isNone) then none
  else (monInputOf (bit a 2) (bits a 11 3)).map fun p =>
    { kind := a.extractLsb' 0 2, primary := p, fallback := if bit a 12 then fb else none, invTol := bits a 26 23, dir := bit a 27
      demandMask := b.extractLsb' 0 16, check := if chk = 0 then none else ck, limA := limA, limB := limB, speedUs := speed
      plausTol := (pw w 5).toNat, plausCyc := cyc }

/-- A connection entry (R494, R495). -/
def connEntryOf (a b : Word) : Option ConnEntry :=
  if resv a 15 12 then some
      { partner := a.extractLsb' 0 10, send := bit a 10, recv := bit a 11, sendMask := a.extractLsb' 16 16
        acceptMask := b.extractLsb' 0 16, lossMask := b.extractLsb' 16 16 }
  else none

/-- Every value of a list of optional ones, when all are there. -/
def allSome {α : Type} : List (Option α) → Option (List α)
  | [] => some []
  | some a :: t => (allSome t).map fun l => a :: l
  | none :: _ => none

/-- n groups of k words, one after another. -/
def wordGroups (k n : Nat) (ws : List Word) : List (List Word) := (List.range n).map fun i => (ws.drop (k * i)).take k

/-- The projection records, in strictly ascending PRJ, and the words after them (R494). -/
def prjRecords (hub : BitVec 10) : Nat → Nat → List Word → Option (List (Nat × PrjDef) × List Word)
  | 0, _, ws => some ([], ws)
  | n + 1, from_, ws =>
    let w := pw ws 0
    let i := bits w 5 0
    let len := 8 + 2 * bits w 12 7
    let d := prjDefOf (ws.take len)
    if decide (from_ ≤ i) && bit w 6 && resv w 31 19 && resv (pw ws 1) 31 21 && resv (pw ws 2) 31 21 && resv (pw ws 3) 31 16 &&
        decide (len ≤ ws.length) && prjDefOk hub i d then
      (prjRecords hub n (i + 1) (ws.drop len)).map fun r => ((i, d) :: r.1, r.2)
    else none

/-- The header of a block (R493). -/
def blockHeaderOk (ws : List Word) : Bool :=
  let h := fun k => pw ws k
  let pair := bit (h 6) 12 || bit (h 6) 13
  decide (16 ≤ ws.length) && h 0 == 0x5350484E && bits (h 1) 7 0 == 0 && bits (h 1) 15 8 == 1 && resv (h 1) 31 16 && h 2 != 0 &&
  decide (1 ≤ bits (h 3) 4 0) && decide (bits (h 3) 4 0 ≤ 16) && resv (h 3) 7 5 && decide (bits (h 3) 12 8 ≤ 16) && resv (h 3) 15 13 &&
  decide (bits (h 3) 19 16 ≤ 8) && resv (h 3) 31 20 && resv (h 5) 31 16 && resv (h 6) 31 22 &&
  (if pair then bits (h 6) 21 14 != 0 else bits (h 6) 21 14 == 0) && resv (h 9) 31 14 && bits (h 9) 13 0 == 4 * ws.length &&
  decide (4 * ws.length ≤ 8192) && (List.range 6).all fun k => h (10 + k) == 0

/-- A block taken apart: header, then the sections in order without gaps (R493 to R495). -/
def parseBlock (hub : BitVec 10) (ws : List Word) : Option Block :=
  if !blockHeaderOk ws then none
  else
    let h := fun k => pw ws k
    let mask : BitVec 48 := (h 5).extractLsb' 0 16 ++ h 4
    let ks := (List.range 48).filter fun k => mask.getLsbD k
    let soUsed : Byte := (h 6).extractLsb' 0 8
    let siUsed : BitVec 4 := (h 6).extractLsb' 8 4
    let sos := allSome ((List.range 8).map fun n => soEntryOf (soUsed.getLsbD n) (h (16 + 2 * n)) (h (17 + 2 * n)))
    let sis := allSome ((List.range 4).map fun n => siEntryOf (siUsed.getLsbD n) (h (32 + n)))
    let setts := allSome ((ks.zip (wordGroups 2 ks.length (ws.drop 36))).map fun x => settDescOf x.1 (pw x.2 0) (pw x.2 1))
    let nm := bits (h 3) 4 0
    let nc := bits (h 3) 19 16
    match sos, sis, setts, prjRecords hub (bits (h 3) 12 8) 0 (ws.drop (36 + 2 * ks.length)) with
    | some sos, some sis, some setts, some (prjs, rest) =>
      let mons := allSome ((wordGroups 8 nm rest).map monEntryOf)
      let conns := allSome ((wordGroups 2 nc (rest.drop (8 * nm))).map fun w => connEntryOf (pw w 0) (pw w 1))
      match mons, conns with
      | some mons, some conns =>
        if rest.length = 8 * nm + 2 * nc ∧ conns.Pairwise (fun a b => a.partner < b.partner) then
          some { words := ws, safetyId := h 2, settMask := mask, soUsed := soUsed, siUsed := siUsed, pair01 := bit (h 6) 12
                 pair23 := bit (h 6) 13, discMs := bits (h 6) 21 14, planDigest := h 8 ++ h 7, sos := sos, sis := sis, setts := setts
                 prjs := prjs, mons := mons, conns := conns }
        else none
      | _, _ => none
    | _, _, _, _ => none

/-- A sett is named in a block. -/
def Block.namesSett (b : Block) (k : Nat) : Bool := b.settMask.getLsbD k

/-- A channel lies in a named sett. -/
def Block.namesChan (b : Block) (c : Nat) : Bool := b.namesSett (c / 8)

/-- A monitor or check input is one that a block may name (R495). -/
def Block.inputOk (b : Block) (x : MonInput) : Bool := if x.isPrj then b.namesPrj x.index else b.namesChan x.index

/-- A channel that the block enables. -/
def Block.enables (b : Block) (c : Nat) : Bool := b.setts.any fun d => d.sett == c / 8 && d.enabled.getLsbD (c % 8)

/-- A monitor's primary or fallback, when it is a channel, is enabled (R495). -/
def Block.inputEnabled (b : Block) (x : MonInput) : Bool := x.isPrj || b.enables x.index

/-- A term of a block projection takes nothing from outside the block (R495). -/
def State.termInside (s : State) (b : Block) (t : Word64) : Bool :=
  match tSrc t with
  | 0 | 1 => b.namesChan (tIndex t)
  | 2 | 3 => match finOf 24 (tIndex t) with
    | some q => b.namesSett (s.quad[q]).sett.val
    | none => false
  | 4 => b.namesPrj (tIndex t)
  | _ => true

/-- Output period of a monitor input in ns under the block's descriptors, 0 for a sett in burst conversion. -/
def Block.inputPeriodNs (b : Block) (x : MonInput) : Nat :=
  if x.isPrj then 50 * ((b.prjs.find? fun p => p.1 == x.index).map fun p => p.2.period.toNat).getD 0
  else match b.setts.find? fun d => d.sett == x.index / 8 with
    | some d => if d.burst then 0 else 50 * presetPeriod d.preset.toNat
    | none => 0

/-- A monitor entry keeps to the rest of the block (R494, R495). -/
def Block.monOk (b : Block) (m : MonEntry) : Bool :=
  let ins := m.primary :: m.fallback.toList
  ins.all b.inputOk && ins.all b.inputEnabled && m.check.toList.all b.inputOk &&
  (m.kind != 1 || decide (b.inputPeriodNs m.primary ≤ 1000 * m.speedUs))

/-- A block is well formed (R495). -/
def State.blockOk (s : State) (b : Block) : Bool :=
  (b.mons.all b.monOk) && b.prjs.all fun p => p.2.terms.all (s.termInside b)

/-- The well-formed block that words spell (R495). -/
def State.goodBlock (s : State) (ws : List Word) : Option Block :=
  (parseBlock s.fab.hubId ws).bind fun b => if s.blockOk b then some b else none

/-! Demands and outputs (R475 to R480, R486, R487). -/

def State.modMon (s : State) (i : Fin 16) (f : Mon → Mon) : State := s.modOwl fun o => { o with mons := vmod o.mons i f }
def State.modSi (s : State) (i : Fin 4) (f : Si → Si) : State := s.modOwl fun o => { o with sis := vmod o.sis i f }
def State.modSo (s : State) (n : Fin 8) (f : So → So) : State := s.modOwl fun o => { o with sos := vmod o.sos n f }
def State.modConn (s : State) (i : Fin 8) (f : Conn → Conn) : State := s.modOwl fun o => { o with conns := vmod o.conns i f }

/-- The monitors of a block with their entries. -/
def Block.monitors (b : Block) : List (Fin 16 × MonEntry) :=
  (List.finRange 16).filterMap fun i => (b.mons[i.val]?).map fun m => (i, m)

/-- The used safety inputs with their entries. -/
def Block.inputs (b : Block) : List (Fin 4 × SiEntry) :=
  (List.finRange 4).filterMap fun i => if b.siUsed.getLsbD i.val then (b.sis[i.val]?).map fun e => (i, e) else none

/-- The used outputs with their entries. -/
def Block.outputs (b : Block) : List (Fin 8 × SoEntry) :=
  (List.finRange 8).filterMap fun i => if b.soUsed.getLsbD i.val then (b.sos[i.val]?).map fun e => (i, e) else none

/-- The connections of a block. -/
def Block.links (b : Block) : List (Fin 8 × ConnEntry) :=
  (List.finRange 8).filterMap fun i => (b.conns[i.val]?).map fun e => (i, e)

/-- The demand mask of an input; that of a pair is the union of both (R477). -/
def Block.siMask (b : Block) (i : Nat) : BitVec 16 :=
  let m := fun n => ((b.sis[n]?).map (·.demandMask)).getD 0
  if i < 2 ∧ b.pair01 then m 0 ||| m 1 else if 2 ≤ i ∧ b.pair23 then m 2 ||| m 3 else m i

/-- The two inputs of a pair, when the block pairs them and uses both (R477). -/
def Block.pairOf (b : Block) (p : Fin 2) : Option (Fin 4 × Fin 4) :=
  if p.val = 0 then (if b.pair01 && b.siUsed &&& 3 == 3 then some (0, 1) else none)
  else if b.pair23 && b.siUsed &&& 12 == 12 then some (2, 3) else none

/-- The union of masks. -/
def orMasks (l : List (BitVec 16)) : BitVec 16 := l.foldl (· ||| ·) 0

/-- A connection has been synchronised for 1 ms (R486, R487). -/
def Conn.steady (c : Conn) (lc : Nat) : Bool := c.synced && decide (c.okSince + 1000000 ≤ lc)

/-- The latched demand bits (R475 to R477, R486). -/
def latchedBits (o : Owl) : BitVec 16 :=
  orMasks (o.mons.toList.map (·.held) ++ o.sis.toList.map (·.held) ++ o.discHeld.toList ++ o.conns.toList.map (·.held))

/-- The asserted demand bits (R478). -/
def demandBits (lc : Nat) (o : Owl) : BitVec 16 :=
  match o.block with
  | none => 0
  | some b =>
    latchedBits o ||| orMasks (b.inputs.map fun x => if (o.sis[x.1]).filtered then 0 else b.siMask x.1.val) |||
    orMasks (b.links.map fun x =>
      if x.2.recv then (o.conns[x.1]).demand ||| (if (o.conns[x.1]).steady lc then 0 else x.2.lossMask) else 0)

/-- The modes in which an output may be energised (R478). -/
def State.outputMode (s : State) : Bool :=
  s.sup.mode == .service || s.sup.mode == .safeCore || (s.sup.mode == .startup && s.boot.recovery)

/-- Conditions 1 to 4 of R478 on a used output; a yield and a failed start or core keep every output off (R90, R491, R549). -/
def State.canEnergise (s : State) (e : SoEntry) : Bool :=
  let o := s.owl
  !o.mismatch && s.outputMode && !o.soFault && !o.fail && o.ready && !o.testHold && o.demand &&& e.demandMask == 0 && s.pair.yieldStep == .none &&
  !s.boot.failed

/-- SO_n is energised: commanded on and not in an off-pulse (R478, R481). -/
def So.energised (o : So) : Bool := o.on && o.pulse.isNone

/-- One output is commanded: off at once, on only once no off-pulse runs (R478, R482). -/
def commandOutput (s : State) (x : Fin 8 × SoEntry) : State :=
  let ok := s.canEnergise x.2 && (!x.2.restartManual || (s.owl.sos[x.1]).resetSeen)
  s.modSo x.1 fun o => if !ok then dropOutput o else if o.pulse.isSome then o else { o with on := true }

/-- Steps 3 and 4 of a cycle: the demand bits, and then the outputs (R470, R478). -/
def commandOutputs (s : State) : State :=
  let s1 := s.modOwl fun o => { o with demand := demandBits s.lcN o }
  match s1.owl.block with
  | none => outputsOff s1
  | some b => forEach b.outputs commandOutput s1

/-- The start of Owl's cycle that runs now (R470). -/
def State.cycleStart (s : State) : Nat := s.owl.cycleAt + (s.lcN - s.owl.cycleAt) / 50000 * 50000

/-- The first start of a cycle at or after an instant of LC (R470). -/
def State.cycleFrom (s : State) (lc : Nat) : Nat := s.owl.cycleAt + (lc - s.owl.cycleAt + 49999) / 50000 * 50000

/-- The SAFE_TRIP notice, with the LC of the cycle (R506). -/
def raiseTrip (source index cause : Nat) (mask : BitVec 16) (x : Int) (s : State) : State :=
  raise s 0x0600 ([w32 (fld 0 4 source + fld 4 4 index + fld 8 2 cause + fld 16 16 mask.toNat), w32i x] ++ words64 s.cycleStart)

/-- A monitor trips: its bits are asserted and latched (R475). -/
def tripMon (i : Fin 16) (m : MonEntry) (cause : Nat) (s : State) : State :=
  raiseTrip 0 i.val cause m.demandMask (s.owl.mons[i]).x (s.modMon i fun x => { x with tripped := true, held := m.demandMask })

/-- Owl has failed: every SO is off and latched off, and R20 applies (R491). -/
def owlFailure (s : State) : State :=
  chipFault 0x12 (raiseTrip 5 0 0 0 0 ((outputsOff s).modOwl fun o => { o with fail := true }))

/-! Monitor inputs (R471). -/

/-- The newest word of a monitor input. -/
def State.newestWord (s : State) (x : MonInput) : Option InWord :=
  if x.isPrj then (finOf 64 x.index).bind fun p => (s.prj p).out.head?
  else (chanAt x.index).bind fun c => (s.red.chanHist[c]).head?

/-- Output period of an input in ticks; a sett in burst conversion has none on the grid, and the longest gap that its plan can
leave is the frame (R471). -/
def State.monPeriod (s : State) (x : MonInput) : Nat :=
  if x.isPrj then ((finOf 64 x.index).map fun p => (s.prj p).defn.period.toNat).getD 0
  else match chanAt x.index with
    | some c => if (s.setts[settOf c]).burstMode then s.plan.frameTicks else s.period (settOf c)
    | none => 0

/-- Arrival bound of an input, LATENCY for a projection (R301, R471). -/
def State.monBound (s : State) (x : MonInput) : Nat :=
  if x.isPrj then ((finOf 64 x.index).map fun p => (s.prj p).latencyNs).getD 0
  else ((chanAt x.index).map s.chanBound).getD 0

/-- The input instant of a word in LC. -/
def State.instantLc (s : State) (w : InWord) : Int := s.lcOfTick w.tick / 256

/-- A word is fresh in a cycle that starts now (R471). -/
def State.fresh (s : State) (x : MonInput) (w : InWord) : Bool :=
  decide ((s.lcN : Int) ≤ s.instantLc w + s.lcSpan (s.monBound x + 50 * s.monPeriod x) + 50000)

/-- The valid value and instant of an input in this cycle (R471). -/
def State.monValue (s : State) (x : MonInput) : Option (Int × Int) :=
  (s.newestWord x).bind fun w =>
    if w.flags &&& (flagStl ||| flagInv ||| flagRet ||| flagTu) == 0 && s.fresh x w then
      some (if x.isPrj then w.value else 256 * w.value, s.instantLc w)
    else none

/-- The older value of an SLS monitor: the newest valid one at least SPEED_US before (R473). -/
def olderValue (speedUs : Nat) (tn : Int) (hist : List (Option (Int × Int))) : Option (Int × Int) :=
  (hist.filterMap id).find? fun h => decide (h.2 ≤ tn - 1000 * speedUs)

/-- A speed limit is exceeded between two values (R473). -/
def tooFast (limA : Int) (new old : Int × Int) : Bool :=
  decide (limA * (new.2 - old.2) < ((new.1 - old.1).natAbs : Int) * 1000000)

/-- What the kind of a monitor says of a valid value: none where the cycle is invalid, else whether a limit is exceeded, with the
SDI extreme (R473). -/
def judgeKind (m : MonEntry) (was : Option Int) (v : Int × Int) (hist : List (Option (Int × Int))) : Option (Bool × Option Int) :=
  if m.kind = 1 then (olderValue m.speedUs v.2 hist).map fun o => (tooFast m.limA v o, was)
  else if m.kind = 2 then some (decide (v.1 < m.limA ∨ m.limB < v.1), was)
  else
    let ext := match was with
      | none => v.1
      | some e => if m.dir then min e v.1 else max e v.1
    some (decide (m.limA < (if m.dir then v.1 - ext else ext - v.1)), some ext)

/-- One cycle of a monitor: its state after it, and whether it trips with cause LIMIT (R472 to R475). -/
def monCycle (s : State) (m : MonEntry) (x : Mon) : Mon × Bool :=
  let p := s.monValue m.primary
  let f := m.fallback.bind s.monValue
  let used := p.orElse fun _ => f
  let hp := (p :: x.histP).take 256
  let hf := (f :: x.histF).take 256
  let r := used.bind fun v => (judgeKind m x.m v (if p.isSome then hp else hf)).map fun j => (v, j)
  let chk := m.check.bind s.monValue
  let apart := match used, chk with
    | some v, some c => some (decide ((m.plausTol : Int) < (v.1 - c.1).natAbs))
    | _, _ => none
  let x1 := { x with
    histP := hp, histF := hf, fallback := p.isNone && f.isSome, invalid := r.isNone
    invalidRun := if r.isNone then x.invalidRun + 1 else 0, x := (used.map (·.1)).getD x.x
    m := match r with
      | some (_, _, e) => e
      | none => x.m
    plausRun := match apart with
      | some true => x.plausRun + 1
      | some false => 0
      | none => x.plausRun
    chkInvalid := if m.check.isSome && chk.isNone then x.chkInvalid + 1 else 0
    fit := (match r with
      | some (_, lim, _) => !lim
      | none => false) && (m.check.isNone || apart == some false) }
  (x1, match r with
    | some (_, lim, _) => lim && !x.tripped
    | none => false)

/-- Step 2 of a cycle for one monitor. -/
def evalMon (s : State) (im : Fin 16 × MonEntry) : State :=
  let r := monCycle s im.2 s.owl.mons[im.1]
  let s1 := s.modMon im.1 fun _ => r.1
  if r.2 then tripMon im.1 im.2 0 s1 else s1

/-- A cycle's reading of a used safety input; one with LATCH latches its bits while its filtered level is low (R476). -/
def readSi (b : Block) (si : BitVec 4) (s : State) (x : Fin 4 × SiEntry) : State :=
  let l := si.getLsbD x.1.val
  s.modSi x.1 fun i =>
    { i with level := l, run := if l = i.filtered then 0 else min 15 (i.run + 1)
             held := if !i.filtered && x.2.latch then b.siMask x.1.val else i.held }

/-- A cycle's reading of SOFB_n (R480, R505). -/
def readSo (sofb : Byte) (s : State) (x : Fin 8 × SoEntry) : State :=
  let l := sofb.getLsbD x.1.val
  s.modSo x.1 fun o =>
    { o with sofb := l, lowSince := if l then s.lcN else o.lowSince
             differSince := if l = o.energised then none else some (o.differSince.getD s.lcN) }

/-- Since when the inputs of a pair differ (R477). -/
def judgePair (b : Block) (s : State) (p : Fin 2) : State :=
  match b.pairOf p with
  | some (i, j) =>
    let d := (s.owl.sis[i]).filtered != (s.owl.sis[j]).filtered
    s.modOwl fun o => { o with discSince := vmod o.discSince p fun t => if d then some (t.getD s.lcN) else none }
  | none => s

/-- READY is set in the first cycle in which every monitor has a valid input (R479), and the first such cycle after Test ends
the hold of R36; CONFIG_MISMATCH clears in the first in which all
match (R500). -/
def judgeReady (b : Block) (s : State) : State :=
  let valid := b.mons.all fun m => (s.monValue m.primary).isSome || (m.fallback.bind s.monValue).isSome
  let bad := s.owl.mismatch && !s.matchesBlock b
  s.modOwl fun o =>
    { o with ready := o.ready || valid, testHold := o.testHold && !(valid && s.sup.mode != .test), mismatch := bad }

/-- OWL_CYCLE: one cycle 50,000 LC counts after the last (R470). -/
def execOwlCycle (si : BitVec 4) (sofb : Byte) (selfTestOk : Bool) (s : State) : Out :=
  guardNext (s.served && s.owl.running && !s.owl.fail) s <|
    let s1 := atLc (s.owl.cycleAt + 50000) s
    let s2 := s1.modOwl fun o => { o with cycleAt := s1.lcN, cycles := o.cycles + 1, alive := !o.alive }
    if !selfTestOk then owlFailure s2
    else match s2.owl.block with
      | none => commandOutputs s2
      | some b =>
        let s3 := forEach (List.finRange 2) (judgePair b) (forEach b.outputs (readSo sofb) (forEach b.inputs (readSi b si) s2))
        commandOutputs (judgeReady b (forEach b.monitors evalMon s3))

/-- OWL_WATCHDOG_EXPIRY: no toggle within 4 ACLK periods, 122 µs, of the last one; the supervisor drives every SO low (R490,
R491). -/
def execOwlWatchdogExpiry (s : State) : Out :=
  guardNext (s.served && s.owl.running && !s.owl.fail) s (owlFailure (atLc (s.owl.cycleAt + 122000) s))

/-- A monitor of the block in force. -/
def State.monAt (s : State) (i : Fin 16) : Option MonEntry := s.owl.block.bind fun b => b.mons[i.val]?

/-- MONITOR_INVALID_TRIP: more invalid cycles than INV_TOL (R472). -/
def execMonitorInvalidTrip (mon : Fin 16) (s : State) : Out :=
  .next <|
    match s.monAt mon with
    | some m =>
      if (s.owl.mons[mon]).tripped || (s.owl.mons[mon]).invalidRun ≤ m.invTol then s else commandOutputs (tripMon mon m 1 s)
    | none => s

/-- MONITOR_PLAUS_TRIP: PLAUS_CYC implausible cycles, or a check input invalid for 1 s (R474). -/
def execMonitorPlausTrip (mon : Fin 16) (s : State) : Out :=
  .next <|
    match s.monAt mon with
    | some m =>
      let x := s.owl.mons[mon]
      if m.check.isSome && !x.tripped && (decide (m.plausCyc ≤ x.plausRun) || decide (20000 ≤ x.chkInvalid)) then
        commandOutputs (tripMon mon m 2 s)
      else s
    | none => s

/-- SI_FILTER_CHANGE: the filtered level follows FILTER_CYC cycles; a low level demands, and latches with LATCH (R476). -/
def execSiFilterChange (si : Fin 4) (s : State) : Out :=
  .next <|
    match s.owl.block with
    | none => s
    | some b => match b.inputs.find? fun x => x.1 == si with
      | none => s
      | some (_, e) =>
        let i := s.owl.sis[si]
        if i.run < e.filterCyc then s
        else
          let low := i.filtered
          let s1 := forEach (List.finRange 2) (judgePair b) (s.modSi si fun i =>
            { i with filtered := !i.filtered, run := 0, held := if low && e.latch then b.siMask si.val else i.held })
          commandOutputs (if low then raiseTrip 1 si.val 0 (b.siMask si.val) 0 s1 else s1)

/-- SI_DISC: the levels of a pair differ for longer than DISC_MS (R477). -/
def execSiDisc (pair : Fin 2) (s : State) : Out :=
  .next <|
    match s.owl.block with
    | none => s
    | some b => match b.pairOf pair, s.owl.discSince[pair] with
      | some (i, _), some t =>
        if s.owl.siDisc.getLsbD pair.val then s
        else
          let m := b.siMask i.val
          let s1 := (atLc (t + b.discMs * 1000000) s).modOwl fun o =>
            { o with siDisc := o.siDisc ||| BitVec.ofNat 2 (2 ^ pair.val), discHeld := vset o.discHeld pair m }
          commandOutputs (raiseTrip 2 pair.val 0 m 0 s1)
      | _, _ => s

/-- The entry of an output that the block in force uses. -/
def State.soAt (s : State) (n : Fin 8) : Option SoEntry :=
  s.owl.block.bind fun b => (b.outputs.find? fun x => x.1 == n).map (·.2)

/-- SO_READBACK_FAILURE: all outputs go off, the failure is latched, and the hub enters Safe-Core with CAUSE_SO (R480). -/
def execSoReadbackFailure (so : Fin 8) (s : State) : Out :=
  guardNext (s.served && s.owl.running && (s.soAt so).isSome && !s.owl.soFault) s <|
    let s1 := (outputsOff s).modOwl fun o => { o with soFault := true, pulseFail := satInc o.pulseFail }
    enterSafe 3 (raiseTrip 4 so.val 0 0 0 s1)

/-! Off-pulses (R481, R482). -/

/-- OFF_PULSE_DUE: the next multiple of the period; an output that is off is skipped (R481, R482). -/
def execOffPulseDue (so : Fin 8) (s : State) : Out :=
  guardNext (s.served && s.owl.running && (s.soAt so).isSome) s <|
    let o := s.owl.sos[so]
    let s1 := atLc (o.dueFrom + (o.dueCount + 1) * o.period.toNat * 100000000) s
    s1.modSo so fun o =>
      if o.on then { o with dueCount := o.dueCount + 1, due := true, dueWidth := o.width }
      else { o with dueCount := o.dueCount + 1, skipped := satInc o.skipped }

/-- The frame of the plan's cycle that the sequencer is in (R198). -/
def Plan.frameIndex (c : Cycle) (p : Plan) : Nat := c.frames.findIdx fun seg => (seg.head?.map (·.1)) == some p.segment

/-- The windows that the active plan opens from tick a on and before tick b: SO_MASK, first tick, tick after the last (R206). -/
def Plan.windowsAhead (p : Plan) (a b : Nat) : List (Byte × Nat × Nat) :=
  let c := p.bank.asCycle
  if !p.active || p.stopped || c.len = 0 then []
  else
    let passes := (b + c.len - p.frameTk) / c.len + 1
    (List.range passes).flatMap fun n =>
      (c.timed.filter fun t => eType t.e == 9).filterMap fun t =>
        let at_ := p.frameTk + n * c.len + t.tick
        let back := p.frameIndex c * c.ft
        if a + back ≤ at_ ∧ at_ < b + back then
          some (BitVec.ofNat 8 (eArg t.e), at_ - back, at_ - back + eArg t.e / 2 ^ 8)
        else none

/-- The windows that an output may use within `need` ticks of now: those open, and those that the plan opens meanwhile, which merge
with them. A pending swap ends them at its edge (R206, R217). -/
def State.windowsNow (s : State) (need : Nat) : List (Byte × Nat × Nat) :=
  let edge := s.plan.swap.getD (s.tkN + need)
  (s.plan.windows ++ s.plan.windowsAhead s.tkN (s.tkN + need)).filterMap fun w =>
    if w.2.1 < edge then some (w.1, w.2.1, if s.plan.swap.isSome then min w.2.2 edge else w.2.2) else none

/-- The tick after the windows of an output that run on from now, merged (R206, R481). -/
def windowEnd (so : Nat) (ws : List (Byte × Nat × Nat)) : Nat → Nat → Nat
  | 0, t => t
  | n + 1, t =>
    let m := (ws.filter fun w => w.1.getLsbD so && decide (w.2.1 ≤ t)).foldl (fun m w => max m w.2.2) t
    if m = t then t else windowEnd so ws n m

/-- A due pulse of an output can start now: inside a window with room for the pulse and its readback (R481). -/
def State.pulseFits (s : State) (n : Fin 8) : Bool :=
  let o := s.owl.sos[n]
  let need := 20 * (o.dueWidth.toNat + 20)
  let ws := s.windowsNow need
  o.due && o.on && o.pulse.isNone && decide (s.tkN + need ≤ windowEnd n.val ws ws.length s.tkN)

/-- No pulse or readback of this output is in progress (R481). -/
def So.idle (o : So) (lc : Nat) : Bool := o.pulse.isNone && decide (o.readUntil ≤ lc)

/-- OFF_PULSE_START: one pulse and readback at a time, in SO order (R481). -/
def execOffPulseStart (so : Fin 8) (s : State) : Out :=
  let free := (List.finRange 8).all fun n => (s.owl.sos[n]).idle s.lcN && (decide (so ≤ n) || !s.pulseFits n)
  guardNext (s.served && s.owl.running && (s.soAt so).isSome && free && s.pulseFits so) s
    (s.modSo so fun o => { o with pulse := some s.lcN, due := false, pulseTaken := false, pulseWidth := o.dueWidth })

/-- OFF_PULSE_END: the output is energised again, unless something has taken the pulse over; the readback delays are kept
(R481, R482, R504). -/
def execOffPulseEnd (so : Fin 8) (tFall tRise : Byte) (s : State) : Out :=
  .next <|
    match (s.owl.sos[so]).pulse with
    | none => s
    | some t =>
      let e := t + 1000 * (s.owl.sos[so]).pulseWidth.toNat
      let s1 := (atLc e s).modSo so fun o =>
        if o.pulseTaken then { o with pulse := none, tFall := tFall }
        else { o with pulse := none, tFall := tFall, tRise := tRise, readUntil := e + 100 * tRise.toNat }
      match s1.soAt so with
      | some e => commandOutput s1 (so, e)
      | none => s1

/-! Safety connections (R485 to R487). -/

/-- The bits that a connection sends (R485). -/
def sentBits (s : State) (e : ConnEntry) : BitVec 16 := s.owl.demand &&& e.sendMask

/-- A SAFETY_DATA frame to a partner (R485). -/
def sendSafety (i : Fin 8) (b : Block) (e : ConnEntry) (s : State) : State :=
  let ws := [b.safetyId, w32 (fld 0 16 (s.owl.conns[i]).sendSeq.toNat + fld 16 16 (sentBits s e).toNat),
    w32 (fld 0 10 s.fab.hubId.toNat + flag 10 s.owl.ready)]
  sendFrame (mkFrame s 0 0x03 false false e.partner none (ws ++ [crcIeee (bytesOfWords ws)]))
    (s.modConn i fun c => { c with sendSeq := c.sendSeq + 1, sentBits := sentBits s e })

/-- A connection of the block in force. -/
def State.connAt (s : State) (i : Fin 8) : Option (Block × ConnEntry) :=
  if !s.served || !s.owl.running then none else s.owl.block.bind fun b => (b.conns[i.val]?).map fun e => (b, e)

/-- SAFETY_DATA_TX: every 100 µs of LC (R485). -/
def execSafetyDataTx (conn : Fin 8) (s : State) : Out :=
  .next <|
    match s.connAt conn with
    | some (b, e) =>
      if !e.send then s
      else
        let s1 := atLc ((s.owl.conns[conn]).sentAt + 100000) s
        sendSafety conn b e (s1.modConn conn fun c => { c with sentAt := s1.lcN, extraSent := false })
    | none => s

/-- SAFETY_DATA_EXTRA_TX: after a change of the bits sent, at most once in an interval (R485). -/
def execSafetyDataExtraTx (conn : Fin 8) (s : State) : Out :=
  .next <|
    match s.connAt conn with
    | some (b, e) =>
      let c := s.owl.conns[conn]
      if !e.send || c.extraSent || c.sentBits == sentBits s e then s
      else sendSafety conn b e (s.modConn conn fun c => { c with extraSent := true })
    | none => s

/-- Missed frames are counted (R486). -/
def missFrames (n : Nat) (s : State) : State := s.modOwl fun o => { o with missed := satAdd o.missed n }

/-- A frame from a partner: accepted, taken as the resynchronising frame, or missed (R486, R487). -/
def takeSafety (i : Fin 8) (b : Block) (e : ConnEntry) (w0 w1 w2 w3 : Word) (s : State) : State :=
  let c := s.owl.conns[i]
  let seq : BitVec 16 := w1.extractLsb' 0 16
  let ahead := (seq - c.lastSeq).toNat
  let good := w0 == b.safetyId && w3 == crcIeee (bytesOfWords [w0, w1, w2])
  if good && (c.synced || c.resync) && decide (1 ≤ ahead) && decide (ahead ≤ 3) then
    missFrames (ahead - 1) (s.modConn i fun c =>
      { c with synced := true, resync := false, lost := false, lastSeq := seq, acceptAt := s.lcN
               demand := w1.extractLsb' 16 16 &&& e.acceptMask, okSince := if c.synced then c.okSince else s.lcN })
  else if good && !c.synced && !c.resync then
    s.modConn i fun c => { c with resync := true, lastSeq := seq, acceptAt := s.lcN }
  else missFrames 1 s

/-- SAFETY_DATA_RX: by the connection with RECV for the SRC of the frame (R485 to R487). -/
def execSafetyDataRx (w0 w1 w2 w3 : Word) (s : State) : Out :=
  .next <|
    match (List.finRange 8).find? fun i => match s.connAt i with
        | some (_, e) => e.recv && e.partner == w2.extractLsb' 0 10
        | none => false with
    | some i => match s.connAt i with
      | some (b, e) => takeSafety i b e w0 w1 w2 w3 s
      | none => s
    | none => s

/-- SAFETY_CONN_LOSS: 300 µs without an accepted frame, judged at a cycle's start. A synchronised connection is lost, and its
LOSS_MASK latched; one that waits after its resynchronising frame waits for another (R486, R487). -/
def execSafetyConnLoss (conn : Fin 8) (s : State) : Out :=
  .next <|
    match s.connAt conn with
    | some (_, e) =>
      let c := s.owl.conns[conn]
      if !e.recv || !(c.synced || c.resync) then s
      else
        let s1 := atLc (s.cycleFrom (c.acceptAt + 300000)) s
        if !c.synced then s1.modConn conn fun c => { c with resync := false }
        else
          let s2 := s1.modConn conn fun c => { c with synced := false, resync := false, lost := true, held := e.lossMask }
          commandOutputs (raiseTrip 3 conn.val 0 e.lossMask 0 s2)
    | none => s

end Sys2Proof.Machine
end

