-- ==== Sys2Proof/Machine/Protect.lean ====
section
/-! DEFINITION. Proposals of changes to the protected set: their objects, roles and digests, how one is recorded and how it
ends (R507 to R515, R525). -/

namespace Sys2Proof.Machine

/-- The roles, any one of which a proposer and a confirmer of a change must hold (R510). -/
def changeRoles (code action : Nat) : BitVec 4 :=
  if code = 0x0D01 ∨ code = 0x1003 then 0b0110
  else if code = 0x0E03 then 0b1110
  else if code = 0x0E00 ∧ action ≠ 0 then 0b1100
  else 0b1010

/-- The roles that the two must hold between them (R510). -/
def changeRequired (code action : Nat) : BitVec 4 :=
  if code = 0x0D01 ∨ code = 0x1003 then 0b0100
  else if code = 0x0E03 ∨ code = 0x0E05 then 0b1000
  else if code = 0x0E00 ∧ action ≠ 0 then 0b1100
  else 0

/-- The object of a change: two changes of one object are not held together (R513). -/
def changeObject (code action : Nat) (ws : List Word) : Nat × Nat :=
  if code = 0x0E03 then (code, bits (pw ws 0) 2 0)
  else if code = 0x1003 then (code, bits (pw ws 0) 10 0)
  else (code, action)

/-- The generic change digest over the bytes of a change as it would be applied (R511). -/
def genericDigest (s : State) (code action : Nat) (change : List Byte) : List Byte :=
  sha256 (leBytes 2 code ++ leBytes 2 s.fab.hubId.toNat ++ leBytes 4 action ++ change)

def Proposal.object (p : Proposal) : Nat × Nat := changeObject p.opcode.toNat p.action.toNat p.params

/-- A proposal that is still held: 300 s of LC have not passed (R514, R515). -/
def State.proposalAt (s : State) (i : Fin 8) : Option Proposal :=
  match s.prot.proposals[i] with
  | some p => if s.lcN < p.since + 300000000000 then some p else none
  | none => none

def State.setProposal (s : State) (i : Fin 8) (p : Option Proposal) : State :=
  s.modProt fun x => { x with proposals := vset x.proposals i p }

/-- A digest as eight result words, byte 0 first (R512). -/
def digestWords (d : List Byte) : List Word := wordsOfBytes d

/-- The result words with NEEDS_SECOND_PARTY (R512). -/
def partyWords (i : Fin 8) (p : Proposal) : List Word := w32 i.val :: digestWords p.digest

/-- Body of PROT_APPLIED and PROT_EXPIRED (R525). -/
def protBody (p : Proposal) (confirmer cause : Nat) : List Word :=
  w32 (fld 0 16 p.opcode.toNat + fld 16 3 p.slot.val + fld 19 3 confirmer + fld 22 2 p.action.toNat + fld 24 2 cause) ::
    (digestWords p.digest).take 2

/-- A held proposal ends without effect, with its notice: cause 0 expired, 1 aborted, 2 withdrawn (R515). -/
def endProposal (i : Fin 8) (cause : Nat) (s : State) : State :=
  match s.prot.proposals[i] with
  | some p => raise (s.setProposal i none) 0x0701 (protBody p 0 cause)
  | none => s

/-- A change that has passed its checks is recorded as a proposal (R512, R513); one that is past its time there has expired
first (R515). -/
def propose (c : Ctx) (action code : Nat) (params : List Word) (digest : List Byte) (s : State) : Res :=
  match c.slot with
  | none => refuse stProtected s
  | some k =>
    let p : Proposal :=
      { action := BitVec.ofNat 2 action, opcode := BitVec.ofNat 16 code, params := params, digest := digest, slot := k, since := s.lcN }
    if (List.finRange 8).any fun i => (s.proposalAt i).any fun q => q.object == p.object then refuse stBusy s
    else match (List.finRange 8).find? fun i => (s.proposalAt i).isNone with
      | none => refuse stBusy s
      | some i => .done stSecondParty (partyWords i p) ((endProposal i 0 s).setProposal i (some p))

/-- Every held proposal that `which` names is withdrawn (R515). -/
def withdrawProposals (which : Proposal → Bool) (s : State) : State :=
  forEach (List.finRange 8) (fun s i => if (s.proposalAt i).any which then endProposal i 2 s else s) s

/-- Some held proposal is one that `which` names. -/
def State.holdsProposal (s : State) (which : Proposal → Bool) : Bool := (List.finRange 8).any fun i => (s.proposalAt i).any which

/-- A protected command: accepted from a session holding one of the roles of its change (R460, R510). -/
def accParty (code action : Nat) (c : Ctx) : Bool := c.replay || accRoles (changeRoles code action) c

/-- PROPOSAL_EXPIRY: 300 s of LC pass without a confirmation (R515). -/
def execProposalExpiry (proposal : Fin 8) (s : State) : Out :=
  .next <|
    match s.prot.proposals[proposal] with
    | some p => endProposal proposal 0 (atLc (p.since + 300000000000) s)
    | none => s

/-- LOCKOUT_END: 900 s of the always-on time after the fifth failure (R520). -/
def execLockoutEnd (slot : Fin 8) (s : State) : Out :=
  .next <|
    match s.prot.slots[slot].lockedUntil with
    | some t => endLockout slot (atAon t s)
    | none => s

/-- DEBUG_ACCESS_END: debug access closes at the end of its duration (R519). -/
def execDebugAccessEnd (s : State) : Out :=
  .next <|
    match s.prot.debugUntil with
    | some t => (atLc t s).modProt fun p => { p with debugUntil := none }
    | none => s

end Sys2Proof.Machine
end

