-- ==== Sys2Proof/Machine/SafeCmd.lean ====
section
/-! DEFINITION. The safety commands: the staging copy, commissioning, status, off-pulse settings and the release of latches
(R499 to R506). -/

namespace Sys2Proof.Machine

/-! SAFE_PARAM_WRITE (R501). -/

/-- A held proposal of SAFE_COMMISSION. -/
def isCommission (p : Proposal) : Bool := p.opcode == 0x0D01

/-- SAFE_PARAM_WRITE (R499, R501): a chunk of the staging copy; a commissioning proposal is withdrawn. -/
def safeParamBody (_ : Ctx) (ws : List Word) (s : State) : Res :=
  let w := pw ws 0
  let off := bits w 13 0
  let n := bits w 21 14
  if !resv w 31 23 || off % 4 != 0 || n = 0 || 128 < n || 8192 < off + 4 * n then refuse stBadParam s
  else
    let gone := s.holdsProposal isCommission
    let s1 := (withdrawProposals isCommission s).modOwl fun o =>
      { o with staged := putAll (off / 4) ((ws.drop 1).take n) (if bit w 22 then [] else o.staged) }
    .done stOk [w32 (fld 0 14 (4 * s1.owl.staged.length) + flag 14 gone)] s1

def safeParamSpec : CmdSpec :=
  { code := 0x0D00, access := fun c _ _ => accSaf c, mode := modeAll, length := fun ws => ws.length == 1 + bits (pw ws 0) 21 14
    body := safeParamBody }

def execSafeParamWrite (p : Packet) (s : State) : Out := serve safeParamSpec p s

/-! SAFE_COMMISSION (R499, R502). -/

/-- The words of the staging copy, when it is complete from its first word on. -/
def stagedWords (l : List (Nat × Word)) : Option (List Word) :=
  if l.map (·.1) = List.range l.length then some (l.map (·.2)) else none

/-- The staged block, when it is complete and well formed (R499). -/
def State.stagedBlock (s : State) : Option Block := (stagedWords s.owl.staged).bind s.goodBlock

/-- The active plan covers an output for pulses of a width (R206). -/
def Cycle.coversOutput (c : Cycle) (so width : Nat) : Bool :=
  c.covered (((mergedWindows c so).filter fun w => decide (20 * width + 400 ≤ w.2)).map fun w => w.1.tick)

/-- The first of the commissioning checks that fails: RESULT and its status (R499). -/
def commissionCheck (withdraw : Bool) (scv : Word) (s : State) : Nat × Nat :=
  if withdraw then
    (if !s.owl.commEn then (3, stSafeLocked) else if s.sup.mode ≠ .test then (4, stNotInMode) else (0, stOk))
  else match s.stagedBlock with
    | none => (1, stBadParam)
    | some b =>
      if scv ≠ scvOf b.words then (2, stBadParam)
      else if !s.owl.commEn then (3, stSafeLocked)
      else if s.sup.mode ≠ .test then (4, stNotInMode)
      else if !s.matchesBlock b then (5, stSafeLocked)
      else if !s.plan.active || planDigest (fun k => b.settMask.getLsbD k.val) s.plan.bank ≠ b.planDigest.toNat then (6, stPlanInvalid)
      else if !b.outputs.all fun x => s.plan.bank.asCycle.coversOutput x.1.val x.2.widthMax then (7, stPlanInvalid)
      else (0, stOk)

/-- An output under a block that has come into force: its off-pulse settings are the reset values, or the limits where those are
lower, and its due times are counted from now (R481, R504). -/
def So.commissioned (o : So) (lc : Nat) (e : SoEntry) : So :=
  { dropOutput o with
    resetSeen := false, width := BitVec.ofNat 10 (min 200 e.widthMax), period := BitVec.ofNat 10 (min 20 e.periodMax)
    due := false, dueFrom := lc, dueCount := 0, dueWidth := BitVec.ofNat 10 (min 200 e.widthMax) }

/-- Owl with every latch and every judgement cleared (R499). -/
def Owl.cleared (o : Owl) : Owl :=
  { o with
    ready := false, mismatch := false, mons := Vector.replicate 16 Mon.reset, sis := o.sis.map fun i => { i with run := 0, held := 0 }
    discSince := Vector.replicate 2 none, siDisc := 0, discHeld := Vector.replicate 2 0
    conns := o.conns.map fun c => { Conn.reset with sendSeq := c.sendSeq, sentAt := c.sentAt } }

/-- A block comes into force, or the one in force is removed (R499). -/
def putBlock (b : Option Block) (s : State) : State :=
  let s1 := s.modOwl fun o => { o.cleared with block := b, scv := (b.map fun b => scvOf b.words).getD 0 }
  commandOutputs (forEach ((b.map Block.outputs).getD []) (fun s x => s.modSo x.1 fun o => o.commissioned s.lcN x.2) s1)

/-- The effect of a confirmed SAFE_COMMISSION (R499, R506). -/
def commissionApply (withdraw : Bool) (s : State) : State :=
  if withdraw then raise (putBlock none s) 0x0601 [s.owl.scv, 1]
  else
    let s1 := (putBlock s.stagedBlock s).modOwl fun o => { o with scvBad := false }
    raise s1 0x0601 [s1.owl.scv, 0]

/-- The digest of the change: over the staged block and SCV_ENTERED, or generic for a withdrawal (R499, R511). -/
def commissionDigest (ws : List Word) (s : State) : List Byte :=
  if bit (pw ws 0) 0 then genericDigest s 0x0D01 0 (bytesOfWords ws)
  else sha256 (bytesOfWords ((stagedWords s.owl.staged).getD []) ++ wordBytes (pw ws 1))

/-- The command's own checks: status and result words (R499, R502, R543). A refusal by the table carries RESULT. -/
def commissionJudge (ws : List Word) (s : State) : Nat × List Word :=
  if !resv (pw ws 0) 31 1 || (bit (pw ws 0) 0 && pw ws 1 != 0) then (stBadParam, [])
  else
    let r := commissionCheck (bit (pw ws 0) 0) (pw ws 1) s
    if r.2 == stOk && s.breaksLimits (commissionApply (bit (pw ws 0) 0) s) then (stBadParam, []) else (r.2, [w32 r.1])

def safeCommissionBody (c : Ctx) (ws : List Word) (s : State) : Res :=
  let r := commissionJudge ws s
  if r.1 ≠ stOk then .done r.1 r.2 s else propose c 0 0x0D01 ws (commissionDigest ws s) s

def safeCommissionSpec : CmdSpec :=
  { code := 0x0D01, access := fun c _ _ => accParty 0x0D01 0 c, mode := modeAll, length := fun ws => ws.length == 2
    body := safeCommissionBody }

def execSafeCommission (p : Packet) (s : State) : Out := serve safeCommissionSpec p s

/-! SAFE_STATUS (R503). -/

def safeStatusWords (s : State) : List Word :=
  let o := s.owl
  let mons := fun (f : Mon → Bool) => maskOf 16 fun i => f o.mons[i]
  [w32 (flag 0 o.block.isSome + flag 1 o.ready + flag 2 o.mismatch + flag 3 o.soFault + flag 4 o.fail + flag 5 o.scvBad +
      fld 6 2 o.siDisc.toNat + fld 8 8 (maskOf 8 fun n => (o.sos[n]).energised) + fld 16 8 (maskOf 8 fun n => (o.sos[n]).sofb) +
      fld 24 4 (maskOf 4 fun i => (o.sis[i]).filtered)),
   if o.block.isSome then o.scv else 0,
   w32 (fld 0 16 o.demand.toNat + fld 16 16 (latchedBits o).toNat),
   w32 (fld 0 16 (mons (·.tripped)) + fld 16 16 (mons (·.invalid))),
   w32 (fld 0 16 (mons (·.fallback)) + fld 16 8 (maskOf 8 fun i => (o.conns[i]).lost)),
   o.missed, o.cycles, o.pulseFail]

def safeStatusBody (_ : Ctx) (ws : List Word) (s : State) : Res :=
  if pw ws 0 != 0 then refuse stBadParam s else .done stOk (safeStatusWords s) s

def safeStatusSpec : CmdSpec :=
  { code := 0x0D02, access := fun c _ _ => accAny c, mode := modeAll, length := fun ws => ws.length == 1, body := safeStatusBody }

def execSafeStatus (p : Packet) (s : State) : Out := serve safeStatusSpec p s

/-! SAFE_PULSE_CONFIG (R504). -/

def pulseReply (n : Fin 8) (s : State) : List Word :=
  let o := s.owl.sos[n]
  [w32 (fld 0 10 o.width.toNat + fld 10 10 o.period.toNat), w32 (fld 0 8 o.tFall.toNat + fld 8 8 o.tRise.toNat + fld 16 16 o.skipped.toNat)]

/-- A pulse of a width and 400 ticks fit the shortest window of the active plan that names the output (R504). -/
def State.widthFits (s : State) (n : Fin 8) (width : Nat) : Bool :=
  !s.plan.active || (mergedWindows s.plan.bank.asCycle n.val).all fun w => decide (20 * width + 400 ≤ w.2)

/-- New settings from the next due pulse on: due times stay multiples of the period from where they are counted (R481, R504). -/
def So.setPulse (o : So) (lc width period : Nat) : So :=
  { o with width := BitVec.ofNat 10 width, period := BitVec.ofNat 10 period, dueCount := (lc - o.dueFrom) / (period * 100000000) }

def safePulseBody (_ : Ctx) (ws : List Word) (s : State) : Res :=
  let w := pw ws 0
  let n : Fin 8 := ⟨bits w 2 0, Nat.mod_lt _ (by decide)⟩
  let width := bits w 13 4
  let period := bits w 23 14
  match s.soAt n with
  | none => refuse stBadParam s
  | some e =>
    if !resv w 31 24 then refuse stBadParam s
    else if !bit w 3 then .done stOk (pulseReply n s) s
    else if width < 50 || e.widthMax < width || period = 0 || e.periodMax < period || !s.widthFits n width then refuse stBadParam s
    else
      let s1 := s.modSo n fun o => o.setPulse s.lcN width period
      .done stOk (pulseReply n s1) s1

def safePulseSpec : CmdSpec :=
  { code := 0x0D03, access := fun c ws _ => if bit (pw ws 0) 3 then accSaf c else accAny c, mode := modeAll
    length := fun ws => ws.length == 1, body := safePulseBody }

def execSafePulseConfig (p : Packet) (s : State) : Out := serve safePulseSpec p s

/-! SAFE_RESET_REQ (R505). -/

/-- The latched bits that some latching cause which has not cleared holds (R475 to R477, R486, R505). -/
def stuckBits (lc : Nat) (o : Owl) : BitVec 16 :=
  let high := fun (i : Fin 4) => (o.sis[i]).filtered
  let disc := fun (p : Fin 2) => if p.val = 0 then high 0 && high 1 else high 2 && high 3
  orMasks ((o.mons.toList.map fun m => if m.fit then 0 else m.held) ++ (o.sis.toList.map fun i => if i.filtered then 0 else i.held) ++
    ((List.finRange 2).map fun p => if disc p then 0 else o.discHeld[p]) ++
    (o.conns.toList.map fun c => if c.steady lc then 0 else c.held))

/-- A monitor after the release of bits: an SDI limit is judged from a new reference point (R473, R475). -/
def Mon.release (rel : BitVec 16) (m : Mon) : Mon :=
  let h := m.held &&& ~~~rel
  if m.tripped && m.fit && h == 0 then { m with held := h, tripped := false, m := m.m.map fun _ => m.x } else { m with held := h }

/-- Bits are released from every cause that holds them (R505). -/
def Owl.release (rel : BitVec 16) (o : Owl) : Owl :=
  let dh := o.discHeld.map (· &&& ~~~rel)
  let kept := maskOf 2 fun p => o.siDisc.getLsbD p.val && !(dh[p] == 0 && o.discHeld[p] != 0)
  { o with
    mons := o.mons.map (Mon.release rel), sis := o.sis.map fun i => { i with held := i.held &&& ~~~rel }
    discHeld := dh, siDisc := BitVec.ofNat 2 kept, conns := o.conns.map fun c => { c with held := c.held &&& ~~~rel } }

/-- SO_FAULT 1 is allowed: Safe-Core with CAUSE_SO, and every used SOFB low for 100 ms (R505). -/
def State.readbackClearable (s : State) : Bool :=
  s.sup.mode == .safeCore && s.sup.causes.getLsbD 3 &&
    match s.owl.block with
    | none => true
    | some b => b.outputs.all fun x => !(s.owl.sos[x.1]).sofb && decide ((s.owl.sos[x.1]).lowSince + 100000000 ≤ s.lcN)

/-- The readback latch and CAUSE_SO clear; every used output is tested before its next due time (R33, R482, R505). -/
def clearReadback (s : State) : State :=
  let s1 := (s.modOwl fun o => { o with soFault := false }).modSup fun u => { u with causes := u.causes &&& ~~~causeBit 3 }
  match s1.owl.block with
  | none => s1
  | some b => forEach b.outputs (fun s x => s.modSo x.1 fun o => { o with due := true, dueWidth := o.width }) s1

/-- The reset of R478, for the outputs that are then able to energise (R505). -/
def resetOutputs (s : State) : State :=
  match s.owl.block with
  | none => s
  | some b => forEach b.outputs (fun s x => if s.canEnergise x.2 then s.modSo x.1 fun o => { o with resetSeen := true } else s) s

/-- SAFE_RESET_REQ (R505). The outputs that it lets on are commanded in the next cycle of Owl (R478). -/
def safeResetBody (c : Ctx) (ws : List Word) (s : State) : Res :=
  let w := pw ws 0
  if !resv w 31 17 then refuse stBadParam s
  else if bit w 16 && !s.readbackClearable then refuse stSafeLocked s
  else
    let rel := w.extractLsb' 0 16 &&& latchedBits s.owl &&& ~~~stuckBits s.lcN s.owl
    let s1 := (if bit w 16 then clearReadback s else s).modOwl (Owl.release rel)
    let s2 := (resetOutputs (s1.modOwl fun o => { o with demand := demandBits s.lcN o })).modOwl fun o =>
      { o with demand := s.owl.demand }
    .done stOk [w32 (fld 0 16 rel.toNat + fld 16 16 (latchedBits s2.owl).toNat)]
      (raise s2 0x0602 [w32 (fld 0 16 rel.toNat + flag 16 (bit w 16)), w32 ((c.session.map fun i => i.val + 1).getD 0)])

def safeResetSpec : CmdSpec :=
  { code := 0x0D04, access := fun c _ _ => accOp c
    mode := fun _ s => modeIf (s.working || s.sup.mode == .safeCore), length := fun ws => ws.length == 1, body := safeResetBody }

def execSafeResetReq (p : Packet) (s : State) : Out := serve safeResetSpec p s

end Sys2Proof.Machine
end

