-- ==== Sys2Proof/Machine/Firmware.lean ====
section
/-! DEFINITION. Key slots and firmware images: KEY_INSTALL, the checks of an image, FW_STAGE, FW_ACTIVATE and the switch to a
staged image (R507 to R509, R517, R521 to R523). -/

namespace Sys2Proof.Machine

/-! KEY_INSTALL (R507, R509, R511, R517). -/

/-- The number of slots that hold keys. -/
def State.keyedCount (s : State) : Nat := s.prot.slots.toList.countP fun k => k.key.isSome

/-- Slot of a KEY_INSTALL. -/
def keySlot (ws : List Word) : Fin 8 := ⟨bits (pw ws 0) 2 0, Nat.mod_lt _ (by decide)⟩

/-- The slots as a KEY_INSTALL with an unwrapped key would leave them (R517). -/
def slotsAfter (ws : List Word) (v : Vector KeySlot 8) : Vector KeySlot 8 :=
  let r : BitVec 4 := (pw ws 0).extractLsb' 5 4
  vmod v (keySlot ws) fun k =>
    match bits (pw ws 0) 4 3 with
    | 0 => { k with key := some (bytesOfWords ((ws.drop 1).take 8)), roles := r }
    | 1 => { k with key := none, roles := 0 }
    | _ => { k with roles := r }

/-- Keyed slots, and whether one of them holds SERVICE. -/
def keyedOf (v : Vector KeySlot 8) : Nat × Bool :=
  (v.toList.countP fun k => k.key.isSome, v.toList.any fun k => k.key.isSome && k.roles.getLsbD 3)

/-- The words of KEY_INSTALL are such as the layout allows (R517). -/
def keyWordsOk (ws : List Word) : Bool :=
  let w := pw ws 0
  resv w 31 9 && bits w 4 3 != 3 && (bits w 4 3 == 1 || bits w 8 5 != 0) && (bits w 4 3 == 0 || zeroFrom ws 1)

/-- The rules on what a change of the slots leaves (R517). -/
def keyCheck (ws : List Word) (s : State) : Nat :=
  let a := keyedOf (slotsAfter ws s.prot.slots)
  if bits (pw ws 0) 4 3 = 2 ∧ (s.prot.slots[keySlot ws]).key.isNone then stBadParam
  else if 2 ≤ s.keyedCount && (a.1 < 2 || !a.2) then stBadParam
  else if s.keyedCount < 2 && 2 ≤ a.1 && !a.2 then stBadParam
  else stOk

/-- The first 64 bits of SHA-256 over a key (R507). -/
def fingerprint (k : KeySlot) : List Word :=
  match k.key with
  | some b => (wordsOfBytes (sha256 b)).take 2
  | none => [0, 0]

def keyReply (k : Fin 8) (s : State) : List Word :=
  w32 (maskOf 8 (fun i => (s.prot.slots[i]).key.isSome) + fld 8 4 (s.prot.slots[k]).roles.toNat) :: fingerprint s.prot.slots[k]

/-- The slot changes: its sessions close and its proposals are withdrawn (R515, R517). -/
def keyApply (ws : List Word) (s : State) : State :=
  let k := keySlot ws
  withdrawProposals (fun p => p.slot == k)
    (closeSlotSessions k (s.modProt fun p => { p with slots := slotsAfter ws p.slots }))

/-- The key words as installed: unwrapped under the proposing session's key (R517). -/
def unwrapKey (c : Ctx) (ws : List Word) (s : State) : List Word :=
  if bits (pw ws 0) 4 3 ≠ 0 then ws
  else match c.session.bind fun i => s.cmd.sessions[i] with
    | none => ws
    | some x =>
      let pad := hmac x.key (ascii "NH384KW" ++ wordBytes c.packet.reqId)
      pw ws 0 :: wordsOfBytes (List.zipWith (· ^^^ ·) (bytesOfWords ((ws.drop 1).take 8)) pad)

/-- The digest of a KEY_INSTALL with its key unwrapped: the key is replaced by its hash (R511). -/
def keyDigest (ws : List Word) (s : State) : List Byte :=
  let key := bytesOfWords ((ws.drop 1).take 8)
  genericDigest s 0x0E03 0 (wordBytes (pw ws 0) ++ (if bits (pw ws 0) 4 3 = 0 then sha256 key else key))

/-- KEY_INSTALL: at once while fewer than two slots hold keys, under the agreement afterwards (R509, R517). -/
def keyInstallBody (c : Ctx) (ws : List Word) (s : State) : Res :=
  let u := unwrapKey c ws s
  if !keyWordsOk ws then refuse stBadParam s
  else if 2 ≤ s.keyedCount then
    (if keyCheck u s ≠ stOk then refuse (keyCheck u s) s else propose c 0 0x0E03 u (keyDigest u s) s)
  else if !s.owl.commEn then refuse stSafeLocked s
  else if keyCheck u s ≠ stOk then refuse (keyCheck u s) s
  else
    let s1 := keyApply u s
    .done stOk (keyReply (keySlot ws) s1) s1

/-- Session 0 on the control port during the first keying, a session with one of the roles afterwards (R509, R510). -/
def keyAccess (c : Ctx) (s : State) : Bool :=
  if 2 ≤ s.keyedCount then accParty 0x0E03 0 c else c.session.isNone && c.packet.origin == .controlPort

def keyInstallSpec : CmdSpec :=
  { code := 0x0E03, access := fun c _ s => keyAccess c s, mode := modeAll, length := fun ws => ws.length == 9, body := keyInstallBody }

def execKeyInstall (p : Packet) (s : State) : Out := serve keyInstallSpec p s

/-! Firmware images (R521, R522). -/

/-- Result 1 of the checks: the header (R521, R522). -/
def fwHeaderOk (h : List Word) : Bool :=
  pw h 0 == 0x5746484E && bits (pw h 1) 15 8 == 1 && resv (pw h 1) 31 16 && resv (pw h 2) 31 24 && resv (pw h 3) 31 16 &&
  resv (pw h 4) 31 21 && resv (pw h 5) 31 8 && ((List.range 9).all fun k => pw h (6 + k) == 0) && pw h 15 == crcWords (h.take 15)

/-- BODY_BYTES of a header. -/
def fwBody (h : List Word) : Nat := bits (pw h 4) 20 0

/-- Words of a whole image (R521). -/
def fwWords (h : List Word) : Nat := (64 + fwBody h + 64) / 4

/-- Result 2: the length, and no byte missing. -/
def fwLengthOk (have_ : Nat) (h : List Word) : Bool :=
  decide (4096 ≤ fwBody h) && decide (fwBody h ≤ 1572864) && fwBody h % 4 == 0 && have_ == fwWords h

/-- Result 4: the signature, over the header and the body (R521). -/
def fwSigned (ws : List Word) (h : List Word) : Bool :=
  let n := (64 + fwBody h) / 4
  let sig := bytesOfWords ((ws.drop n).take 16)
  p256Verify Config.vendorKey (sha256 (bytesOfWords (ws.take n))) (beNat (sig.take 32)) (beNat (sig.drop 32))

/-- RESULT of the checks on an image of `have_` words from its start on (R521, R522). -/
def fwCheck (floor : Nat) (have_ : Nat) (ws : List Word) : Nat :=
  let h := ws.take 16
  if !fwHeaderOk h then 1
  else if !fwLengthOk have_ h then 2
  else if 0xB1 < bits (pw h 5) 7 0 then 3
  else if !fwSigned ws h then 4
  else if bits (pw h 3) 15 0 < floor then 5
  else 0

/-- SEC_FLOOR of the protection configuration (R518). -/
def State.secFloor (s : State) : Nat := bits s.prot.cfg 31 16

def StageState.code : StageState → Nat
  | .empty => 0 | .receiving => 1 | .verified => 2 | .rejected => 3

/-- The staged words in order, from word 0 to the last one written; a word not written reads 0. -/
def stagedImage (l : List (Nat × Word)) : List Word := imageWords ((l.getLast?.map fun x => x.1 + 1).getD 0) l

/-- The number of words staged from word 0 on without a gap, 0 where one is missing. -/
def stagedWhole (l : List (Nat × Word)) : Nat := if l.map (·.1) = List.range l.length then l.length else 0

/-- The checks of the complete image, with their notice (R522). In the boot loader a verified image ends the wait of step 0x5. -/
def checkStaged (s : State) : State :=
  let ws := stagedImage s.prot.staged
  let r := fwCheck s.secFloor (stagedWhole s.prot.staged) ws
  let s1 := s.modProt fun p => { p with result := BitVec.ofNat 4 r, stage := if r = 0 then .verified else .rejected }
  let s2 := if r = 0 && !s.boot.fwRuns && s.boot.waitHost then
      (s1.modBoot fun b => { b with fwLoaded := true, waitHost := false }).modProt fun p => { p with fwVersion := (pw ws 2).extractLsb' 0 24 }
    else s1
  raise s2 0x0702 [w32 (bits (pw ws 2) 23 0), w32 (fld 0 16 (bits (pw ws 3) 15 0) + fld 16 4 r), w32 (fwBody ws)]

/-- A held proposal of FW_ACTIVATE. -/
def isActivation (p : Proposal) : Bool := p.opcode == 0x0E05

/-- A chunk is stored; a verified image is kept until the next FIRST. -/
def storeChunk (first : Bool) (at_ : Nat) (ws : List Word) (p : Prot) : Prot :=
  if first then { p with staged := putAll at_ ws [], stage := .receiving, result := 0 }
  else if p.stage == .verified then p
  else { p with staged := putAll at_ ws p.staged, stage := .receiving }

def stageReply (s : State) : List Word :=
  [w32 (fld 0 21 (4 * s.prot.staged.length) + fld 21 2 s.prot.stage.code + fld 23 4 s.prot.result.toNat)]

/-- FW_STAGE (R515, R522). -/
def fwStageBody (_ : Ctx) (ws : List Word) (s : State) : Res :=
  let w := pw ws 0
  let off := bits w 20 0
  let n := bits w 28 21
  if bit w 31 || off % 4 != 0 || n = 0 || 128 < n then refuse stBadParam s
  else
    let s1 := (if bit w 29 then withdrawProposals isActivation s else s).modProt (storeChunk (bit w 29) (off / 4) (ws.drop 1))
    let s2 := if bit w 30 && s1.prot.stage != .verified then checkStaged s1 else s1
    .done stOk (stageReply s2) s2

def fwStageSpec : CmdSpec :=
  { code := 0x0E04, access := fun c _ _ => accSvc c, mode := fun _ s => modeIf (s.sup.mode != .safeCore)
    length := fun ws => ws.length == 1 + bits (pw ws 0) 28 21, body := fwStageBody }

def execFwStage (p : Packet) (s : State) : Out := serve fwStageSpec p s

/-! FW_ACTIVATE and the switch (R523). -/

/-- FW_VERSION of the verified staged image. -/
def State.stagedVersion (s : State) : Option Nat :=
  if s.prot.stage == .verified then some (bits (pw (stagedImage s.prot.staged) 2) 23 0) else none

/-- The command's own checks (R523). -/
def activateCheck (ws : List Word) (s : State) : Nat :=
  if !resv (pw ws 0) 31 24 || s.stagedVersion != some (bits (pw ws 0) 23 0) then stBadParam else stOk

/-- At confirmation no further packet is accepted; the switch follows (R523). -/
def activateApply (s : State) : State := s.modProt fun p => { p with switching := true }

/-- The digest is SHA-256 over the whole staged image (R510). -/
def activateDigest (s : State) : List Byte := sha256 (bytesOfWords (stagedImage s.prot.staged))

def fwActivateBody (c : Ctx) (ws : List Word) (s : State) : Res :=
  if activateCheck ws s ≠ stOk then refuse (activateCheck ws s) s else propose c 0 0x0E05 ws (activateDigest s) s

def fwActivateSpec : CmdSpec :=
  { code := 0x0E05, access := fun c _ _ => accParty 0x0E05 0 c, mode := fun _ s => modeIf s.working
    length := fun ws => ws.length == 1, body := fwActivateBody }

def execFwActivate (p : Packet) (s : State) : Out := serve fwActivateSpec p s

/-- Sessions, replay caches, nonces and proposals are lost (R451, R515, R523). -/
def loseSessions (s : State) : State :=
  (s.modCmd fun c => { c with sessions := Vector.replicate 8 none, caches := [], nonces := [] }).modProt fun p =>
    { p with proposals := Vector.replicate 8 none }

/-- FIRMWARE_SWITCH: once the requests that were executing are complete, the staged image runs (R523). -/
def execFirmwareSwitch (s : State) : Out :=
  guardNext (s.served && s.prot.switching && s.cmd.running.isEmpty) s
    ((loseSessions s).modProt fun p => { p with switching := false, fwVersion := BitVec.ofNat 24 (s.stagedVersion.getD 0) })

end Sys2Proof.Machine
end

