-- ==== Sys2Proof/Machine/Tdc.lean ====
section
/-! DEFINITION. Edge timing: stamps, edge entries, measurement units and the calibration of the interpolators
(R256 to R277). -/

namespace Sys2Proof.Machine

/-! Commands. -/

/-- Reply of TDC_CONFIG (R274). -/
def tdcConfigReply (i : Fin 16) (s : State) : Res :=
  let e := s.tdc.inputs[i]
  .done stOk [w32 (edgeSettings e + flag 4 e.calDeg + flag 5 (s.sup.bankLevel[3] == some true)), e.delayPs,
              w32i s.factory.tInPs[i]] s

/-- TDC_CONFIG (R274); a change of ELEC makes the input deaf for 10 µs (R256). -/
def tdcConfigBody (_ : Ctx) (ws : List Word) (s : State) : Res :=
  let w0 := pw ws 0
  let w1 := pw ws 1
  let d := (pw ws 2).toInt
  let i : Fin 16 := ⟨bits w0 3 0, Nat.mod_lt _ (by decide)⟩
  if !resv w0 31 5 || !resv w1 31 4 then refuse stBadParam s
  else if !bit w0 4 then tdcConfigReply i s
  else if decide (d < -1000000) || decide (1000000 < d) then refuse stBadParam s
  else tdcConfigReply i (s.modEdge i fun e =>
    { e with sel := w1.extractLsb' 0 2, stampEn := bit w1 2, cmos := bit w1 3, delayPs := pw ws 2,
             changeEnd := if e.cmos = bit w1 3 then e.changeEnd else some (s.lcN + 10000) })

def tdcConfigSpec : CmdSpec :=
  { code := 0x0700, access := fun c ws _ => if bit (pw ws 0) 4 then accEng c else accAny c, mode := modeAll,
    length := fun ws => ws.length == 3, body := tdcConfigBody }

def execTdcConfig (p : Packet) (s : State) : Out := serve tdcConfigSpec p s

/-- A unit cleared before new settings apply: an open start is orphaned and a held stop is late (R272). -/
def clearOpen (u : MeasUnit) : MeasUnit :=
  { u with start := none, stop := none
           startOrphan := if u.start.isSome then u.startOrphan + 1 else u.startOrphan
           stopLate := if u.stop.isSome then u.stopLate + 1 else u.stopLate }

/-- TDC_WINDOW (R272, R275). -/
def tdcWindowBody (_ : Ctx) (ws : List Word) (s : State) : Res :=
  let w0 := pw ws 0
  let post := bits (pw ws 2) 29 0
  let m : Fin 8 := ⟨bits w0 2 0, Nat.mod_lt _ (by decide)⟩
  if !resv w0 31 16 || !resv (pw ws 1) 31 20 || !resv (pw ws 2) 31 30 then refuse stBadParam s
  else if !bit w0 3 then .done stOk (unitWords m s.tdc.units[m]) s
  else if decide (post < 4) || decide (1000000000 < post) ||
      (bits w0 9 6 == bits w0 14 11 && bit w0 10 == bit w0 15) then refuse stBadParam s
  else
    let s1 := (flushTie m s).modUnit m fun u =>
      { clearOpen u with
        enable := bit w0 4, bipolar := bit w0 5, startIn := w0.extractLsb' 6 4, startFall := bit w0 10,
        stopIn := w0.extractLsb' 11 4, stopFall := bit w0 15, wPre := (pw ws 1).extractLsb' 0 20,
        wPost := (pw ws 2).extractLsb' 0 30 }
    .done stOk (unitWords m s1.tdc.units[m]) s1

def tdcWindowSpec : CmdSpec :=
  { code := 0x0701, access := fun c ws _ => if bit (pw ws 0) 3 then accEng c else accAny c, mode := modeAll,
    length := fun ws => ws.length == 3, body := tdcWindowBody }

def execTdcWindow (p : Packet) (s : State) : Out := serve tdcWindowSpec p s

/-- A counter and its wrap count, as two words (R276). -/
def wrapWords (c : WrapCount) : List Word := [w32 c.toNat, w32 (c.toNat / 2 ^ 32)]

/-- TDC_READ (R276). -/
def tdcReadBody (_ : Ctx) (ws : List Word) (s : State) : Res :=
  let w := pw ws 0
  let sel := bits w 4 0
  if !resv w 31 6 then refuse stBadParam s
  else match finOf 16 sel with
    | some i =>
      let e := s.tdc.inputs[i]
      .done stOk ((edgeCounters e).flatMap wrapWords ++ words64 (lowBits 64 (e.lastStamp / 256)) ++
        [w32 (lowBits 8 e.lastStamp)]) (if bit w 5 then s.modEdge i clearEdge else s)
    | none => match finOf 8 (sel - 16) with
      | some m =>
        .done stOk ((unitCounters s.tdc.units[m]).flatMap wrapWords) (if bit w 5 then s.modUnit m clearUnit else s)
      | none => refuse stBadParam s

def tdcReadSpec : CmdSpec :=
  { code := 0x0702, access := fun c ws _ => if bit (pw ws 0) 5 then accOp c else accAny c, mode := modeAll,
    length := fun ws => ws.length == 1, body := tdcReadBody }

def execTdcRead (p : Packet) (s : State) : Out := serve tdcReadSpec p s

/-- The interpolators of a channel: two of an external input, one of an internal channel (R260, R261; log entry 217). -/
def interps (c : Fin 50) : List (Fin 66) :=
  ⟨c.val, by omega⟩ :: (if h : c.val < 16 then [⟨50 + c.val, by omega⟩] else [])

/-- The channel of an interpolator. -/
def interpChannel (i : Fin 66) : Fin 50 := if h : i.val < 50 then ⟨i.val, h⟩ else ⟨i.val - 50, by omega⟩

/-- Non-linearity of a channel: the worse of its interpolators, in fine steps (R263). -/
def Tdc.chanInl (t : Tdc) (c : Fin 50) : Rat := ((interps c).map fun i => t.inl[i]).foldl max 0

/-- The interpolator channel with the worst non-linearity, the lowest on a tie (R277). -/
def worstInl (t : Tdc) : Fin 50 :=
  (List.finRange 50).foldl (fun a i => if t.chanInl a < t.chanInl i then i else a) 0

/-- WORST_INL in whole 1/16 fine steps (R277; log entry 27). -/
def Tdc.worstUnits (t : Tdc) : Nat := (t.chanInl (worstInl t) * 16).floor.toNat

/-- The reply words of TDC_CAL (R277). -/
def tdcCalWords (t : Tdc) : List Word :=
  let w := worstInl t
  [w32 (maskOf 16 (fun i => t.inputs[i].calibrating.isSome) + fld 16 16 (maskOf 16 fun i => t.inputs[i].calDeg)),
   w32 (min t.worstUnits 255 + fld 8 6 w.val +
     flag 14 ((List.finRange 50).any fun i => decide (16 ≤ i.val) && t.degraded[i]) + flag 15 t.lastFailed), t.updates]

/-- TDC_CAL (R277): a full calibration starts on the inputs of the mask (R264). -/
def tdcCalBody (_ : Ctx) (ws : List Word) (s : State) : Res :=
  let w := pw ws 0
  let mask := bits w 15 0
  if !resv w 31 17 || (!bit w 16 && mask != 0) then refuse stBadParam s
  else if !bit w 16 then .done stOk (tdcCalWords s.tdc) s
  else if (maskFins 16 mask).any fun i => s.tdc.inputs[i].calibrating.isSome then refuse stBusy s
  else
    let s1 := forEach (maskFins 16 mask) (fun s i => s.modEdge i fun e => { e with calibrating := some s.lcN }) s
    .done stOk (tdcCalWords s1.tdc) s1

def tdcCalSpec : CmdSpec :=
  { code := 0x0703, access := fun c ws _ => if bit (pw ws 0) 16 then accEng c else accAny c, mode := modeAll,
    length := fun ws => ws.length == 1, body := tdcCalBody }

def execTdcCal (p : Packet) (s : State) : Out := serve tdcCalSpec p s

/-! Calibration of the interpolators. -/

/-- Hits of a full calibration of one interpolator (R260). -/
def calHits : Nat := 2 ^ 20

/-- A histogram fails the checks of R260: a code without a hit, a code over 4 of the 16 fine steps of the phase, or
codes that together take in fewer hits than were launched. -/
def histBad (h : List Nat) : Bool :=
  h.isEmpty || h.contains 0 || h.any (fun w => decide (4 * calHits < 16 * w)) || decide (h.sum < calHits)

/-- The centres of the codes from the start of the phase, in fine steps; the phase holds 16 of them (R260). -/
def histMapFrom (total : Nat) : Nat → List Nat → List Rat
  | _, [] => []
  | c, w :: t => ((2 * c + w : Nat) : Rat) * 8 / (total : Rat) :: histMapFrom total (c + w) t

/-- The map that a histogram of hits gives (R260). -/
def histMap (h : List Nat) : List Rat := histMapFrom h.sum 0 h

/-- The largest distance of a map from an ideal phase of as many equal codes, in fine steps (R263; log entry 27). -/
def mapInl (m : List Rat) : Rat :=
  (((List.range m.length).zip m).map fun (i, p) => absR (p - ((2 * i + 1 : Nat) : Rat) * 8 / (m.length : Rat))).foldl max 0

/-- CAL_DEG of a channel after an update: set above 1 fine step, cleared at or below 0.75 (R263). -/
def judgeDeg (old : Bool) (inl : Rat) : Bool := if 1 < inl then true else if inl ≤ 3 / 4 then false else old

/-- The interpolator channel of an external input (R277). -/
def inputChannel (i : Fin 16) : Fin 50 := ⟨i.val, by omega⟩

/-- The condition of a channel: CAL_DEG of an input, or that of an internal channel (R263, R277). -/
def State.channelDeg (s : State) (id : Fin 50) : Bool :=
  match finOf 16 id.val with
  | some i => s.tdc.inputs[i].calDeg
  | none => s.tdc.degraded[id]

def setChannelDeg (id : Fin 50) (d : Bool) (s : State) : State :=
  match finOf 16 id.val with
  | some i => s.modEdge i fun e => { e with calDeg := d }
  | none => s.modTdc fun t => { t with degraded := vset t.degraded id d }

/-- A map comes into force on an interpolator, with its non-linearity (R260, R262, R263). -/
def putMap (s : State) (x : Fin 66 × List Rat) : State :=
  s.modTdc fun t => { t with maps := vset t.maps x.1 x.2, inl := vset t.inl x.1 (mapInl x.2) }

/-- The non-linearity after an update is judged; a change of the condition is a health event (R263, R566). -/
def judgeChannel (id : Fin 50) (s : State) : State :=
  let old := s.channelDeg id
  let new := judgeDeg old (s.tdc.chanInl id)
  let s1 := setChannelDeg id new s
  if old = new then s1 else raise s1 0x100A [w32 (fld 0 6 id.val + flag 6 (!new))]

/-- The span of a calibration ends with it (R264). -/
def closeLoss (l : List LossSpan) : List LossSpan := l.map fun x => { x with closed := x.closed || x.cal }

/-- TDC_CAL_DONE: the calibration ends 50 ms after its start, with a histogram of each of the input's two interpolators; it updates
their maps or keeps them with CAL_DEG, and the edges not recorded are declared (R261, R264). -/
def execTdcCalDone (input : Fin 16) (hits : List (List Nat)) (s : State) : Out :=
  .next <|
    match s.tdc.inputs[input].calibrating with
    | none => s
    | some t =>
      let s1 := (atLc (t + 50000000) s).modEdge input fun e => { e with calibrating := none, losses := closeLoss e.losses }
      let s2 := if hits.length ≠ 2 || hits.any histBad then
          (s1.modEdge input fun e => { e with calDeg := true }).modTdc fun t => { t with lastFailed := true }
        else judgeChannel (inputChannel input)
          (forEach ((interps (inputChannel input)).zip (hits.map histMap)) putMap (s1.modTdc fun t => { t with lastFailed := false }))
      emitLoss input s2

/-- A code's position moves towards its new one by at most 0.25 fine step (R262). -/
def stepCode (old new : Rat) : Rat := if old + 1 / 4 < new then old + 1 / 4 else if new + 1 / 4 < old then old - 1 / 4 else new

/-- A new map as far as the limit lets it come into force; a code without a position takes its new one (R262). -/
def stepMap (old new : List Rat) : List Rat := (List.range new.length).map fun n => stepCode (old.getD n (new.getD n 0)) (new.getD n 0)

/-- Tracking hits that an interpolator gathers for a new map (R262). -/
def trackHits : Nat := 2 ^ 22

/-- A tracking hit may be launched at an LC: both interpolators of the input are free of edges, and it has accepted none for 100 ns
(R261). -/
def EdgeIn.idleAt (e : EdgeIn) (lc : Nat) : Bool :=
  e.calibrating.isNone && (match e.lastRaw with
    | some p => decide (p + 25600 ≤ 256 * lc)
    | none => true)

/-- The last hit of a new map could be launched; internal channels have edges of which the model keeps no instant. -/
def State.trackIdle (s : State) (c : Fin 50) (lc : Nat) : Bool :=
  match finOf 16 c.val with
  | some i => (s.tdc.inputs[i]).idleAt lc
  | none => true

/-- TDC_TRACK_UPDATE: the last of 2^22 hits, launched at LC `lastHit`, has left its interpolator after 4 ns. The new map comes into
force as far as the limit allows, and its non-linearity is judged. Tracking that was starved has resumed (R261 to R263). -/
def execTdcTrackUpdate (id : Fin 66) (hits : List Nat) (lastHit : Nat) (s : State) : Out :=
  let c := interpChannel id
  guardNext (s.time.tclk && s.trackIdle c lastHit && hits.sum == trackHits) s <|
    let s1 := atLc (lastHit + 4) s
    let s2 := match finOf 16 c.val with
      | some i => s1.modEdge i fun e => { e with starved := false, busySince := none }
      | none => s1
    judgeChannel c ((putMap s2 (id, stepMap s2.tdc.maps[id] (histMap hits))).modTdc fun t => { t with updates := t.updates + 1 })

/-- Edges have kept coming less than 100 ns apart up to an LC (R262). -/
def EdgeIn.busyUntil (e : EdgeIn) (lc : Nat) : Bool :=
  match e.lastRaw with
  | some p => decide (256 * (lc : Int) < p + 25600)
  | none => false

/-- TRACK_STARVED: 60 s of edges less than 100 ns apart; the calibration is held until a hit can be launched again (R262). -/
def execTrackStarved (input : Fin 16) (s : State) : Out :=
  .next <|
    match s.tdc.inputs[input].busySince with
    | none => s
    | some t =>
      if s.tdc.inputs[input].starved || !(s.tdc.inputs[input]).busyUntil (t + 60000000000) then s
      else raise ((atLc (t + 60000000000) s).modEdge input fun e => { e with starved := true }) 0x1009 [w32 input.val]

/-! Edges. -/

/-- The window of an open start and the hold of a stop end before a stamp beyond them is taken (R271). -/
def muExpire (t : Stamp) (u : MeasUnit) : MeasUnit :=
  let u1 := match u.start with
    | some a => if a + u.wPost.toNat * 256 < t then { u with start := none, winEmpty := u.winEmpty + 1 } else u
    | none => u
  match u1.stop with
  | some b => if b + u1.wPre.toNat * 256 < t then { u1 with stop := none, stopLate := u1.stopLate + 1 } else u1
  | none => u1

/-- A measurement closes with a result (R270, R271, R273). -/
def muClose (a b : Stamp) (u : MeasUnit) : MeasUnit × Option MuResult :=
  ({ u with start := none, stop := none, results := u.results + 1
            coincident := if a = b then u.coincident + 1 else u.coincident }, some { start := a, value := b - a })

/-- A start edge (R271). The unit compares stamps, so a held stop with a later stamp is a stop after this start (log
entry 28). -/
def muStart (t : Stamp) (u : MeasUnit) : MeasUnit × Option MuResult :=
  match u.start with
  | some _ => ({ u with start := some t, startOrphan := u.startOrphan + 1 }, none)
  | none => match u.stop with
    | none => ({ u with start := some t }, none)
    | some b =>
      if b = t then muClose t b u
      else if b < t then
        if u.bipolar then muClose t b u
        else ({ u with start := some t, stop := none, stopEarly := u.stopEarly + 1 }, none)
      else if b ≤ t + u.wPost.toNat * 256 then muClose t b u
      else ({ u with winEmpty := u.winEmpty + 1 }, none)

/-- A stop edge (R269, R271); one whose stamp lies before the open start's is a stop before it (log entry 28). -/
def muStop (t : Stamp) (u : MeasUnit) : MeasUnit × Option MuResult :=
  match u.start with
  | some a =>
    if a ≤ t then muClose a t u
    else if t < a - u.wPre.toNat * 256 then ({ u with stopLate := u.stopLate + 1 }, none)
    else if u.bipolar then muClose a t u
    else ({ u with stopEarly := u.stopEarly + 1 }, none)
  | none => ({ u with stop := some t, stopLate := if u.stop.isSome then u.stopLate + 1 else u.stopLate }, none)

/-- An edge is the start or the stop of a unit (R271). -/
def isStart (u : MeasUnit) (i : Fin 16) (rising : Bool) : Bool :=
  u.enable && u.startIn.toNat == i.val && u.startFall != rising
def isStop (u : MeasUnit) (i : Fin 16) (rising : Bool) : Bool :=
  u.enable && u.stopIn.toNat == i.val && u.stopFall != rising

/-- One unit takes one edge. -/
def muEdge (i : Fin 16) (rising : Bool) (t : Stamp) (u : MeasUnit) : MeasUnit × Option MuResult :=
  if isStart u i rising then muStart t (muExpire t u)
  else if isStop u i rising then muStop t (muExpire t u)
  else (u, none)

/-- The LC at which an edge of another input crosses with a stamp (R258). -/
def State.crossLc (s : State) (i : Fin 16) (t : Stamp) : Nat :=
  (((t * 125 + (s.factory.tInPs[i] + s.tdc.inputs[i].delayPs.toInt) * 32 + 63) / 125) / 256).toNat

/-- An edge of the other kind with an equal stamp, which pairs first: its result is coincident, and what the first edge was paired
with is left over, a start as an orphan and a held stop as late (R269 to R271). -/
def muTieEdge (x : MuTie) (u : MeasUnit) : MeasUnit :=
  { u with tie := none, coincident := u.coincident + 1
           startOrphan := if x.byStop then u.startOrphan + 1 else u.startOrphan
           stopLate := if x.byStop then u.stopLate else u.stopLate + 1 }

/-- The edge meets a tie of its unit: an equal stamp, of the other kind (R271). -/
def MuTie.meets (x : MuTie) (start : Bool) (t : Stamp) : Bool := x.stamp == t && x.byStop == start

/-- The tie that a result leaves: an edge of the other kind with an equal stamp may still come (R271). -/
def State.tieOf (s : State) (m : Fin 8) (start : Bool) (t : Stamp) (r : MuResult) : Option MuTie :=
  let u := s.tdc.units[m]
  let due := s.crossLc (if start then u.stopIn.toFin else u.startIn.toFin) t
  if r.value = 0 ∨ due < s.lcN then none
  else some { stamp := t, other := if start then t + r.value else r.start, byStop := !start, due := due }

/-- One unit takes an edge: a result is emitted at once, unless an edge with an equal stamp could still replace it (R271, R272). -/
def unitTake (i : Fin 16) (rising : Bool) (t : Stamp) (s : State) (m : Fin 8) : State :=
  let u := s.tdc.units[m]
  let start := isStart u i rising
  if !start && !isStop u i rising then s
  else match u.tie.filter fun x => x.meets start t with
    | some x => emitInterval m { start := t, value := 0 } (s.modUnit m (muTieEdge x))
    | none =>
      let s0 := flushTie m s
      let r := muEdge i rising t s0.tdc.units[m]
      let s1 := s0.modUnit m fun _ => r.1
      match r.2 with
      | none => s1
      | some x => match s0.tieOf m start t x with
        | some y => s1.modUnit m fun u => { u with tie := some y }
        | none => emitInterval m x s1

/-- Every unit takes an edge, in order. -/
def unitsTake (i : Fin 16) (rising : Bool) (t : Stamp) (s : State) : State :=
  forEach (List.finRange 8) (unitTake i rising t) s

/-- The stamp of an edge: the crossing at the ball less T_IN and DELAY_PS, rounded to 1/256 ns (R258). -/
def edgeStamp (s : State) (i : Fin 16) (raw : Nat) : Stamp :=
  roundDiv ((raw : Int) * 125 - (s.factory.tInPs[i] + s.tdc.inputs[i].delayPs.toInt) * 32) 125

/-- The polarity is selected by EDGE_SEL (R274). -/
def selected (e : EdgeIn) (rising : Bool) : Bool := if rising then e.sel.getLsbD 0 else e.sel.getLsbD 1

/-- What an accepted edge leaves in its input: the dead time, the spacing of edges, and EDGES, which during a full calibration counts
every edge that would have been accepted (R257, R262, R264, R273). -/
def noteEdge (raw : Nat) (rising : Bool) (e : EdgeIn) : EdgeIn :=
  let near := match e.lastRaw with
    | some p => decide ((raw : Int) - p < 25600)
    | none => false
  { e with lastRaw := some raw
           busySince := if near then some (e.busySince.getD ((e.lastRaw.getD 0) / 256).toNat) else none
           starved := e.starved && near
           edges := if selected e rising || e.calibrating.isSome then e.edges + 1 else e.edges }

/-- An edge that is accepted for stamping and measurement (R258, R266, R271). -/
def acceptEdge (i : Fin 16) (rising : Bool) (t : Stamp) (s : State) : State :=
  let e := s.tdc.inputs[i]
  let s1 := s.modEdge i fun e => { e with lastStamp := t }
  let s2 := if e.stampEn && selected e rising then
      queueEdge i t (edgeEntryWords t i.val rising 0 0 false false e.calDeg 0) s1
    else s1
  unitsTake i rising t s2

/-- EDGE_INPUT: an edge crosses its threshold at LC `stamp` / 256. It is ignored while ELEC changes (R256), refused in the
dead time (R257), counted and lost during a full calibration (R264), and otherwise accepted. -/
def execEdgeInput (input : Fin 16) (rising : Bool) (stamp : Nat) (s : State) : Out :=
  guardNext s.time.tclk s <|
    let s1 := atLc (stamp / 256) s
    let e := s1.tdc.inputs[input]
    let deaf := match e.changeEnd with
      | some t => decide (stamp < 256 * t)
      | none => false
    let dead := match e.lastRaw with
      | some p => decide ((stamp : Int) - p < 1024)
      | none => false
    if deaf then s1
    else if dead then s1.modEdge input fun e => { e with deadtime := e.deadtime + 1 }
    else
      let t := edgeStamp s1 input stamp
      let s2 := s1.modEdge input (noteEdge stamp rising)
      if e.calibrating.isSome then loseEdge input t true s2
      else acceptEdge input rising t s2

/-- ELEC_CHANGE_END (R256). -/
def execElecChangeEnd (input : Fin 16) (s : State) : Out :=
  .next <|
    match s.tdc.inputs[input].changeEnd with
    | some t => (atLc t s).modEdge input fun e => { e with changeEnd := none }
    | none => s

/-- MU_WINDOW_CLOSE: an open start has reached start + W_POST without a stop (R271). -/
def execMuWindowClose (mu : Fin 8) (s : State) : Out :=
  .next <|
    match s.tdc.units[mu].start with
    | some a =>
      (atLc ((a + s.tdc.units[mu].wPost.toNat * 256) / 256).toNat s).modUnit mu fun u =>
        { u with start := none, winEmpty := u.winEmpty + 1 }
    | none => s

/-- MU_HELD_STOP_EXPIRY: a held stop has waited W_PRE without a start (R271). -/
def execMuHeldStopExpiry (mu : Fin 8) (s : State) : Out :=
  .next <|
    match s.tdc.units[mu].stop with
    | some b =>
      (atLc ((b + s.tdc.units[mu].wPre.toNat * 256) / 256).toNat s).modUnit mu fun u =>
        { u with stop := none, stopLate := u.stopLate + 1 }
    | none => s

/-- EDGE_LOSS_ENTRY: the queue of an input gains room, and the edges not recorded are declared before any other entry
(R267). -/
def execEdgeLossEntry (input : Fin 16) (s : State) : Out :=
  let e := s.tdc.inputs[input]
  guardNext (!e.losses.isEmpty) s <|
    if 256 ≤ e.queue.length then drainEdge input s else emitLoss input s

end Sys2Proof.Machine
end

