-- ==== Sys2Proof/Machine/Health.lean ====
section
/-! DEFINITION. Reference comparisons, the ageing monitor, the retirement and restoration of units, and the commands
HEALTH_REPORT, MARGIN_PLAN, CHAN_RETIRE, CHAN_RESTORE, COUNTERS_READ and COUNTERS_CLEAR (R19, R554 to R571). -/

namespace Sys2Proof.Machine

/-! Margins (R561, R562). -/

/-- A smaller value is worse (R561, column "Worse when"). -/
def fallsWorse (m : Fin 24) : Bool := m.val < 8 || (12 ≤ m.val && m.val < 22)

/-- A value lies beyond a bound of the margin. -/
def beyond (m : Fin 24) (v : Rat) (bound : Int) : Bool := if fallsWorse m then decide (v < bound) else decide ((bound : Rat) < v)

/-- The last daily value; none before the first (R562). -/
def Margin.value (x : Margin) : Option Rat := x.daily.head?

/-- Least-squares slope per day over the daily values, newest first; 0 with fewer than two (R562). -/
def slopeOf (daily : List Rat) : Rat :=
  let n := daily.length
  let y := daily.reverse
  let mx : Rat := ((n : Rat) - 1) / 2
  let my := y.sum / n
  let xs := (List.range n).map fun (i : Nat) => (i : Rat) - mx
  let d := (xs.map fun x => x * x).sum
  if d = 0 then 0 else ((xs.zip y).map fun p => p.1 * (p.2 - my)).sum / d

/-- SLOPE: none is reported during the baseline (R563). -/
def State.slope (s : State) (m : Fin 24) : Rat := if s.health.baseline then 0 else slopeOf (s.health.margins[m]).daily

/-- DAYS_LEFT (R562): 0xFFFF without a projection, and 0 once the threshold has been crossed. -/
def State.daysLeft (s : State) (m : Fin 24) : Nat :=
  let x := s.health.margins[m]
  let k := s.slope m
  match x.value with
  | none => 0xFFFF
  | some v =>
    if x.dailyCount < 7 || s.health.baseline || (if fallsWorse m then decide (0 ≤ k) else decide (k ≤ 0)) then 0xFFFF
    else min 0xFFFF (((x.threshold - v) / k).floor.toNat)

def State.overThreshold (s : State) (m : Fin 24) : Bool :=
  let x := s.health.margins[m]
  match x.value with
  | some v => beyond m v x.threshold
  | none => false

def State.overLimit (s : State) (m : Fin 24) : Bool :=
  let x := s.health.margins[m]
  match x.value with
  | some v => beyond m v x.limit
  | none => false

def modMargin (m : Fin 24) (f : Margin → Margin) (s : State) : State := s.modHealth fun h => { h with margins := vmod h.margins m f }

/-- One sample of a margin (R561). -/
def sampleMargin (m : Fin 24) (v : Int) (s : State) : State := modMargin m (fun x => { x with samples := x.samples + 1, sum := x.sum + v }) s

/-- The value of a margin that a register of the hub holds: WORST_INL, and the largest T_FALL or T_RISE (R561). -/
def State.heldValue (s : State) (m : Fin 24) (measured : Int) : Int :=
  if m.val = 22 then s.tdc.worstUnits
  else if m.val = 23 then s.owl.sos.toList.foldl (fun a o => max a (max o.tFall.toNat o.tRise.toNat : Nat)) 0
  else measured

/-- Nanoseconds between the samples of a margin that has an interval of its own: RING and CANARY every 60 s, DRAM hourly (R561). -/
def marginEvery (m : Fin 24) : Option Nat :=
  if m.val < 8 then some 60000000000 else if m.val = 20 || m.val = 21 then some hourNs else none

/-- The unit that a margin measures is running: a den that is not isolated and whose analogue is powered (R26, R561). -/
def State.marginRuns (s : State) (m : Fin 24) : Bool :=
  let d : DenId := ⟨m.val % 4, Nat.mod_lt _ (by decide)⟩
  16 ≤ m.val || (!(s.dens[d]).isolated && s.afeOn d)

/-- MARGIN_SAMPLE, at its interval where the margin has one; the margins BG and EYE are sampled by REF_COMPARE_DONE and
AGEING_EYE_SCAN (R561). -/
def execMarginSample (margin : Fin 24) (value : Int) (s : State) : Out :=
  guardNext (s.served && !(8 ≤ margin.val && margin.val < 12) && !(16 ≤ margin.val && margin.val < 20) && s.marginRuns margin) s <|
    match marginEvery margin with
    | none => sampleMargin margin (s.heldValue margin value) s
    | some d =>
      let s1 := atLc (s.health.margins[margin]).nextAt s
      sampleMargin margin value (modMargin margin (fun x => { x with nextAt := s1.lcN + d }) s1)

/-- The ports of a lane group whose eye has been measured (R375, R561). -/
def State.eyesOf (s : State) (g : Nat) : List (Port × Nat × Nat) :=
  allPorts.filterMap fun p => if p.val / 16 = g then (s.health.eyes[p]).map fun e => (p, e.1, e.2) else none

/-- AGEING_EYE_SCAN of an UP lane, one in 24 h; it waits while another scan runs on the lane (R398, R561). -/
def execAgeingEyeScan (port : Port) (scan : EyeScan) (s : State) : Out :=
  let l := s.lane port
  guardNext (s.served && s.sup.mode != .safeCore && l.rx == .up && l.scan.isNone) s <|
    let e := eyeOf scan
    let s0 := atLc s.health.eyeNext[port] s
    let s1 := s0.modHealth fun h =>
      { h with eyes := vset h.eyes port (some (e.2, e.1)), eyeNext := vset h.eyeNext port (s0.lcN + 24 * hourNs) }
    let es := s1.eyesOf (port.val / 16)
    let hMin := es.foldl (fun a x => min a x.2.1) e.2
    let wMin := es.foldl (fun a x => min a x.2.2) e.1
    if port.val < 16 then sampleMargin 17 wMin (sampleMargin 16 hMin s1) else sampleMargin 19 wMin (sampleMargin 18 hMin s1)

/-! Re-planning (R564, R565). -/

/-- The next action of a margin, as the row of "Actions, in order" lists it, 1 first; 0 when none is left (R564, R571). -/
def State.nextAction (s : State) (m : Fin 24) : Nat :=
  let h := s.health
  let vcore := !h.vcoreFailed && decide (s.sup.vcoreReq.toNat < 0x1E)
  if !(h.margins[m]).actEn then 0
  else if m.val < 4 then (if !(h.margins[m]).recentred then 1 else if vcore then 2 else 0)
  else if m.val < 8 then (if vcore then 1 else if h.presets.toNat % 4 != 0 then 2 else 0)
  else if m.val < 16 then 1
  else if m.val < 20 then (if (s.eyesOf ((m.val - 16) / 2)).any fun x => decide (h.retunes[x.1] < 3) then 1 else 0)
  else if m.val < 22 then (if (h.refresh.toList.getD (m.val - 20) 0).toNat < 2 then 1 else 0)
  else 0

/-- The history of a margin restarts (R562). -/
def restartHistory (x : Margin) : Margin := { x with daily := [], dailyCount := 0 }

/-- VCORE_REQ takes a code, with its notice (R67). -/
def askVcore (code : Byte) (s : State) : State :=
  if s.sup.vcoreReq = code then s
  else
    let s1 := (s.modSup fun u => { u with vcoreReq := code }).modHealth fun h => { h with vcoreAt := some s.time.aonNs }
    raise s1 0x0004 [s1.supplyStatus]

/-- VCORE_REQ rises by two codes, for every RING and CANARY margin (R565). -/
def raiseVcore (s : State) : State :=
  (askVcore (BitVec.ofNat 8 (min 0x1E (s.sup.vcoreReq.toNat + 2))) s).modHealth fun h =>
    { h with margins := vmapI h.margins fun i x => if i.val < 8 then restartHistory x else x }

/-- A sett's TRIM_PS takes the drift of its delay line, a measurement that no operand carries (R565; log entry 2). -/
def recentreTap (s : State) (k : SettId) : State :=
  let r := s.drawWord
  let t : Int := s.factory.tAnPs[k]
  let trim := clamp (-t) (255992 - t) ((s.chains[k]).trimPs.toInt + r.1.toInt)
  r.2.modChain k fun c => { c with trimPs := w32i trim, tapT := tapOfPs (t + trim) }

/-- The first preset still permitted of Stoat and Hare is forbidden (R565). -/
def narrowPresets (h : Health) : Health :=
  { h with presets := if h.presets.getLsbD 0 then h.presets &&& 0x3E else h.presets &&& 0x3D
           margins := vmapI h.margins fun i x => if 4 ≤ i.val && i.val < 8 then restartHistory x else x }

/-- Transmit targets one step on: POST + 1 and MAIN − 1, where R384 admits them (R565). -/
def retuneTaps (t : TxTaps) : TxTaps :=
  if t.post.toNat < 31 && decide (t.pre.toNat + t.post.toNat + 18 ≤ t.main.toNat) then { t with main := t.main - 1, post := t.post + 1 } else t

/-- The port with the smallest eye of a lane group among those that may still be re-tuned takes a step (R565). -/
def retunePort (g : Nat) (s : State) : State :=
  let es := (s.eyesOf g).filter fun x => decide (s.health.retunes[x.1] < 3)
  match es with
  | [] => s
  | e :: t =>
    let p := (t.foldl (fun (b : Port × Nat × Nat) x => if x.2.1 < b.2.1 then x else b) e).1
    (s.modLane p fun l => { l with tapsT := retuneTaps l.tapsT, tapAt := s.lcN }).modHealth fun h =>
      { h with retunes := vmod h.retunes p (· + 1)
               margins := vmapI h.margins fun i x => if i.val = 16 + 2 * g || i.val = 17 + 2 * g then restartHistory x else x }

/-- RETIRE_PROPOSED for a den, or for the sett of a den with the least headroom, which no operand names (R565; log entry 2). -/
def proposeRetire (m : Fin 24) (s : State) : State :=
  let s1 := modMargin m restartHistory s
  if m.val < 12 then raise s1 0x1013 [w32 (unitField 2 (m.val - 8)), w32 m.val]
  else
    let r := s1.drawWord
    raise r.2 0x1013 [w32 (unitField 1 (12 * (m.val - 12) + r.1.toNat % 12)), w32 m.val]

/-- One action of a margin carried out (R564, R565). -/
def takeAction (m : Fin 24) (action : Nat) (s : State) : State :=
  if m.val < 4 then
    (if action = 1 then
      modMargin m (fun x => { restartHistory x with recentred := true }) (forEach (settsOf ⟨m.val % 4, by omega⟩) recentreTap s)
    else raiseVcore s)
  else if m.val < 8 then (if action = 1 then raiseVcore s else s.modHealth narrowPresets)
  else if m.val < 16 then proposeRetire m s
  else if m.val < 20 then retunePort ((m.val - 16) / 2) s
  else
    (modMargin m restartHistory s).modHealth fun h =>
      { h with refresh := vmod h.refresh ⟨m.val % 2, Nat.mod_lt _ (by decide)⟩ fun r => if r.toNat < 2 then r + 1 else r }

/-- What a margin does once its daily value is known: its events, and in Service its next action (R564 to R566). -/
def judgeMargin (s : State) (m : Fin 24) : State :=
  match (s.health.margins[m]).value with
  | none => s
  | some v =>
    let lim := s.overLimit m
    let days := s.daysLeft m
    let short := !s.health.baseline && decide (days < s.health.horizon.toNat)
    let s1 := if lim then raise s 0x1011 [w32 m.val, w32i (ratRound v)] else s
    let s2 := if short then raise s1 0x1010 [w32 m.val, w32 days] else s1
    let a := s2.nextAction m
    if (lim || short || (!s.health.baseline && s.overThreshold m)) && a != 0 && s2.sup.mode == .service then
      let s3 := modMargin m (fun x => { x with steps := x.steps + 1 }) (takeAction m a s2)
      raise s3 0x1012 [w32 (m.val + fld 5 3 a), w32 (s3.health.margins[m]).steps]
    else s2

/-- The day's samples fold into one daily value, their mean; a day without samples gives none (R562). -/
def foldMargin (x : Margin) : Margin :=
  if x.samples = 0 then x
  else { x with daily := ((x.sum : Rat) / x.samples :: x.daily).take 30, dailyCount := x.dailyCount + 1, samples := 0, sum := 0 }

/-- LC of the next daily fold: the end of the day of powered time after the last one (R562, R563). -/
def State.foldDue (s : State) : Nat :=
  let b := s.health.poweredH.toNat * hourNs
  ((b + s.health.foldAt) / (24 * hourNs) + 1) * (24 * hourNs) - b

/-- MARGIN_DAILY_FOLD (R562, R564). -/
def execMarginDailyFold (s : State) : Out :=
  guardNext (s.served && s.time.tclk) s <|
    let s1 := atLc s.foldDue s
    forEach (List.finRange 24) judgeMargin (s1.modHealth fun h => { h with margins := h.margins.map foldMargin, foldAt := s.foldDue })

/-- BASELINE_END: 72 h of powered time (R563). -/
def execBaselineEnd (s : State) : Out :=
  guardNext (s.served && s.time.tclk && s.health.baseline) s
    (raise ((atLc (s.health.baselineH * hourNs) s).modHealth fun h => { h with baseline := false }) 0x1014 [])

/-! Reference comparisons (R19, R205, R557). -/

/-- The den before it in the ring. -/
def prevDen (d : DenId) : DenId := ⟨(d.val + 3) % 4, Nat.mod_lt _ (by decide)⟩

/-- Both comparisons of the den have failed, with neighbours that are not isolated (R19). -/
def State.bothFailed (s : State) (d : DenId) : Bool :=
  (s.dens[d]).compareFailed == some true && (s.dens[prevDen d]).compareFailed == some true &&
  !(s.dens[nextDen d]).isolated && !(s.dens[prevDen d]).isolated

/-- A failed comparison is counted and reported for both dens (R19, R560, R566). -/
def reportCompare (d : DenId) (ppm : Word) (s : State) : State :=
  let e := nextDen d
  raiseDenFault (raiseDenFault ((s.modUnitD d (bump 0)).modUnitD e (bump 0)) d.val e.val 0 ppm) e.val d.val 0 ppm

/-- The den's and its neighbour's isolation after a failed comparison (R19). -/
def judgeDens (d : DenId) (s : State) : State :=
  let a := s.bothFailed d
  let b := s.bothFailed (nextDen d)
  let s1 := if a then isolateDen d s else s
  if b then isolateDen (nextDen d) s1 else s1

/-- REF_COMPARE_DONE: 400 ticks after its start; a comparison with an isolated den is not made (R19, R205, R557, R561). -/
def execRefCompareDone (den : DenId) (ppm : Int) (s : State) : Out :=
  .next <|
    match (s.dens[den]).compareTk with
    | none => s
    | some t =>
      let s1 := (atTk (t + 400) s).modDen den fun x => { x with compareTk := none }
      if (s1.dens[den]).isolated || (s1.dens[nextDen den]).isolated then s1
      else
        let bad := decide (500 < ppm.natAbs)
        let s2 := sampleMargin ⟨8 + den.val, by omega⟩ ppm.natAbs (s1.modDen den fun x => { x with compareFailed := some bad })
        if bad then judgeDens den (reportCompare den (w32 ppm.natAbs) s2) else s2

/-! CHAN_RETIRE and CHAN_RESTORE (R567). -/

/-- LEVEL and INDEX of the parameter word name a unit. -/
def unitOk (w : Word) : Bool :=
  resv w 31 11 && (match bits w 1 0 with
    | 0 => decide (bits w 10 2 < 384)
    | 1 => decide (bits w 10 2 < 48)
    | 2 => decide (bits w 10 2 < 4)
    | _ => false)

/-- The channels of a unit. -/
def unitChans (level index : Nat) : List Chan :=
  let n := if level = 0 then 1 else if level = 1 then 8 else 96
  (List.finRange 384).filter fun c => c.val / n == index

/-- The unit is retired, or isolated (R567). -/
def State.unitOut (s : State) (level index : Nat) : Bool × Bool :=
  match level with
  | 0 => (((chanAt index).map fun c => (s.chans[c]).retired).getD false, false)
  | 1 => (false, ((finOf 48 index).map fun k => (s.setts[k]).isolated).getD false)
  | _ => (false, ((finOf 4 index).map fun d => (s.dens[d]).isolated).getD false)

/-- The transients of a unit. -/
def State.unitTimes (s : State) (level index : Nat) : Unit2 :=
  match level with
  | 0 => ((chanAt index).map fun c => s.health.chans[c]).getD Unit2.reset
  | 1 => ((finOf 48 index).map fun k => s.health.setts[k]).getD Unit2.reset
  | _ => ((finOf 4 index).map fun d => s.health.dens[d]).getD Unit2.reset

/-- The reply word: the unit's state. -/
def unitReply (w : Word) (s : State) : List Word :=
  let o := s.unitOut (bits w 1 0) (bits w 10 2)
  [w32 (flag 0 o.1 + flag 1 o.2 + fld 2 2 (recentCount (s.unitTimes (bits w 1 0) (bits w 10 2)) s.lcN))]

/-- The restorations that wait for a boundary, without those of one unit. -/
def dropRestore (level index : Nat) (s : State) : State :=
  s.modHealth fun h => { h with restores := h.restores.filter fun r => !(r.1.toNat == level && r.2.1 == index) }

/-- CHAN_RETIRE: only a channel can be retired; a restoration of it that waits for its boundary no longer takes effect (R449, R567).
-/
def chanRetireBody (_ : Ctx) (ws : List Word) (s : State) : Res :=
  let w := pw ws 0
  match chanAt (bits w 10 2) with
  | none => refuse stBadParam s
  | some c =>
    if !unitOk w || bits w 1 0 != 0 then refuse stBadParam s
    else
      let s1 := retireChannel c true (dropRestore 0 c.val s)
      .done stOk (unitReply w s1) s1

def chanRetireSpec : CmdSpec :=
  { code := 0x1002, access := fun c _ _ => accEng c, mode := modeAll, length := fun ws => ws.length == 1, body := chanRetireBody }

def execChanRetire (p : Packet) (s : State) : Out := serve chanRetireSpec p s

/-- The unit holds a channel that the block in force uses (R567). -/
def State.safetyUnit (s : State) (w : Word) : Bool :=
  match s.owl.block with
  | some b => unitOk w && (unitChans (bits w 1 0) (bits w 10 2)).any fun c => s.usesChan c b
  | none => false

/-- The checks of CHAN_RESTORE. Whether the cause of a den's isolation persists is a free bit: the spec names no register that
holds it (R19, R567; log entry 2). -/
def restoreCheck (w : Word) (s : State) : Nat × State :=
  let level := bits w 1 0
  let index := bits w 10 2
  if !unitOk w then (stBadParam, s)
  else if (unitChans level index).any fun c => (s.chans[c]).cm != 0 then (stBusy, s)
  else if level = 2 ∧ (s.unitOut level index).2 then
    let r := s.drawWord
    (if bit r.1 0 then stBusy else stOk, r.2)
  else (stOk, s)

/-- A restoration is set for the next plan-frame boundary (R567). -/
def restoreApply (w : Word) (s : State) : State :=
  let level := bits w 1 0
  let index := bits w 10 2
  let o := s.unitOut level index
  if o.1 || o.2 then
    (dropRestore level index s).modHealth fun h => { h with restores := h.restores ++ [(BitVec.ofNat 2 level, index, s.nextBoundary)] }
  else s

/-- The state that takes effect at the boundary: in service, with no transient counted (R555, R567). -/
def restoreReply (w : Word) (s : State) : List Word :=
  let o := s.unitOut (bits w 1 0) (bits w 10 2)
  if o.1 || o.2 then [0] else unitReply w s

/-- CHAN_RESTORE: a safety-relevant unit needs the agreement (R510, R567). -/
def chanRestoreBody (c : Ctx) (ws : List Word) (s : State) : Res :=
  let w := pw ws 0
  let r := restoreCheck w s
  if r.1 ≠ stOk then refuse r.1 r.2
  else if r.2.safetyUnit w then propose c 0 0x1003 ws (genericDigest r.2 0x1003 0 (bytesOfWords ws)) r.2
  else .done stOk (restoreReply w r.2) (restoreApply w r.2)

def chanRestoreSpec : CmdSpec :=
  { code := 0x1003, access := fun c ws s => if s.safetyUnit (pw ws 0) then accParty 0x1003 0 c else accEng c
    mode := fun _ s => modeIf s.working, length := fun ws => ws.length == 1, body := chanRestoreBody }

def execChanRestore (p : Packet) (s : State) : Out := serve chanRestoreSpec p s

/-- The transients of a unit no longer count (R555). -/
def forgetTimes (u : Unit2) : Unit2 := { u with last := none, prev := none, old := none }

/-- The chains of a channel are cleared as at a start event: its words settle from the boundary (R567). -/
def clearChain (b : Nat) (s : State) (c : Chan) : State := s.modChan c fun x => { clearDsp x with restoreTk := some b, recent := [] }

/-- A channel returns to service. -/
def restoreChan (b : Nat) (c : Chan) (s : State) : State :=
  clearChain b ((s.modChan c fun x => { x with retired := false }).modUnitC c forgetTimes) c

/-- A sett returns to service, and its excitation goes on under the plan. -/
def restoreSett (b : Nat) (k : SettId) (s : State) : State :=
  let s1 := (s.modSett k fun x => { x with isolated := false, ocHold := false }).modUnitS k forgetTimes
  followPlan k (forEach (chansOf k) (clearChain b) s1)

/-- A den returns to service: its comparisons are made anew, and the excitation of its setts goes on under the plan. -/
def restoreDen (b : Nat) (d : DenId) (s : State) : State :=
  let s1 := (s.modDen d fun x => { x with isolated := false, excOff := false, compareFailed := none }).modDen (prevDen d) fun x =>
    { x with compareFailed := none }
  forEach (settsOf d) (fun s k => followPlan k (forEach (chansOf k) (clearChain b) s)) (s1.modUnitD d forgetTimes)

/-- One unit is restored at its boundary, with the RESTORED event (R566, R567). -/
def restoreUnit (s : State) (r : BitVec 2 × Nat × Nat) : State :=
  let b := r.2.2
  let s1 := match r.1.toNat with
    | 0 => ((chanAt r.2.1).map fun c => restoreChan b c s).getD s
    | 1 => ((finOf 48 r.2.1).map fun k => restoreSett b k s).getD s
    | _ => ((finOf 4 r.2.1).map fun d => restoreDen b d s).getD s
  raise s1 0x1002 (w32 (unitField r.1.toNat r.2.1) :: s1.lcWords)

/-- CHAN_RESTORE_EFFECT: the restorations of the earliest boundary take effect (R567). -/
def execChanRestoreEffect (s : State) : Out :=
  .next <|
    match s.health.restores with
    | [] => s
    | r :: t =>
      let b := t.foldl (fun a x => min a x.2.2) r.2.2
      let s1 := (atTk b s).modHealth fun h => { h with restores := h.restores.filter fun x => x.2.2 != b }
      forEach (s.health.restores.filter fun x => x.2.2 == b) restoreUnit s1

/-! HEALTH_REPORT and MARGIN_PLAN (R570, R571). -/

/-- The margin with the smallest DAYS_LEFT, the lowest on a tie. -/
def State.soonest (s : State) : Fin 24 := (List.finRange 24).foldl (fun b m => if s.daysLeft m < s.daysLeft b then m else b) 0

/-- REFRESH_X: the faster of the two dies. -/
def refreshX (h : Health) : Nat := max (h.refresh[0]).toNat (h.refresh[1]).toNat

def healthWords (s : State) : List Word :=
  let h := s.health
  let m := s.soonest
  [w32 (flag 0 h.baseline + fld 1 7 s.baselineLeft + fld 8 9 (s.chans.toList.countP fun c => c.retired) + fld 17 2 (refreshX h) +
     flag 19 h.vcoreFailed + fld 20 6 h.presets.toNat),
   w32 (maskOf 24 s.overThreshold), w32 (maskOf 24 s.overLimit), w32 (fld 0 5 m.val + fld 16 16 (s.daysLeft m)), w32 s.poweredHours]

def healthReportSpec : CmdSpec :=
  { code := 0x1000, access := fun c _ _ => accAny c, mode := modeAll, length := fun ws => ws.length == 1
    body := fun _ ws s => if pw ws 0 != 0 then refuse stBadParam s else .done stOk (healthWords s) s }

def execHealthReport (p : Packet) (s : State) : Out := serve healthReportSpec p s

def marginReply (m : Fin 24) (s : State) : List Word :=
  let x := s.health.margins[m]
  [w32i (ratRound (x.value.getD 0)), w32i x.threshold, w32i x.limit, w32i (ratRound (s.slope m * 256)),
   w32 (fld 0 16 (s.daysLeft m) + fld 16 16 x.dailyCount), w32 (fld 0 3 (s.nextAction m) + fld 3 5 x.steps), w32 x.samples]

/-- THRESHOLD lies on the worse side of LIMIT. -/
def thresholdWorse (m : Fin 24) (t l : Int) : Bool := if fallsWorse m then decide (t < l) else decide (l < t)

/-- MARGIN_PLAN (R571). -/
def marginPlanBody (_ : Ctx) (ws : List Word) (s : State) : Res :=
  let w := pw ws 0
  let d := bits (pw ws 3) 15 0
  match finOf 24 (bits w 4 0) with
  | none => refuse stBadParam s
  | some m =>
    if !resv w 31 8 || !resv (pw ws 3) 31 16 then refuse stBadParam s
    else if !bit w 5 then .done stOk (marginReply m s) s
    else if d = 0 || 3650 < d || thresholdWorse m (pw ws 1).toInt (pw ws 2).toInt then refuse stBadParam s
    else
      let s1 := (modMargin m (fun x => { x with actEn := bit w 6, threshold := (pw ws 1).toInt, limit := (pw ws 2).toInt }) s).modHealth
        fun h => { h with horizon := BitVec.ofNat 16 d, vcoreFailed := h.vcoreFailed && !bit w 7 }
      .done stOk (marginReply m s1) s1

def marginPlanSpec : CmdSpec :=
  { code := 0x1001, access := fun c ws _ => if bit (pw ws 0) 5 then accEng c else accAny c
    mode := fun ws s => if bit (pw ws 0) 5 then modeField (resv (pw ws 0) 31 8) s.working else stOk
    length := fun ws => ws.length == 4, body := marginPlanBody }

def execMarginPlan (p : Packet) (s : State) : Out := serve marginPlanSpec p s

/-! COUNTERS_READ and COUNTERS_CLEAR (R568, R569). -/

/-- The words of a counter: an edge-timing counter takes two (R568). -/
def countWords (c : Count) : List Word := if c.wide then words64 c.value else [w32 c.value]

def countersReadBody (_ : Ctx) (ws : List Word) (s : State) : Res :=
  let w := pw ws 0
  let first := bits w 15 0
  let n := bits w 20 16 + 1
  let all := unitCounts s (first / 4096) (first / 32 % 128)
  if !resv w 31 21 || decide (all.length < first % 32 + n) then refuse stBadParam s
  else
    let got := (all.drop (first % 32)).take n
    .done stOk (w32 (maskOf 32 fun i => (got[i.val]?.map (·.sat)).getD false) :: got.flatMap countWords) s

def countersReadSpec : CmdSpec :=
  { code := 0x1004, access := fun c _ _ => accAny c, mode := modeAll, length := fun ws => ws.length == 1, body := countersReadBody }

def execCountersRead (p : Packet) (s : State) : Out := serve countersReadSpec p s

/-- The counters of every INDEX of a UNIT cleared. -/
def clearUnitAll (s : State) (unit : Nat) : State := forEach (List.range (unitSize unit)) (fun s i => clearCounts s unit i) s

def countersClearBody (_ : Ctx) (ws : List Word) (s : State) : Res :=
  let w := pw ws 0
  let u := bits w 3 0
  if !resv w 31 13 || (!bit w 12 && (unitSize u == 0 || (!bit w 11 && decide (unitSize u ≤ bits w 10 4)))) then refuse stBadParam s
  else if bit w 12 then .done stOk [] (forEach (List.range 16) clearUnitAll s)
  else if bit w 11 then .done stOk [] (clearUnitAll s u)
  else .done stOk [] (clearCounts s u (bits w 10 4))

def countersClearSpec : CmdSpec :=
  { code := 0x1005, access := fun c _ _ => accOp c, mode := modeAll, length := fun ws => ws.length == 1, body := countersClearBody }

def execCountersClear (p : Packet) (s : State) : Out := serve countersClearSpec p s

end Sys2Proof.Machine
end

