-- ==== Sys2Proof/Machine/Agree.lean ====
section
/-! DEFINITION. The agreement of two parties: FAB_JOIN and PAIR_CONFIG, PROT_PROPOSE, PROT_CONFIRM and PROT_ABORT (R434,
R510 to R519, R524, R525, R550). -/

namespace Sys2Proof.Machine

/-! FAB_JOIN (R434). -/

/-- FAB_JOIN: a change of LEAD_PRIORITY needs the agreement. -/
def fabJoinBody (c : Ctx) (ws : List Word) (s : State) : Res :=
  let w0 := pw ws 0
  if !resv w0 31 20 then refuse stBadParam s
  else if !bit w0 10 then .done stOk (fabJoinWords s) s
  else if fabJoinCheck ws s ≠ stOk then refuse (fabJoinCheck ws s) s
  else if !c.replay && joinProtected ws s then propose c 0 0x0C00 ws (genericDigest s 0x0C00 0 (bytesOfWords ws)) s
  else .done stOk (fabJoinWords (applyFabJoin ws s)) (applyFabJoin ws s)

def fabJoinSpec : CmdSpec :=
  { code := 0x0C00, access := fun c ws s => if joinProtected ws s then accParty 0x0C00 0 c else if bit (pw ws 0) 10 then accEng c else accAny c
    mode := modeAll, length := fun ws => ws.length == 2, body := fabJoinBody }

def execFabJoin (p : Packet) (s : State) : Out := serve fabJoinSpec p s

/-! PAIR_CONFIG (R550). -/

/-- The ranges of the two words; SYNC_ID is compared with the pair ID where the hub is to be one of a pair. -/
def pairWordsOk (ws : List Word) (s : State) : Bool :=
  let a := pw ws 0
  let b := pw ws 1
  resv a 31 9 && resv b 31 24 && decide (8 ≤ bits a 8 3) && decide (bits a 8 3 ≤ 60) && decide (bits b 15 10 ≤ 50) &&
  decide (1 ≤ bits b 23 16) && decide (bits b 23 16 ≤ 168) && !(bit a 1 && bits b 9 0 == s.fab.hubId.toNat)

/-- The checks of a PAIR_CONFIG with WRITE (R543, R550). -/
def pairConfigCheck (ws : List Word) (s : State) : Nat :=
  if !pairWordsOk ws s || (bit (pw ws 0) 1 && s.overLimits) then stBadParam else stOk

def pairConfigApply (ws : List Word) (s : State) : State := s.modPair fun p => { p with word0 := pw ws 0 &&& 0xFFFFFFFE, word1 := pw ws 1 }

def pairConfigWords (s : State) : List Word := [s.pair.word0, s.pair.word1]

/-- The hubs that may be configured: an owner or an unpaired hub, in Service or Test. -/
def State.pairConfigurable (s : State) : Bool := s.working && (s.pair.owns || !s.pair.paired)

/-- PAIR_CONFIG: a protected change (R510). -/
def pairConfigBody (c : Ctx) (ws : List Word) (s : State) : Res :=
  if !bit (pw ws 0) 0 then (if !resv (pw ws 0) 31 9 || !resv (pw ws 1) 31 24 then refuse stBadParam s else .done stOk (pairConfigWords s) s)
  else if pairConfigCheck ws s ≠ stOk then refuse (pairConfigCheck ws s) s
  else if c.replay then .done stOk (pairConfigWords (pairConfigApply ws s)) (pairConfigApply ws s)
  else propose c 0 0x0F00 ws (genericDigest s 0x0F00 0 (bytesOfWords ws)) s

def pairConfigSpec : CmdSpec :=
  { code := 0x0F00, access := fun c ws _ => if bit (pw ws 0) 0 then accParty 0x0F00 0 c else accAny c
    mode := fun ws s => if bit (pw ws 0) 0 then modeField (resv (pw ws 0) 31 9) s.pairConfigurable else stOk
    length := fun ws => ws.length == 2, body := pairConfigBody }

def execPairConfig (p : Packet) (s : State) : Out := serve pairConfigSpec p s

/-! The protected set (R510). -/

/-- The commands of the protected set. -/
def protectedSpec (code : Nat) : Option CmdSpec :=
  [safeCommissionSpec, keyInstallSpec, fwActivateSpec, pairConfigSpec, fabJoinSpec, chanRestoreSpec].find? fun x => x.code == code

/-- A command whose change is not in the protected set (R512). -/
def notProtected (code : Nat) (ws : List Word) (s : State) : Bool :=
  if code = 0x0C00 then !joinProtected ws s
  else if code = 0x0F00 then !bit (pw ws 0) 0
  else if code = 0x1003 then !s.safetyUnit (pw ws 0)
  else false

/-- The digest of a command's change, as the hub computes it (R510, R511). -/
def commandDigest (c : Ctx) (code : Nat) (ws : List Word) (s : State) : List Byte :=
  if code = 0x0D01 then commissionDigest ws s
  else if code = 0x0E03 then keyDigest (unwrapKey c ws s) s
  else if code = 0x0E05 then activateDigest s
  else genericDigest s code 0 (bytesOfWords ws)

/-! The protection configuration and the debug unlock (R518, R519). -/

/-- Reserved bits are 0 and SEC_FLOOR is not lowered (R518). -/
def cfgCheck (ws : List Word) (s : State) : Nat :=
  if !resv (pw ws 0) 15 1 || decide (bits (pw ws 0) 31 16 < s.secFloor) then stBadParam else stOk

/-- DURATION_MIN, and the conditions of a debug unlock (R519). -/
def debugCheck (ws : List Word) (s : State) : Nat :=
  let w := pw ws 0
  if !resv w 31 8 || bits w 7 0 = 0 || 240 < bits w 7 0 then stBadParam
  else if !bit s.prot.cfg 0 then stProtected
  else if !s.owl.commEn then stSafeLocked
  else if s.sup.mode ≠ .test then stNotInMode
  else stOk

/-- The checks of a change as recorded: status, result words of a refusal, and the state with what they draw (R512, R514). -/
def changeJudge (code action : Nat) (ws : List Word) (s : State) : Nat × List Word × State :=
  match code with
  | 0x0D01 => let r := commissionJudge ws s; (r.1, r.2, s)
  | 0x0E03 => (keyCheck ws s, [], s)
  | 0x0E05 => (if s.working then activateCheck ws s else stNotInMode, [], s)
  | 0x0F00 => (if s.pairConfigurable then pairConfigCheck ws s else stNotInMode, [], s)
  | 0x0C00 => (fabJoinCheck ws s, [], s)
  | 0x1003 => if s.working then (let r := restoreCheck (pw ws 0) s; (r.1, [], r.2)) else (stNotInMode, [], s)
  | _ => (if action = 1 then cfgCheck ws s else debugCheck ws s, [], s)

/-- The effect of a confirmed change, with the result words of its own command. -/
def changeApply (code action : Nat) (ws : List Word) (s : State) : List Word × State :=
  match code with
  | 0x0D01 => ([0], commissionApply (bit (pw ws 0) 0) s)
  | 0x0E03 => let t := keyApply ws s; (keyReply (keySlot ws) t, t)
  | 0x0E05 => ([], activateApply s)
  | 0x0F00 => let t := pairConfigApply ws s; (pairConfigWords t, t)
  | 0x0C00 => let t := applyFabJoin ws s; (fabJoinWords t, t)
  | 0x1003 => (restoreReply (pw ws 0) s, restoreApply (pw ws 0) s)
  | _ =>
    if action = 1 then ([], s.modProt fun p => { p with cfg := pw ws 0 })
    else ([], s.modProt fun p => { p with debugUntil := some (s.lcN + bits (pw ws 0) 7 0 * 60000000000) })

/-! PROT_PROPOSE (R512, R524). -/

/-- ACTION and OPCODE name a change. -/
def proposalOk (w : Word) : Bool :=
  resv w 15 2 && (match bits w 1 0 with
    | 0 => (protectedSpec (bits w 31 16)).isSome
    | 3 => false
    | _ => bits w 31 16 == 0)

/-- The CHANGE of a PROT_PROPOSE. -/
def changeWords (ws : List Word) : List Word := ws.drop 9

/-- Access, mode and length are those of the command carried, once the words name one. -/
def proposeAccess (c : Ctx) (ws : List Word) (s : State) : Bool :=
  let w := pw ws 0
  if !proposalOk w then accOp c
  else match bits w 1 0, protectedSpec (bits w 31 16) with
    | 0, some sp => c.session.isSome && sp.access c (changeWords ws) s
    | a, _ => accParty 0x0E00 a c

def proposeMode (ws : List Word) (s : State) : Nat :=
  let w := pw ws 0
  if !proposalOk w then stBadParam
  else match bits w 1 0, protectedSpec (bits w 31 16) with
    | 0, some sp => sp.mode (changeWords ws) s
    | _, _ => stOk

def proposeLength (ws : List Word) : Bool :=
  let w := pw ws 0
  decide (9 ≤ ws.length) && (match bits w 1 0, protectedSpec (bits w 31 16) with
    | 0, some sp => sp.length (changeWords ws)
    | _, _ => ws.length == 10)

/-- PROT_PROPOSE: the proposer's digest must be the hub's (R512). -/
def protProposeBody (c : Ctx) (ws : List Word) (s : State) : Res :=
  let w := pw ws 0
  let ch := changeWords ws
  let digest := bytesOfWords ((ws.drop 1).take 8)
  let a := bits w 1 0
  match a, protectedSpec (bits w 31 16) with
  | 0, some sp =>
    if notProtected sp.code ch s || commandDigest c sp.code ch s != digest then refuse stBadParam s else sp.body c ch s
  | _, _ =>
    let d := genericDigest s 0x0E00 a (bytesOfWords ch)
    let st := if a = 1 then cfgCheck ch s else debugCheck ch s
    if d != digest then refuse stBadParam s else if st ≠ stOk then refuse st s else propose c a 0x0E00 ch d s

def protProposeSpec : CmdSpec :=
  { code := 0x0E00, access := proposeAccess, mode := proposeMode, length := proposeLength, body := protProposeBody }

def execProtPropose (p : Packet) (s : State) : Out := serve protProposeSpec p s

/-! PROT_CONFIRM (R514, R516). -/

/-- The proposal a command names. -/
def proposalNo (ws : List Word) : Fin 8 := ⟨bits (pw ws 0) 2 0, Nat.mod_lt _ (by decide)⟩

/-- The roles of the two together suffice (R510). -/
def confirmRoles (p : Proposal) (c : Ctx) (s : State) : Bool :=
  let need := changeRequired p.opcode.toNat p.action.toNat
  accParty p.opcode.toNat p.action.toNat c && (c.slot == some p.slot || ((c.roles ||| (s.prot.slots[p.slot]).roles) &&& need == need))

/-- The change of a held proposal applies, with its notice; a check that fails ends the proposal (R514, R525, R543). -/
def confirmChange (i : Fin 8) (p : Proposal) (k : Fin 8) (s : State) : Res :=
  let code := p.opcode.toNat
  let r := changeJudge code p.action.toNat p.params s
  let s1 := r.2.2.setProposal i none
  if r.1 ≠ stOk then .done r.1 r.2.1 s1
  else
    let a := changeApply code p.action.toNat p.params s1
    if s1.breaksLimits a.2 then refuse stBadParam s1 else .done stOk a.1 (raise a.2 0x0700 (protBody p k.val 0))

def protConfirmBody (c : Ctx) (ws : List Word) (s : State) : Res :=
  let i := proposalNo ws
  if !resv (pw ws 0) 31 3 then refuse stBadParam s
  else match s.proposalAt i, c.slot with
    | some p, some k =>
      if k = p.slot then .done stSecondParty (partyWords i p) s
      else if bytesOfWords ((ws.drop 1).take 8) != p.digest then refuse stBadParam s
      else confirmChange i p k s
    | _, _ => refuse stBadParam s

def protConfirmSpec : CmdSpec :=
  { code := 0x0E01
    access := fun c ws s => match s.proposalAt (proposalNo ws) with
      | some p => confirmRoles p c s
      | none => accOp c
    mode := modeAll, length := fun ws => ws.length == 9, body := protConfirmBody }

def execProtConfirm (p : Packet) (s : State) : Out := serve protConfirmSpec p s

/-! PROT_ABORT (R515, R524). -/

/-- The principal's roles could propose or confirm the change. -/
def mayAbort (c : Ctx) (p : Proposal) : Bool := accParty p.opcode.toNat p.action.toNat c

/-- The proposals that a PROT_ABORT ends. -/
def abortMask (c : Ctx) (ws : List Word) (s : State) : Nat :=
  if bit (pw ws 0) 3 then maskOf 8 fun i => (s.proposalAt i).any (mayAbort c)
  else maskOf 8 fun i => i == proposalNo ws && (s.proposalAt i).isSome

def protAbortBody (c : Ctx) (ws : List Word) (s : State) : Res :=
  let m := abortMask c ws s
  if !resv (pw ws 0) 31 4 || (!bit (pw ws 0) 3 && m == 0) then refuse stBadParam s
  else
    let s1 := forEach (maskFins 8 m) (fun s i => endProposal i 1 s) s
    .done stOk [w32 (m + fld 8 8 (maskOf 8 fun i => (s1.proposalAt i).isSome))] s1

def protAbortSpec : CmdSpec :=
  { code := 0x0E02
    access := fun c ws s =>
      if bit (pw ws 0) 3 then accOp c
      else match s.proposalAt (proposalNo ws) with
        | some p => mayAbort c p
        | none => accOp c
    mode := modeAll, length := fun ws => ws.length == 1, body := protAbortBody }

def execProtAbort (p : Packet) (s : State) : Out := serve protAbortSpec p s

end Sys2Proof.Machine
end

