-- ==== Sys2Proof/Machine/Coding.lean ====
section
/-! DEFINITION. The commands of the block coder (R372 to R374). -/

namespace Sys2Proof.Machine

/-- Records of the sett are being coded now: its filters run in continuous conversion (R354). -/
def State.coding (s : State) (k : SettId) : Bool :=
  (s.coders[k]).enable && (s.setts[k]).run && !(s.setts[k]).burstMode

/-- Reply of CODER_CONFIG (R372). -/
def coderReply (k : SettId) (s : State) : Res :=
  let c := s.coders[k]
  .done stOk [w32 (flag 0 c.enable + fld 1 2 c.ratio.toNat + flag 3 c.alertEn + fld 4 4 c.depthAlert.toNat +
    flag 8 (s.setts[k]).run + flag 9 (s.coding k))] s

/-- CODER_CONFIG (R367, R372). -/
def coderConfigBody (_ : Ctx) (ws : List Word) (s : State) : Res :=
  let w := pw ws 0
  let ratio := bits w 9 8
  match finOf 48 (bits w 5 0) with
  | none => refuse stBadParam s
  | some k =>
    if !resv w 31 15 then refuse stBadParam s
    else if !bit w 6 then coderReply k s
    else if ratio == 3 || decide (s.hoard.streams[settStream k].recMax.toNat < coderFloor ratio) then refuse stBadParam s
    else if (s.setts[k]).run then refuse stBusy s
    else coderReply k (s.modCoder k fun c =>
      { c with enable := bit w 7, ratio := w.extractLsb' 8 2, alertEn := bit w 10, depthAlert := w.extractLsb' 11 4 })

def coderConfigSpec : CmdSpec :=
  { code := 0x0A00, access := fun c ws _ => if bit (pw ws 0) 6 then accEng c else accAny c, mode := modeAll,
    length := fun ws => ws.length == 1, body := coderConfigBody }

def execCoderConfig (p : Packet) (s : State) : Out := serve coderConfigSpec p s

/-- CODER_STATUS (R373). -/
def coderStatusBody (_ : Ctx) (ws : List Word) (s : State) : Res :=
  let w := pw ws 0
  match finOf 48 (bits w 5 0) with
  | none => refuse stBadParam s
  | some k =>
    if !resv w 31 6 then refuse stBadParam s
    else
      let c := s.coders[k]
      .done stOk (w32 (flag 0 c.enable + fld 1 2 c.ratio.toNat + flag 3 (s.coding k) + fld 4 4 c.maxDepth.toNat +
        fld 8 4 c.lastDepth.toNat) :: coderCounters c) s

def coderStatusSpec : CmdSpec :=
  { code := 0x0A01, access := fun c _ _ => accAny c, mode := modeAll, length := fun ws => ws.length == 1,
    body := coderStatusBody }

def execCoderStatus (p : Packet) (s : State) : Out := serve coderStatusSpec p s

/-- Words of a block by RATIO: B of R374. -/
def blockWords (ratio : BitVec 2) : Nat := blockBytes ratio / 4

/-- The samples that DECODE_TEST encodes, none for an INV sample. -/
def testSample (w : Word) : Option Int := if bit w 1 then none else some (sbits w 31 8)

/-- DECODE_TEST (R374). -/
def decodeTestBody (_ : Ctx) (ws : List Word) (s : State) : Res :=
  let w := pw ws 0
  let ratio : BitVec 2 := w.extractLsb' 1 2
  let n := bits w 7 3 + 1
  let h := (sbits (pw ws 1) 23 0, sbits (pw ws 2) 23 0)
  let data := ws.drop 3
  if !resv w 31 9 || ratio == 3 || !resv (pw ws 1) 31 24 || !resv (pw ws 2) 31 24 then refuse stBadParam s
  else if !bit w 0 then
    let b := encodeBlock ratio (if bit w 8 then none else some h) (data.map testSample)
      (data.foldl (fun (f : Byte) x => f ||| x.extractLsb' 0 8) 0)
    .done stOk (w32 (fld 2 5 b.exp + fld 7 4 b.depth + fld 11 2 b.order) :: wordsOfBytes b.bytes) s
  else
    let d := decodeBlock ratio h n (bytesOfWords data)
    .done stOk (w32 (fld 0 2 d.check + fld 2 5 d.exp + fld 7 4 d.depth + fld 11 2 d.order) :: d.words) s

/-- The parameters are as many as N or B wants; a reserved RATIO is left to the command's own check (R374). -/
def decodeTestLength (ws : List Word) : Bool :=
  let w := pw ws 0
  let ratio : BitVec 2 := w.extractLsb' 1 2
  decide (1 ≤ ws.length) && (ratio == 3 || ws.length == 3 + (if bit w 0 then blockWords ratio else bits w 7 3 + 1))

def decodeTestSpec : CmdSpec :=
  { code := 0x0A02, access := fun c _ _ => accAny c, mode := fun _ s => modeIf (s.sup.mode != .safeCore),
    length := decodeTestLength, body := decodeTestBody }

def execDecodeTest (p : Packet) (s : State) : Out := serve decodeTestSpec p s

/-- CODER_RESUME: a stalled coder whose queue has room writes what it holds (R368). -/
def execCoderResume (sett : SettId) (s : State) : Out :=
  guardNext ((s.coders[sett]).stalled && !coderFull sett s) s <|
    let a := writeSets 2 sett (s.modCoder sett fun c => { c with stalled := false })
    let b := endRefusal sett a.1
    pushAll pushLimit (a.2 ++ b.2) b.1

end Sys2Proof.Machine
end

