-- ==== Sys2Proof/Machine/Hoard.lean ====
section
/-! DEFINITION. The Hoard: rings, subscriptions and their cursors, rewind marks, the settings of queues, and the spill
region's ageing (R317 to R353). -/

namespace Sys2Proof.Machine

/-- Streams of a mask of two words (R347). -/
def maskStreams (lo hi : Word) : List (Fin 54) := maskFins 54 (nat64 lo hi)

/-- A (STREAM, SEQ) pair in a reply (R347). -/
def seqPair (t : Fin 54) (q : BitVec 48) : List Word := seqWords q t.val

/-- The subscription as it is kept. -/
def State.setSub (s : State) (i : Fin 64) (u : Option Sub) : State := s.modHoard fun h => { h with subs := vset h.subs i u }

def State.setMark (s : State) (i : Fin 256) (m : Option Mark) : State :=
  s.modHoard fun h => { h with marks := vset h.marks i m }

/-- The cursor of a stream. -/
def Sub.cursor (u : Sub) (t : Nat) : Option Cursor := u.cursors.find? fun c => c.stream == t

def Sub.modCursor (u : Sub) (t : Nat) (f : Cursor → Cursor) : Sub :=
  { u with cursors := u.cursors.map fun c => if c.stream = t then f c else c }

/-- A cursor that will send `first` next (R333). -/
def newCursor (t : Nat) (first : BitVec 48) : Cursor :=
  { stream := t, acked := first - 1, nextSend := first, sentEnd := first, runSent := none, sentAt := [], past := [],
    consecutive := 0, suspended := false, skip := false, resends := 0, skips := 0 }

/-! SUB_OPEN. -/

/-- Where a subscription starts on a stream (R347): NEWEST is the next record; stream 53 of a mark that lacks it starts
there too (log entry 30). -/
def startSeq (start : Nat) (m : Option Mark) (t : Fin 54) (s : State) : BitVec 48 :=
  let st := s.hoard.streams[t]
  if start = 1 then st.oldest
  else match (m.bind fun m => m.part t.val) with
    | some (q, true) => if start = 2 then q else st.nextSeq
    | _ => st.nextSeq

/-- SUB_OPEN (R347); a standby sync opens no subscription (R536). -/
def subOpenBody (_ : Ctx) (ws : List Word) (s : State) : Res :=
  let w0 := pw ws 0
  let w3 := pw ws 3
  let w4 := pw ws 4
  let id : Fin 64 := ⟨bits w0 5 0, Nat.mod_lt _ (by decide)⟩
  let start := bits w0 7 6
  let mk : Fin 256 := ⟨bits w0 15 8, Nat.mod_lt _ (by decide)⟩
  let named : List (Fin 54) := (maskStreams (pw ws 1) (pw ws 2)).filter fun t => t.val != 53
  let mark := if start = 2 then s.hoard.marks[mk] else none
  let part := fun (t : Fin 54) => mark.bind fun m => m.part t.val
  if !resv w0 31 27 || !resv (pw ws 2) 31 22 || !resv w3 31 17 || !resv w4 31 20 || start == 3 ||
      (bit w0 16 && decide (15 < bits w0 26 17)) || decide (bits w3 12 0 < 1) || decide (4096 < bits w3 12 0) ||
      bits w3 16 13 == 0 || decide (bits w4 19 0 < 100) || decide (1000000 < bits w4 19 0) then refuse stBadParam s
  else if (s.hoard.subs[id]).isSome then refuse stBusy s
  else if start == 2 && (mark.isNone || named.any fun (t : Fin 54) => (part t).isNone) then refuse stBadParam s
  else if start == 2 && named.any (fun (t : Fin 54) => (part t).any fun p => !p.2) then refuse stOvertaken s
  else
    let curs := (named ++ [53]).map fun (t : Fin 54) => newCursor t.val (startSeq start mark t s)
    let u : Sub :=
      { uplink := bit w0 16, dest := w0.extractLsb' 17 10, window := w3.extractLsb' 0 13, maxResends := w3.extractLsb' 13 4,
        ackUs := w4.extractLsb' 0 20, run := 0, cursors := curs, hold := none }
    .done stOk (w32 (fld 8 6 curs.length) :: curs.flatMap fun c => seqWords c.nextSend c.stream) (s.setSub id (some u))

def subOpenSpec : CmdSpec :=
  { code := 0x0900, access := fun c _ _ => accOp c, mode := fun _ s => modeIf (!s.pair.syncing), length := fun ws => ws.length == 5,
    body := subOpenBody }

def execSubOpen (p : Packet) (s : State) : Out := serve subOpenSpec p s

/-! SUB_ACK and SUB_CLOSE. -/

/-- One entry of SUB_ACK: stream, run and sequence (R348). -/
structure AckEntry where
  stream : Nat
  run : Byte
  seq : BitVec 48
  deriving DecidableEq, Repr

def ackEntry (ws : List Word) (e : Nat) : AckEntry :=
  let lo := pw ws (1 + 2 * e)
  let hi := pw ws (2 + 2 * e)
  { stream := bits hi 23 16, run := hi.extractLsb' 24 8, seq := BitVec.ofNat 48 (lo.toNat + bits hi 15 0 * 2 ^ 32) }

/-- The entry has no effect: another run, or not newer than ACKED (R335). -/
def ackStale (u : Sub) (c : Cursor) (a : AckEntry) : Bool := a.run != u.run || !seqOlder c.acked a.seq

/-- The entry is refused: no such stream, or beyond the last record sent (R335). -/
def ackBad (u : Sub) (a : AckEntry) : Bool :=
  match u.cursor a.stream with
  | none => true
  | some c => !ackStale u c a && !seqOlder a.seq c.sentEnd

/-- A cursor whose ACKED advances (R335); a resend not yet begun is cancelled (R336), and the consecutive resends start
again (R337; log entry 31). -/
def ackCursor (q : BitVec 48) (c : Cursor) : Cursor :=
  { c with acked := q, consecutive := 0, sentAt := c.sentAt.filter fun p => seqOlder q p.1,
           past := c.past.filter fun p => seqOlder q p.1,
           nextSend := if c.nextSend = c.acked + 1 then (if seqOlder c.sentEnd (q + 1) then q + 1 else c.sentEnd)
             else if seqOlder c.nextSend (q + 1) then q + 1 else c.nextSend }

/-- Entries applied in order: the subscription, how many advanced and how many were stale (R348). -/
def ackAll : List AckEntry → Sub × Nat × Nat → Sub × Nat × Nat
  | [], r => r
  | a :: t, (u, adv, st) =>
    match u.cursor a.stream with
    | some c => ackAll t (if ackStale u c a then (u, adv, st + 1) else (u.modCursor a.stream (ackCursor a.seq), adv + 1, st))
    | none => ackAll t (u, adv, st)

/-- Suspended cursors resume from ACKED + 1 (R337). -/
def resumeCursor (c : Cursor) : Cursor :=
  if c.suspended then { c with suspended := false, consecutive := 0, nextSend := c.acked + 1 } else c

/-- SUB_ACK (R335, R348). -/
def subAckBody (_ : Ctx) (ws : List Word) (s : State) : Res :=
  let w0 := pw ws 0
  let id : Fin 64 := ⟨bits w0 5 0, Nat.mod_lt _ (by decide)⟩
  let n := bits w0 11 6
  if !resv w0 31 12 || n = 0 || 54 < n then refuse stBadParam s
  else match s.hoard.subs[id] with
    | none => refuse stBadParam s
    | some u =>
      let es := (List.range n).map (ackEntry ws)
      if es.any (ackBad u) then refuse stBadParam s
      else
        let (u1, adv, st) := ackAll es (u, 0, 0)
        .done stOk [w32 (fld 0 6 adv + fld 6 6 st)] (s.setSub id (some { u1 with cursors := u1.cursors.map resumeCursor }))

def subAckSpec : CmdSpec :=
  { code := 0x0901, access := fun c _ _ => accOp c, mode := modeAll,
    length := fun ws => decide (1 ≤ ws.length) && ws.length == 1 + 2 * bits (pw ws 0) 11 6, body := subAckBody }

def execSubAck (p : Packet) (s : State) : Out := serve subAckSpec p s

/-- SUB_CLOSE (R349). -/
def subCloseBody (_ : Ctx) (ws : List Word) (s : State) : Res :=
  let w := pw ws 0
  let id : Fin 64 := ⟨bits w 5 0, Nat.mod_lt _ (by decide)⟩
  if !resv w 31 7 then refuse stBadParam s
  else if bit w 6 then .done stOk [] (s.modHoard fun h => { h with subs := Vector.replicate 64 none })
  else .done stOk [] (s.setSub id none)

def subCloseSpec : CmdSpec :=
  { code := 0x0902, access := fun c _ _ => accOp c, mode := modeAll, length := fun ws => ws.length == 1,
    body := subCloseBody }

def execSubClose (p : Packet) (s : State) : Out := serve subCloseSpec p s

/-! Marks. -/

/-- The sequence a mark takes at an LC: the oldest held record with an entry at or after it, whatever the order of its entries, or
the next record when every held entry is older (R341; log entry 29). -/
def seqAtLc (t : Stream) (lc : Nat) : BitVec 48 :=
  ((t.held.find? fun r => decide (lc ≤ r.maxLc.toNat)).map (·.seq)).getD t.nextSeq

/-- AT_LC is older than every entry a stream holds (R341). -/
def beforeHeld (t : Stream) (lc : Nat) : Bool := !t.held.isEmpty && t.held.all fun r => decide (lc < r.minLc.toNat)

/-- The reply of MARK_SET (R350). -/
def markReply (parts : List (Fin 54 × BitVec 48)) : List Word :=
  w32 (fld 0 6 parts.length) :: parts.flatMap fun p => seqPair p.1 p.2

/-- MARK_SET (R341, R343, R350). -/
def markSetBody (_ : Ctx) (ws : List Word) (s : State) : Res :=
  let w0 := pw ws 0
  let id : Fin 256 := ⟨bits w0 7 0, Nat.mod_lt _ (by decide)⟩
  let op := bits w0 9 8
  let guard := bits w0 22 11
  let prot := bit w0 10
  let streams := maskStreams (pw ws 1) (pw ws 2)
  let lc := nat64 (pw ws 3) (pw ws 4)
  if !resv w0 31 23 || !resv (pw ws 2) 31 22 || op == 3 || (prot && (guard == 0 || decide (4064 < guard))) ||
      (!prot && guard != 0) then refuse stBadParam s
  else if op = 2 then
    if !zeroFrom ws 1 then refuse stBadParam s else .done stOk (markReply []) (s.setMark id none)
  else if op == 1 && streams.any fun t => beforeHeld s.hoard.streams[t] lc then refuse stOvertaken s
  else
    let parts := streams.map fun t =>
      (t, if op = 1 then seqAtLc s.hoard.streams[t] lc else s.hoard.streams[t].nextSeq)
    .done stOk (markReply parts) (s.setMark id (some
      { parts := parts.map fun p => (p.1.val, p.2, true), guardMib := if prot then some guard else none, risked := [] }))

def markSetSpec : CmdSpec :=
  { code := 0x0903, access := fun c _ _ => accOp c, mode := modeAll, length := fun ws => ws.length == 5,
    body := markSetBody }

def execMarkSet (p : Packet) (s : State) : Out := serve markSetSpec p s

/-- A cursor moved back to a sequence; a resend in progress is abandoned (R344). -/
def rewindCursor (q : BitVec 48) (c : Cursor) : Cursor :=
  { c with acked := q - 1, nextSend := q, sentEnd := q, sentAt := [], past := [], consecutive := 0 }

/-- The streams a REWIND names: the mask's, or with 0 every one that the mark and the subscription hold (R351). -/
def rewindNames (lo hi : Word) (u : Sub) (m : Option Mark) : List (Fin 54) :=
  let named := maskStreams lo hi
  if named.isEmpty then
    (List.finRange 54).filter fun t => (u.cursor t.val).isSome && (m.map fun m => (m.part t.val).isSome).getD true
  else named

/-- REWIND (R344, R351). A mark that is not set, or lacks a named stream, is a bad parameter (log entry 30). -/
def rewindBody (_ : Ctx) (ws : List Word) (s : State) : Res :=
  let w0 := pw ws 0
  let id : Fin 64 := ⟨bits w0 5 0, Nat.mod_lt _ (by decide)⟩
  let mk : Fin 256 := ⟨bits w0 13 6, Nat.mod_lt _ (by decide)⟩
  let oldest := bit w0 14
  let m := if oldest then none else s.hoard.marks[mk]
  if !resv w0 31 15 || !resv (pw ws 2) 31 22 then refuse stBadParam s
  else match s.hoard.subs[id] with
    | none => refuse stBadParam s
    | some u =>
      let names := rewindNames (pw ws 1) (pw ws 2) u m
      let part := fun (t : Fin 54) => m.bind fun m => m.part t.val
      if names.any (fun t => (u.cursor t.val).isNone) || (!oldest && (m.isNone || names.any fun t => (part t).isNone)) then
        refuse stBadParam s
      else if !oldest && names.any (fun (t : Fin 54) => (part t).any fun p => !p.2) then
        .done stOvertaken (w32 (u.run.toNat + fld 8 6 names.length) ::
          names.flatMap fun t => seqPair t (s.hoard.streams[t]).oldest) s
      else
        let target := fun (t : Fin 54) =>
          if oldest then (s.hoard.streams[t]).oldest else ((part t).map (·.1)).getD 0
        let u1 := { u with run := u.run + 1, cursors := u.cursors.map fun c => { c with runSent := none } }
        let u2 := names.foldl (fun u t => u.modCursor t.val (rewindCursor (target t))) u1
        .done stOk (w32 (u2.run.toNat + fld 8 6 names.length) :: names.flatMap fun t => seqPair t (target t))
          (s.setSub id (some u2))

def rewindSpec : CmdSpec :=
  { code := 0x0904, access := fun c _ _ => accOp c, mode := modeAll, length := fun ws => ws.length == 3,
    body := rewindBody }

def execRewind (p : Packet) (s : State) : Out := serve rewindSpec p s

/-! HOARD_STATUS. -/

/-- OLDEST_LC: with nothing held the spec states no value, so it is free (R352; log entry 2). -/
def oldestLc (t : Stream) (s : State) : List Word × State :=
  match t.held.head? with
  | some r => (words64 r.lc.toNat, s)
  | none =>
    let a := s.drawWord
    let b := a.2.drawWord
    ([a.1, b.1], b.2)

/-- The cursor words of HOARD_STATUS (R352). -/
def cursorWords (u : Sub) (c : Cursor) (s : State) : List Word :=
  let state := if s.sup.mode = .safeCore then 3 else if c.suspended then 2 else 1
  [w32 (fld 0 2 state + fld 2 8 u.run.toNat)] ++ seqWords c.acked 0 ++ seqWords c.nextSend 0 ++ [c.resends, c.skips]

/-- HOARD_STATUS (R352). -/
def hoardStatusBody (_ : Ctx) (ws : List Word) (s : State) : Res :=
  let w := pw ws 0
  let id : Fin 64 := ⟨bits w 14 9, Nat.mod_lt _ (by decide)⟩
  if !resv w 31 15 then refuse stBadParam s
  else match finOf 54 (bits w 7 0) with
    | none => refuse stBadParam s
    | some t =>
      let st := s.hoard.streams[t]
      let o := oldestLc st s
      let ring := [w32 st.sizeMib.toNat] ++ seqWords st.oldest 0 ++ seqWords st.nextSeq 0 ++ o.1 ++ [st.overwrites]
      if !bit w 8 then .done stOk ring o.2
      else match (s.hoard.subs[id]).bind fun u => (u.cursor t.val).map fun c => (u, c) with
        | none => refuse stBadParam s
        | some (u, c) => .done stOk (ring ++ cursorWords u c s) o.2

def hoardStatusSpec : CmdSpec :=
  { code := 0x0905, access := fun c _ _ => accAny c, mode := modeAll, length := fun ws => ws.length == 1,
    body := hoardStatusBody }

def execHoardStatus (p : Packet) (s : State) : Out := serve hoardStatusSpec p s

/-! QUEUE_CONFIG. -/

/-- A stream produces records (R331; log entry 32). -/
def State.produces (s : State) (t : Fin 54) : Bool :=
  (s.hoard.streams[t].openRec).isSome ||
  (match finOf 48 t.val with
    | some k => (s.setts[k]).run
    | none =>
      (t.val == 48 && (List.finRange 64).any fun p => (s.prj p).enabled) ||
      (t.val == 49 && (s.red.accCh.any (fun a => a.enable && a.emit) || s.red.accPrj.any (fun a => a.enable && a.emit) ||
        s.red.accRaw.any fun a => a.enable && a.emit)) ||
      (t.val == 50 && (s.tdc.inputs.any (·.stampEn) || s.tdc.units.any (·.enable))) ||
      (t.val == 51 && s.hoard.taps.any (·.isSome)))

/-- An open subscription names the stream (R331). -/
def State.subscribed (s : State) (t : Fin 54) : Bool :=
  s.hoard.subs.any fun u => u.any fun u => (u.cursor t.val).isSome

/-- Space taken when one ring and the spill region have given sizes, in MiB (R329). -/
def spaceMib (s : State) (ring : Option (Fin 54 × Nat)) (spill : Nat) : Nat :=
  16 + spill + ((List.finRange 54).map fun t =>
    match ring with
    | some (r, n) => if r = t then n else s.hoard.streams[t].sizeMib.toNat
    | none => s.hoard.streams[t].sizeMib.toNat).sum

/-- A ring resized: its contents go and every mark on its stream becomes invalid (R331). -/
def resizeRing (t : Fin 54) (mib : BitVec 12) (s : State) : State :=
  (s.modStream t fun x => { x with sizeMib := mib, ring := [] }).modHoard fun h =>
    { h with marks := h.marks.map fun m => m.map fun m =>
        { m with parts := m.parts.map fun p => if p.1 = t.val then (p.1, p.2.1, false) else p } }

def queueReply (q : Fin 76) (s : State) : Res :=
  let u := s.hoard.queues[q]
  .done stOk [queueSettings u,
    w32 (fld 0 19 u.level + flag 19 u.hiLatch + flag 20 u.loLatch + fld 21 8 u.hiCount.toNat), w32 u.loCount.toNat,
    u.ecc, 0] s

/-- WM_ACK clears both latches and both counts (R326). -/
def ackWatermark (u : Queue) : Queue :=
  { u with hiLatch := false, loLatch := false, hiCount := 0, loCount := 0, outstanding := false }

/-- QUEUE_CONFIG of a queue (R326, R327, R353). -/
def configQueue (q : Fin 76) (w0 w1 : Word) (s : State) : Res :=
  let tail := bits w1 27 12
  if !resv w1 31 28 || bit w0 9 && (bits w1 5 0 == 0 || decide (bits w1 5 0 ≤ bits w1 11 6) ||
      (tail != 0 && decide (tail < 10)) || (tail == 0 && (q.val == 56 || q.val == 57))) then refuse stBadParam s
  else
    let s1 := if bit w0 9 then s.modQueue q fun u =>
        { u with hwm := w1.extractLsb' 0 6, lwm := w1.extractLsb' 6 6, tailUs := w1.extractLsb' 12 16 } else s
    queueReply q (if bit w0 10 then s1.modQueue q ackWatermark else s1)

/-- A ring's settings as QUEUE_CONFIG word 1 (R353). -/
def ringReply (t : Fin 54) (s : State) : Res :=
  let st := s.hoard.streams[t]
  .done stOk [w32 (fld 0 12 st.sizeMib.toNat + fld 12 6 st.recMax.toNat),
    w32 (fld 0 19 ((st.held.map Record.units).sum / 16384)), 0, 0, 0] s

/-- RECORD_MAX below what the stream's coder needs is refused (R367). -/
def recMaxOk (t : Fin 54) (n : Nat) (s : State) : Bool :=
  2 ≤ n && n ≤ 62 &&
  (match finOf 48 t.val with
    | some k => !(s.coders[k]).enable || decide (coderFloor (s.coders[k]).ratio.toNat ≤ n)
    | none => true)

/-- QUEUE_CONFIG of a ring (R329, R331, R353). -/
def configRing (t : Fin 54) (w0 w1 : Word) (s : State) : Res :=
  let size := bits w1 11 0
  let changes := size != s.hoard.streams[t].sizeMib.toNat
  if bit w0 10 || !resv w1 31 18 then refuse stBadParam s
  else if !bit w0 9 then ringReply t s
  else if decide (4064 < size) || (size == 0 && decide (48 ≤ t.val)) || !recMaxOk t (bits w1 17 12) s ||
      decide (4096 < spaceMib s (some (t, size)) s.hoard.spillMib.toNat) then refuse stBadParam s
  else if changes && (s.produces t || s.subscribed t) then refuse stBusy s
  else
    let s1 := if changes then resizeRing t (BitVec.ofNat 12 size) s else s
    ringReply t (s1.modStream t fun x => { x with recMax := w1.extractLsb' 12 6 })

def spillReply (s : State) : Res :=
  .done stOk [w32 (fld 0 11 s.hoard.spillMib.toNat + fld 11 16 s.hoard.spillAge.toNat),
    w32 (fld 0 19 (s.spillBytes / 1048576)), 0, s.hoard.spillRefused, s.hoard.spillAged] s

/-- QUEUE_CONFIG of the spill region (R353). -/
def configSpill (w0 w1 : Word) (s : State) : Res :=
  let size := bits w1 10 0
  let age := bits w1 26 11
  if bit w0 10 || bits w0 6 0 != 0 || !resv w1 31 27 then refuse stBadParam s
  else if !bit w0 9 then spillReply s
  else if decide (size < 64) || decide (1024 < size) || age == 0 || decide (1000 < age) ||
      decide (4096 < spaceMib s none size) then refuse stBadParam s
  else if !s.hoard.spilled.isEmpty then refuse stBusy s
  else spillReply (s.modHoard fun h => { h with spillMib := BitVec.ofNat 11 size, spillAge := BitVec.ofNat 16 age })

/-- QUEUE_CONFIG (R353). -/
def queueConfigBody (_ : Ctx) (ws : List Word) (s : State) : Res :=
  let w0 := pw ws 0
  let tgt := bits w0 6 0
  if !resv w0 31 11 then refuse stBadParam s
  else match bits w0 8 7 with
    | 0 => match finOf 76 tgt with
      | some q => configQueue q w0 (pw ws 1) s
      | none => refuse stBadParam s
    | 1 => match finOf 54 tgt with
      | some t => configRing t w0 (pw ws 1) s
      | none => refuse stBadParam s
    | 2 => configSpill w0 (pw ws 1) s
    | _ => refuse stBadParam s

def queueConfigSpec : CmdSpec :=
  { code := 0x0906,
    access := fun c ws _ => if bit (pw ws 0) 9 then accEng c else if bit (pw ws 0) 10 then accOp c else accAny c,
    mode := modeAll, length := fun ws => ws.length == 2, body := queueConfigBody }

def execQueueConfig (p : Packet) (s : State) : Out := serve queueConfigSpec p s

/-! Time and sending. -/

/-- TAIL_TIMEOUT: the reader takes what is present and closes a short record; a coder flushes first (R327, R369). -/
def execTailTimeout (stream : Fin 54) (s : State) : Out :=
  let us := s.hoard.queues[ingress stream].tailUs.toNat
  let staged := match finOf 48 stream.val with
    | some k => !(s.coders[k]).staging.isEmpty
    | none => false
  guardNext (((s.hoard.streams[stream].openRec).isSome || staged) && us != 0) s <|
    endRecord stream (atLc (s.hoard.streams[stream].tailAt + us * 1000) s)

/-- The delivery word (R318). -/
def deliveryWord (id : Nat) (resend skip : Bool) (run : Byte) (replay : Bool) : Word :=
  w32 (fld 0 6 id + flag 6 resend + flag 7 skip + fld 8 8 run.toNat + flag 16 replay)

/-- The sequence was sent before in the current run (R336). -/
def sentInRun (c : Cursor) (q : BitVec 48) : Bool :=
  match c.runSent with
  | some (a, b) => !seqOlder q a && !seqOlder b q
  | none => false

/-- The range sent in a run with one more record. -/
def widenRun (q : BitVec 48) : Option (BitVec 48 × BitVec 48) → Option (BitVec 48 × BitVec 48)
  | some (a, b) => some (if seqOlder q a then q else a, if seqOlder b q then q else b)
  | none => some (q, q)

/-- A cursor after its next record has been taken: sent at an LC, or passed over. -/
def takeRecord (q : BitVec 48) (sent : Option Nat) (c : Cursor) : Cursor :=
  let c1 := { c with nextSend := q + 1, sentEnd := if seqOlder c.sentEnd (q + 1) then q + 1 else c.sentEnd }
  match sent with
  | some lc => { c1 with skip := false, runSent := widenRun q c.runSent,
                         sentAt := (c.sentAt.filter fun p => p.1 != q) ++ [(q, lc)] }
  | none => { c1 with skip := true }

/-- MAX_RESENDS consecutive resends have been made: the cursor is suspended (R337; log entry 31). -/
def maybeSuspend (id : Fin 64) (t : Fin 54) (s : State) : State :=
  match (s.hoard.subs[id]).bind fun u => (u.cursor t.val).map fun c => (u, c) with
  | none => s
  | some (u, c) =>
    if u.maxResends.toNat ≤ c.consecutive && c.nextSend == c.sentEnd && !c.suspended then
      raiseSuspended (s.setSub id (some (u.modCursor t.val fun c => { c with suspended := true }))) id.val t.val (c.acked + 1)
    else s

/-- The frame of a record for a subscription (R318, R334, R406): SAMPLE for the newest record, else REPLAY. -/
def recordFrame (s : State) (id : Fin 64) (u : Sub) (c : Cursor) (r : Record) (replay : Bool) : Frame :=
  mkFrame s (if replay then 4 else 3) 0x01 false false (if u.uplink then s.fab.hubId else u.dest)
    (if u.uplink then some (u.dest.setWidth 4) else none)
    (deliveryWord id.val (sentInRun c r.seq) c.skip u.run replay :: r.words)

/-- The record a cursor may send: held by the ring, or with a ring of size 0 the newest one, once (R329). -/
def sendable (st : Stream) (c : Cursor) : Option Record :=
  (st.ring.find? fun r => r.seq == c.nextSend).bind fun r =>
    if st.sizeMib = 0 && seqOlder c.nextSend c.sentEnd then none else some r

/-- LC bounds of a record that cannot be read, from its neighbours (R332); with none held they are free (log entry 2). -/
def neighbourBounds (st : Stream) (q : BitVec 48) (s : State) : Nat × Nat × State :=
  let before := (st.ring.find? fun r => r.seq == q - 1).map fun r => r.lastLc.toNat
  let after := (st.ring.find? fun r => r.seq == q + 1).map fun r => r.lc.toNat
  match before, after with
  | some a, some b => (a, b, s)
  | some a, none => (a, a, s)
  | none, some b => (b, b, s)
  | none, none =>
    let d := s.drawWord
    (d.1.toNat, d.1.toNat, d.2)

/-- A record that fails its check is not sent: it is declared and the next one carries SKIP (R332, R318). -/
def passUnreadable (id : Fin 64) (t : Fin 54) (u : Sub) (q : BitVec 48) (s : State) : State :=
  let (a, b, s1) := neighbourBounds s.hoard.streams[t] q s
  raise (s1.setSub id (some (u.modCursor t.val (takeRecord q none)))) 0x0100 (gapBody t.val (some id.val) 5 q q a b)

/-- Records that a cursor can no longer send are declared, down to `oldest` (R329, R338). -/
def declareLost (id : Fin 64) (t : Fin 54) (u : Sub) (oldest : BitVec 48) (s : State) : State :=
  let r := overrunCursors id.val t.val (recordBounds s.hoard.streams[t].ring) oldest u.cursors
  pushAll pushLimit r.2 (s.setSub id (some { u with cursors := r.1 }))

/-- The oldest sequence a cursor can still be sent (R329, R330). -/
def sendOldest (st : Stream) (c : Cursor) : BitVec 48 :=
  if st.sizeMib = 0 then
    match st.ring.head? with
    | some r => if seqOlder r.seq c.sentEnd then st.nextSeq else r.seq
    | none => st.nextSeq
  else st.oldest

/-- A subscription still has the GAP entries of a return from Safe-Core to send before its other streams (R339). -/
def Sub.gapsFirst (u : Sub) : Bool :=
  match u.hold, u.cursor 53 with
  | some q, some c => !c.suspended && !seqOlder q c.nextSend
  | _, _ => false

/-- What is held back is free once those GAP entries have been sent. -/
def Sub.settleHold (u : Sub) : Sub := { u with hold := if u.gapsFirst then u.hold else none }

/-- The record that was sent longest ago in the order of its stream, and when: what ACK_TIMEOUT watches (R336). -/
def Cursor.oldestSent (c : Cursor) : Option (BitVec 48 × Nat) :=
  c.sentAt.foldl (fun m p => match m with
    | some q => some (if seqOlder p.1 q.1 then p else q)
    | none => some p) none

/-- A record read for a send of the REPLAY class passes RPQ (R324, R326). -/
def passReplay (replay : Bool) (r : Record) (s : State) : State × Bool :=
  if replay then
    let p := passQueue replayQueue (4 * r.words.length) s
    (pushAll pushLimit p.2.2 p.1, p.2.1.isEmpty)
  else (s, true)

/-- A subscription may send now (R337, R339, R448). -/
def State.delivers (s : State) : Bool := s.served && s.sup.mode != .safeCore

/-- SUB_SEND: the next record of one stream of a subscription, when the window and the local reservation have room (R334, R408). `readOk` says that the
record passes its checks when read (R332). -/
def execSubSend (sub : Fin 64) (stream : Fin 54) (readOk : Bool) (s : State) : Out :=
  .next <|
    match (s.hoard.subs[sub]).bind fun u => (u.cursor stream.val).map fun c => (u, c) with
    | none => s
    | some (u, c) =>
      let st := s.hoard.streams[stream]
      if !s.delivers || c.suspended || (stream != 53 && u.gapsFirst) ||
          decide (u.window.toNat ≤ (c.nextSend - c.acked - 1).toNat) then s
      else match sendable st c with
        | some r =>
          if !readOk then maybeSuspend sub stream (passUnreadable sub stream u r.seq s)
          else
            let replay := r.seq + 1 != st.nextSeq
            let f := recordFrame s sub u c r replay
            if localReserve f.clsFin < s.localBytes f.clsFin + f.bytes then s
            else
              let p := passReplay replay r s
              if !p.2 then maybeSuspend sub stream (passUnreadable sub stream u r.seq p.1)
              else
                let s1 := p.1.setSub sub (some (u.modCursor stream.val (takeRecord r.seq (some s.lcN))).settleHold)
                maybeSuspend sub stream (sendFrame f s1)
        | none =>
          if seqOlder c.nextSend (sendOldest st c) then declareLost sub stream u (sendOldest st c) s else s

/-- ACK_TIMEOUT_RESEND: NEXT_SEND returns to ACKED + 1 when the oldest unacknowledged record has waited ACK_TIMEOUT
(R336, R337). -/
def execAckTimeoutResend (sub : Fin 64) (stream : Fin 54) (s : State) : Out :=
  .next <|
    match (s.hoard.subs[sub]).bind fun u => (u.cursor stream.val).map fun c => (u, c) with
    | none => s
    | some (u, c) =>
      match c.oldestSent with
      | none => s
      | some (q, t) =>
        if !s.delivers || c.suspended then s
        else
          let s1 := atLc (t + u.ackUs.toNat * 1000) s
          s1.setSub sub (some (u.modCursor stream.val fun c =>
            { c with nextSend := c.acked + 1, consecutive := c.consecutive + 1, resends := satInc c.resends,
                     sentAt := c.sentAt.map fun p => if p.1 = q then (p.1, s1.lcN) else p }))

/-- SPILL_AGE_EXPIRY: the oldest spilled frame of a port and class is discarded at SPILL_AGE_MS (R346). -/
def execSpillAgeExpiry (port : Port) (replay : Bool) (s : State) : Out :=
  .next <|
    match s.hoard.spilled.find? fun x => x.port == port && x.replay == replay with
    | none => s
    | some x =>
      (atLc (x.since + s.hoard.spillAge.toNat * 1000000) s).modHoard fun h =>
        { h with spilled := h.spilled.erase x, spillAged := satInc h.spillAged }

end Sys2Proof.Machine
end

