-- ==== Sys2Proof/Machine/QuadCmd.lean ====
section
/-! DEFINITION. The commands of the quadrature pairs, QUAD_CONFIG and QUAD_STATUS (R279, R292, R294 to R296). -/

namespace Sys2Proof.Machine

def quadReply (q : Fin 24) (s : State) : Res :=
  let x := s.quad[q]
  .done stOk [w32 (flag 6 x.enable + flag 7 x.adapt + flag 8 x.invert + flag 9 x.refRequired + fld 12 4 x.winLog2.toNat +
    fld 16 8 x.pairBase.toNat)] s

/-- The refusals of R279 for a pair base. -/
def quadEnableOk (q : Fin 24) (base : Nat) (s : State) : Bool :=
  match chanAt (2 * base), chanAt (2 * base + 1) with
  | some x, some y =>
    (s.chans[x]).enable && (s.chans[y]).enable && (s.chans[x]).scale == (s.chans[y]).scale &&
    !((List.finRange 24).any fun r => r != q && (s.quad[r]).enable && (s.quad[r]).pairBase.toNat == base)
  | _, _ => false

/-- The slot's settings as words 0 and 1 give them. Intervals are counted on LC from the enable at the new ADJ_MS too, and without
ADAPT, or with another WIN_LOG2, the window under way ends unevaluated (R283, R285, R286, R295). -/
def setSlot (w0 w1 : Word) (fresh : Bool) (lc : Nat) (x : Slot) : Slot :=
  { x with enable := bit w0 6, adapt := bit w0 7, invert := bit w0 8, refRequired := bit w0 9
           winLog2 := w0.extractLsb' 12 4, pairBase := w0.extractLsb' 16 8, adjMs := w0.extractLsb' 24 8
           minSpeed := w1.extractLsb' 0 16, radMin := w1.extractLsb' 16 8
           freeze := if !bit w0 7 then 7 else if x.freeze = 7 then 0 else x.freeze
           enableLc := if fresh then lc else x.enableLc
           intervals := if fresh then 0 else if w0.extractLsb' 24 8 = x.adjMs then x.intervals
             else (lc - x.enableLc) / adjNs (w0.extractLsb' 24 8)
           win := if bit w0 7 && w0.extractLsb' 12 4 == x.winLog2 then x.win else QuadWin.empty }

/-- The fields of an accepted write (R292, R295). -/
def applyQuad (q : Fin 24) (ws : List Word) (s : State) : State :=
  let w0 := pw ws 0
  let x := s.quad[q]
  let fresh := bit w0 6 && (!x.enable || x.pairBase.toNat != bits w0 23 16)
  let s1 := s.modSlot q (setSlot w0 (pw ws 1) fresh s.lcN)
  let s2 := if fresh then s1.modSlot q restartPos else s1
  let s3 := if bit w0 10 then s2.modSlot q fun x => { x with posSet := some (pw ws 3 ++ pw ws 2), posLost := false } else s2
  if bit w0 11 then
    let c : QuadCoef := { ox := pw ws 4, oy := pw ws 5, k := pw ws 6, phi := pw ws 7 }
    (takeCoef q c s3).modSlot q fun x => { x with stored := some c }
  else s3

/-- QUAD_CONFIG (R279, R294, R295). Another pair may have other arrival bounds (R301, R303). -/
def quadConfigBody (_ : Ctx) (ws : List Word) (s : State) : Res :=
  let w0 := pw ws 0
  let w1 := pw ws 1
  match finOf 24 (bits w0 4 0) with
  | none => refuse stBadParam s
  | some q =>
    if !resv w1 31 24 then refuse stBadParam s
    else if !bit w0 5 then quadReply q s
    else if bits w0 15 12 < 10 || 191 < bits w0 23 16 || bits w1 15 0 = 0 || bits w1 23 16 = 0 || 0xF3 < bits w1 23 16 ||
        (bit w0 6 && !quadEnableOk q (bits w0 23 16) s) then refuse stBadParam s
    else if s.safeLocked (fun b => b.namesSlot q.val) then refuse stSafeLocked s
    else quadReply q (judgeBounds (applyQuad q ws s))

def quadConfigSpec : CmdSpec :=
  { code := 0x0810, access := fun c ws _ => if bit (pw ws 0) 5 then accEng c else accAny c, mode := modeAll
    length := fun ws => ws.length == 8, body := quadConfigBody }

def execQuadConfig (p : Packet) (s : State) : Out := serve quadConfigSpec p s

/-- Intervals until the offset and trim of one member stand at their targets. -/
def offsetIntervals (offset : Word) (trim : BitVec 10) (target : Word) (tap : Nat) : Nat :=
  let tt := (trimShare target (256 * tap)).toInt
  max (intervalsFor trim.toInt tt 1) (intervalsFor (digitalPart offset trim tap) (target.toInt - tt * (256 * tap)) (256 * tap))

/-- RAMP_LEFT of a slot (R296). -/
def Slot.rampLeft (x : Slot) (tapX tapY : Nat) : Nat :=
  max (max (offsetIntervals x.coef.ox x.trimX x.target.ox tapX) (offsetIntervals x.coef.oy x.trimY x.target.oy tapY))
    (max (intervalsFor x.coef.k.toNat x.target.k.toNat 65536) (intervalsFor x.coef.phi.toInt x.target.phi.toInt 65536))

/-- QUAD_STATUS (R296). -/
def quadStatusBody (_ : Ctx) (ws : List Word) (s : State) : Res :=
  let w := pw ws 0
  match finOf 24 (bits w 4 0) with
  | none => refuse stBadParam s
  | some q =>
    if !resv w 31 5 then refuse stBadParam s
    else
      let x := s.quad[q]
      let tx := (s.chans[x.memberX]).tap
      let ty := (s.chans[x.memberY]).tap
      .done stOk ([w32 (flag 0 x.enable + flag 1 (x.freeze != 0) + fld 2 3 x.freeze.toNat + flag 5 x.qualified + flag 6 x.posLost +
          flag 7 x.signalLow + flag 8 (x.atTarget tx ty) + flag 9 x.stored.isSome), x.winOk, x.winRejected] ++
        coefWords x.coef ++ coefWords x.target ++ [w32 x.amplitude.toNat, x.phase] ++ words64 x.pos.toNat ++
        [w32 (min 0xFFFF (x.rampLeft tx ty))]) s

def quadStatusSpec : CmdSpec :=
  { code := 0x0811, access := fun c _ _ => accAny c, mode := modeAll, length := fun ws => ws.length == 1
    body := quadStatusBody }

def execQuadStatus (p : Packet) (s : State) : Out := serve quadStatusSpec p s

end Sys2Proof.Machine
end

