-- ==== Sys2Proof/Machine/Image.lean ====
section
/-! DEFINITION. Images of sections: how a boot configuration, a checkpoint or a delta is read, how its sections are applied as the
hub's own state, and SYS_CONFIG_READ (R97 to R100, R162, R292, R498, R540, R541, R546; log entry 50). -/

namespace Sys2Proof.Machine

/-! Images (R97, R540). -/

/-- A section as it is found in an image: TYPE and words. -/
abbrev Sec := Nat × List Word

/-- One directory entry and its section's place: TYPE, offset and length in words, CRC. -/
def dirEntries : Nat → Nat → List Word → List (Nat × Nat × Nat × Word)
  | 0, _, _ => []
  | n + 1, at_, ws =>
    let a := pw ws 0
    (bits a 7 0, at_, bits a 31 8 / 4, pw ws 1) :: dirEntries n (at_ + bits a 31 8 / 4) (ws.drop 2)

/-- The sections of an image whose body begins after a 16-word header: none where a length or a CRC does not check. -/
def readSections (n : Nat) (ws : List Word) : Option (List Sec) :=
  let ds := dirEntries n (16 + 2 * n) (ws.drop 16)
  let whole := (List.range n).all fun k => bits (pw ws (16 + 2 * k)) 9 8 == 0
  let ss := ds.map fun d => (d.1, (ws.drop d.2.1).take d.2.2.1)
  if whole && (ds.zip ss).all (fun x => x.2.2.length == x.1.2.2.1 && crcWords x.2.2 == x.1.2.2.2) then some ss else none

/-- Directory and sections laid out (R97, R540). -/
def bodyWords (ss : List Sec) : List Word :=
  (ss.flatMap fun x => [w32 (fld 0 8 x.1 + fld 8 24 (4 * x.2.length)), crcWords x.2]) ++ ss.flatMap (·.2)

/-- Types that rise strictly. -/
def rising (ss : List Sec) : Bool := decide ((ss.map (·.1)).Pairwise (· < ·))

/-- MAGIC of a boot configuration. -/
def bootMagic : Word := 0x4342484E

/-- The sections that a boot configuration may hold, with 0x01 and 0x02 required (R98). -/
def bootTypes (ss : List Sec) : Bool :=
  let ts := ss.map (·.1)
  ts.contains 1 && ts.contains 2 &&
  ts.all fun t => [0x01, 0x02, 0x04, 0x05, 0x06, 0x07, 0x08, 0x10, 0x11, 0x13, 0x14, 0x15, 0x16, 0x17].contains t

/-- Section 0x01 of a boot configuration holds the words of two commands, and its plan image at most 65,600 bytes (R98). -/
def bootLengths (ss : List Sec) : Bool := ss.all fun x => (x.1 != 0x01 || x.2.length == 4) && (x.1 != 0x08 || decide (4 * x.2.length ≤ 65600))

/-- A copy of the boot configuration whose header, CRCs and directory check: its GEN and sections (R97). -/
def readBoot (bytes : List Byte) : Option (Word × List Sec) :=
  let ws := wordsOfBytes bytes
  let total := bits (pw ws 4) 20 0
  let img := ws.take (total / 4)
  let ok := pw ws 0 == bootMagic && bits (pw ws 1) 15 8 == 1 && resv (pw ws 1) 31 16 && resv (pw ws 3) 31 5 && resv (pw ws 4) 31 21 &&
    ((List.range 9).all fun k => pw ws (5 + k) == 0) && total % 4 == 0 && decide (64 ≤ total) && decide (total ≤ 1048576) &&
    img.length == total / 4 && bits (pw ws 3) 4 0 != 0 && crcWords (ws.take 15) == pw ws 15 && crcWords (img.drop 16) == pw ws 14
  if !ok then none
  else match readSections (bits (pw ws 3) 4 0) img with
    | some ss => if rising ss && bootTypes ss && bootLengths ss && img.length == 16 + (bodyWords ss).length then some (pw ws 2, ss) else none
    | none => none

/-- A boot configuration image of a GEN (R97, R100). -/
def buildBoot (gen : Word) (ss : List Sec) : List Word :=
  let body := bodyWords ss
  let head := [bootMagic, 0x100, gen, w32 ss.length, w32 (64 + 4 * body.length)] ++ List.replicate 9 0 ++ [crcWords body]
  head ++ [crcWords head] ++ body

/-! Sections made of commands. -/

/-- A command of a section with its parameter words. -/
abbrev SecCmd := CmdSpec × List Word

/-- Commands of one length, one after the other; none where words are left over. -/
def evenCommands (sp : CmdSpec) (n : Nat) : Nat → List Word → Option (List SecCmd)
  | _, [] => some []
  | 0, _ :: _ => none
  | k + 1, ws => if ws.length < n then none else (evenCommands sp n k (ws.drop n)).map fun t => (sp, ws.take n) :: t

/-- The commands of a fixed list of forms; the words that are left. -/
def formCommands : List (CmdSpec × Nat) → List Word → List SecCmd
  | [], _ => []
  | (sp, n) :: t, ws => (sp, ws.take n) :: formCommands t (ws.drop n)

/-- The forms of one sett in section 0x02 (R541). -/
def settForms : List (CmdSpec × Nat) :=
  List.replicate 8 (afeConfigSpec, 2) ++ List.replicate 8 (afeRangeSpec, 1) ++
  [(excConfigSpec, 2), (convModeSpec, 1), (fltPresetSpec, 1), (growthSpec, 2), (coderConfigSpec, 1), (delayTapSpec, 2)]

def formsLength (l : List (CmdSpec × Nat)) : Nat := (l.map (·.2)).sum

/-- A list of forms repeated n times over words that fit it exactly. -/
def fixedCommands (forms : List (CmdSpec × Nat)) (ws : List Word) : Option (List SecCmd) :=
  if ws.length = formsLength forms then some (formCommands forms ws) else none

/-- FAB_ROUTE up to that of the last port, then ETH_CONFIG. -/
def routeCommands : Nat → Nat → List Word → Option (List SecCmd)
  | _, _, [] => some []
  | 0, _, _ :: _ => none
  | k + 1, ports, ws =>
    if 32 ≤ ports then (if ws.length < 5 then none else (routeCommands k ports (ws.drop 5)).map fun t => (ethConfigSpec, ws.take 5) :: t)
    else if ws.length < 3 then none
    else (routeCommands k (ports + b2n (bit (pw ws 0) 11)) (ws.drop 3)).map fun t => (fabRouteSpec, ws.take 3) :: t

/-- A number of commands whose length their first word gives; the words that are left. -/
def countedCommands (sp : CmdSpec) (len : Word → Nat) : Nat → List Word → List SecCmd × List Word
  | 0, ws => ([], ws)
  | n + 1, ws =>
    let k := len (pw ws 0)
    let r := countedCommands sp len n (ws.drop k)
    ((sp, ws.take k) :: r.1, r.2)

/-- PRJ_DEFINE of each projection, the mask, then ACC_CONFIG. -/
def prjCommands (ws : List Word) : Option (List SecCmd) :=
  let n := (pw ws 0).toNat
  if 64 < n then none
  else
    let r := countedCommands prjDefineSpec (fun w => 8 + 2 * bits w 12 7) n (ws.drop 1)
    if r.2.length < 3 then none
    else (evenCommands accConfigSpec 1 r.2.length (r.2.drop 3)).map fun t =>
      r.1 ++ (if nat64 (pw r.2 0) (pw r.2 1) = 0 then [] else [(prjEnableSpec, r.2.take 3)]) ++ t

/-- FLT_COEF_LOAD, TDC_CONFIG of each input, then TDC_WINDOW. -/
def tableAndTdc (ws : List Word) : Option (List SecCmd) :=
  let n := (pw ws 0).toNat
  if 512 < n then none
  else
    let r := countedCommands coefLoadSpec (fun w => 4 + bits w 24 17) n (ws.drop 1)
    if r.2.length < 48 then none
    else (evenCommands tdcWindowSpec 3 8 (r.2.drop 48)).map fun t =>
      r.1 ++ formCommands (List.replicate 16 (tdcConfigSpec, 3)) r.2 ++ t

/-- The commands of a section; none where its words do not fit its layout. -/
def sectionCommands (type : Nat) (ws : List Word) : Option (List SecCmd) :=
  match type with
  | 0x01 => if ws.length = 4 ∨ ws.length = 9 then some (formCommands [(fabJoinSpec, 2), (pairConfigSpec, 2)] ws) else none
  | 0x02 => fixedCommands (List.replicate 48 settForms).flatten (ws.take (ws.length - 2))
  | 0x04 => evenCommands quadConfigSpec 8 24 ws
  | 0x05 => fixedCommands (List.replicate 33 (timeServoSpec, 2) ++ [(timeRoleSpec, 4), (timeStepPolicySpec, 1)]) ws
  | 0x06 =>
    if ws.length % 6 = 0 ∧ ws.length ≤ 192 then
      some (formCommands (List.replicate (ws.length / 6) [(laneConfigSpec, 1), (laneEqSpec, 4), (laneSleepSpec, 1)]).flatten ws)
    else none
  | 0x07 => routeCommands 1400 0 ws
  | 0x11 => prjCommands ws
  | 0x15 => tableAndTdc ws
  | _ => some []

/-- Commands applied in order; those refused, for another attempt once the others are in. -/
def replayAll : List SecCmd → State → State × List SecCmd
  | [], s => (s, [])
  | (sp, ws) :: t, s =>
    match replayCmd sp ws s with
    | some s' => replayAll t s'
    | none => let r := replayAll t s; (r.1, (sp, ws) :: r.2)

/-! Sections of other layouts (R99). -/

/-- Records of a fixed size. -/
def recordsOf (n : Nat) : Nat → List Word → List (List Word)
  | 0, _ => []
  | k + 1, ws => if ws.length < n then [] else ws.take n :: recordsOf n k (ws.drop n)

/-- A coefficient set in force at once, without a ramp (R162). -/
def forceCoef (trim : BitVec 10) (offset gain : Word) (stored : Bool) (x : CoefSet) : CoefSet :=
  { trim := trim, trimT := trim, offset := offset, offsetT := offset, gain := gain, gainT := gain, stored := stored || x.stored }

/-- Section 0x03: the range in force of each channel and its targets. -/
def applyRanges (ws : List Word) (s : State) : State :=
  { s with chans := vmapI s.chans fun i x =>
      let r := (ws.drop (4 * i.val)).take 4
      let g : BitVec 3 := (pw r 0).extractLsb' 0 3
      match finOf 5 g.toNat with
      | some k => { x with range := g, coefs := vmod x.coefs k (forceCoef ((pw r 0).extractLsb' 3 10) (pw r 1) (pw r 2) false) }
      | none => x }

/-- A record of section 0x10 is one the layout allows. -/
def coefRecordOk (r : List Word) : Bool :=
  decide (bits (pw r 0) 8 0 < 384) && decide (bits (pw r 0) 11 9 < 5) && resv (pw r 0) 31 22 && pw r 3 == 0

/-- Records of section 0x10 in ascending channel and then range, none twice (R99). -/
def coefsRise (rs : List (List Word)) : Bool :=
  let key := fun (r : List Word) => 8 * bits (pw r 0) 8 0 + bits (pw r 0) 11 9
  (rs.zip (rs.drop 1)).all fun p => decide (key p.1 < key p.2)

/-- One record of section 0x10. -/
def applyCoef (s : State) (r : List Word) : State :=
  match chanAt (bits (pw r 0) 8 0), finOf 5 (bits (pw r 0) 11 9) with
  | some c, some k =>
    s.modChan c fun x => { x with coefs := vmod x.coefs k (forceCoef ((pw r 0).extractLsb' 12 10) (pw r 1) (pw r 2) true) }
  | _, _ => s

def applyCoefs (ws : List Word) (s : State) : State × Bool :=
  let rs := recordsOf 4 1920 ws
  if ws.length % 4 = 0 ∧ rs.length * 4 = ws.length ∧ rs.all coefRecordOk ∧ coefsRise rs then (rs.foldl applyCoef s, true) else (s, false)

/-- The off-pulse words of section 0x13: one for each used SO in ascending order, with WRITE set (R99). -/
def pulseWordsOk (used : BitVec 8) (ws : List Word) : Bool :=
  ws.all (fun w => bit w 3) &&
  (ws.map fun w => bits w 2 0) == (List.range 8).filter fun n => used.getLsbD n

/-- Section 0x13: the block, its SCV and the off-pulse settings; whether the layout is right. A block that is not good is
discarded (R99, R498). -/
def applyBlock (ws : List Word) (s : State) : State × List SecCmd × Bool :=
  let n := bits (pw ws 9) 13 0 / 4
  let blk := ws.take n
  match s.goodBlock blk with
  | some b =>
    if scvOf blk = pw ws n ∧ n < ws.length then
      (putBlock (some b) s, (ws.drop (n + 1)).map fun w => (safePulseSpec, [w]), pulseWordsOk b.soUsed (ws.drop (n + 1)))
    else (s.modOwl fun o => { o with scvBad := true }, [], true)
  | none => (s.modOwl fun o => { o with scvBad := true }, [], true)

/-- A slot of section 0x14: without its key it is empty, whatever roles and fingerprint an image read from the hub left there; a fingerprint that does not match its key is an error (R99, R100). -/
def slotOf (r : List Word) (k : KeySlot) : Option KeySlot :=
  let key := bytesOfWords ((r.drop 1).take 8)
  if key.all (· == 0) then (if resv (pw r 0) 31 4 ∧ pw r 11 = 0 then some { k with key := none, roles := 0 } else none)
  else
    let x := { k with key := some key, roles := (pw r 0).extractLsb' 0 4 }
    if fingerprint x = (r.drop 9).take 2 ∧ resv (pw r 0) 31 4 ∧ pw r 11 = 0 then some x else none

def applySlots (ws : List Word) (s : State) : State × Bool :=
  let v := vmapI s.prot.slots fun i k => slotOf ((ws.drop (12 * i.val)).take 12) k
  let cfg := pw ws 96
  if ws.length = 97 ∧ v.all Option.isSome ∧ resv cfg 15 1 then
    (s.modProt fun p => { p with slots := v.map fun k => k.getD KeySlot.reset, cfg := cfg }, true)
  else (s, false)

/-- The retirement map at the end of section 0x16 (R99, R556). -/
def applyRetired (ws : List Word) (s : State) : State :=
  let m := (ws.drop (ws.length - 15))
  let ch := leNat (bytesOfWords (m.take 12))
  let st := nat64 (pw m 12) (pw m 13)
  let dn := pw m 14
  { s with
    chans := vmapI s.chans fun i x => { x with retired := ch.testBit i.val }
    setts := vmapI s.setts fun i x => { x with isolated := st.testBit i.val }
    dens := vmapI s.dens fun i x => { x with isolated := x.isolated || dn.getLsbD i.val } }

/-- The daily values of a margin. -/
def readDaily (ws : List Word) : List Rat :=
  (recordsOf 3 30 ws).map fun r => ((signedOf 64 (nat64 (pw r 0) (pw r 1)) : Rat) / ((max 1 (pw r 2).toNat : Nat) : Rat))

/-- One margin of section 0x16, and the words after it. -/
def readMargin (ws : List Word) : Margin × List Word :=
  let f := pw ws 2
  let n := bits f 11 7
  ({ threshold := (pw ws 0).toInt, limit := (pw ws 1).toInt, actEn := bit f 0, recentred := bit f 1, nextAt := 0, steps := bits f 6 2
     dailyCount := bits f 27 12, samples := (pw ws 3).toNat, sum := signedOf 64 (nat64 (pw ws 4) (pw ws 5))
     daily := readDaily ((ws.drop 6).take (3 * n)) }, ws.drop (6 + 3 * n))

def readMargins : Nat → List Word → List Margin
  | 0, _ => []
  | n + 1, ws => let r := readMargin ws; r.1 :: readMargins n r.2

/-- The margin plan of section 0x16, in the layout of `section16`. -/
def applyMargins (ws : List Word) (s : State) : State :=
  let f := pw ws 2
  let ms := readMargins 24 (ws.drop 6)
  let tunes := nat64 (pw ws 4) (pw ws 5)
  let s1 := s.modHealth fun h =>
    { h with
      poweredH := pw ws 1, baseline := bit f 0, baselineH := bits f 7 1, vcoreFailed := bit f 8, presets := f.extractLsb' 9 6
      refresh := #v[f.extractLsb' 15 2, f.extractLsb' 17 2], horizon := (pw ws 3).extractLsb' 0 16
      retunes := vmapI h.retunes fun i _ => tunes / 4 ^ i.val % 4, margins := vmapI h.margins fun i x => ms.getD i.val x }
  askVcore (f.extractLsb' 19 8) s1

/-- Section 0x16: a layout that is not known leaves an empty plan, and the map is kept (R99). -/
def applyHealth (ws : List Word) (s : State) : State := applyRetired ws (if pw ws 0 = 1 then applyMargins ws s else s)

/-- Section 0x17: the fabric image is adopted at once (R98). -/
def applyFabImage (ws : List Word) (s : State) : State × Bool :=
  if imageResult ws (pw ws 2 - 1) = 1 then (s.modFab fun f => { f with image := ws }, true) else (s, false)

/-! Application (R89, R98). -/

/-- What has been applied, the commands refused so far, and whether every layout was right. -/
structure Load where
  s : State
  late : List SecCmd
  good : Bool

/-- Commands of a section are applied; those refused wait. -/
def Load.cmds (l : Load) (cs : List SecCmd) : Load :=
  let r := replayAll cs l.s
  { l with s := r.1, late := l.late ++ r.2 }

/-- The setts whose filters a configuration has running, at the end of section 0x02. -/
def runWords (ws : List Word) : BitVec 48 := BitVec.ofNat 48 (nat64 (pw ws (ws.length - 2)) (pw ws (ws.length - 1)))

/-- One section applied as the hub's own state. The plan, the sequences and the subscriptions have their own places. -/
def applySection (l : Load) (x : Sec) : Load :=
  let ws := x.2
  match x.1 with
  | 0x03 => { l with s := applyRanges ws l.s }
  | 0x08 => l
  | 0x09 => l
  | 0x12 => l
  | 0x10 => let r := applyCoefs ws l.s; { l with s := r.1, good := l.good && r.2 }
  | 0x13 => let r := applyBlock ws l.s; ({ l with s := r.1, good := l.good && r.2.2 } : Load).cmds r.2.1
  | 0x14 => let r := applySlots ws l.s; { l with s := r.1, good := l.good && r.2 }
  | 0x16 => { l with s := applyHealth ws l.s }
  | 0x17 => let r := applyFabImage ws l.s; { l with s := r.1, good := l.good && r.2 }
  | t =>
    match sectionCommands t ws with
    | none => { l with good := false }
    | some cs =>
      let l1 := l.cmds cs
      if t = 0x02 then { l1 with s := l1.s.modBoot fun b => { b with runMask := runWords ws } } else l1

/-- CONFIG_MISMATCH is judged at every start (R500). -/
def judgeMismatch (s : State) : State :=
  match s.owl.block with
  | some b => s.modOwl fun o => { o with mismatch := !s.matchesBlock b }
  | none => s

/-- The sections in ascending TYPE, then once more the commands refused before; whether all was accepted (R98). A command whose
refusal a later section lifts is not a refusal of the copy (log entry 205). -/
def applySections (ss : List Sec) (s : State) : State × Bool :=
  let l := ss.foldl applySection { s := s, late := [], good := true }
  let r := replayAll l.late l.s
  (judgeMismatch r.1, l.good && r.2.isEmpty)

/-- A section's words. -/
def findSection (ss : List Sec) (t : Nat) : Option (List Word) := (ss.find? fun x => x.1 == t).map (·.2)

/-- The plan image of section 0x08 in the shadow bank, validated; true where validation accepts it (R89, R222). -/
def loadPlan (ws : List Word) (s : State) : State × Bool :=
  let s1 := modShadow (fun b => b.write true 0 (pairWords ws)) s
  match planValidateBody (replayCtx []) [0] s1 with
  | .done st _ s2 => (s2, st == stOk)
  | _ => (s1, false)

/-! SYS_CONFIG_READ (R100). -/

/-- SYS_CONFIG_READ. A refused chunk changes nothing, so the image that a refused FIRST would have built is not kept (log entry
206). -/
def sysConfigBody (_ : Ctx) (ws : List Word) (s : State) : Res :=
  let w := pw ws 0
  let off := bits w 19 0
  let n := bits w 27 20
  let first := bit w 28
  if !resv w 31 29 || off % 4 != 0 || n = 0 || 128 < n || (!first && pw ws 1 != 0) then refuse stBadParam s
  else
    let img := if first then buildBoot (pw ws 1) (bootSections s) else s.boot.cfgImage
    if img.length < off / 4 + n then refuse stBadParam s
    else
      .done stOk (w32 (4 * img.length) :: (img.drop (off / 4)).take n) (s.modBoot fun b => { b with cfgImage := img })

def sysConfigSpec : CmdSpec :=
  { code := 0x0104, access := fun c _ _ => accAny c, mode := fun _ s => modeIf (s.sup.mode != .safeCore && s.boot.fwRuns)
    length := fun ws => ws.length == 2, body := sysConfigBody }

def execSysConfigRead (p : Packet) (s : State) : Out := serve sysConfigSpec p s

end Sys2Proof.Machine
end

