-- ==== Sys2Proof/Machine/Startup.lean ====
section
/-! DEFINITION. The start-up timeline: domains, PLLs, the hardware of step 0x4, firmware, configuration, the plan, the front ends and
the entry to Service; the watchdog of the control processor and the JTAG port (R20, R30, R57, R61, R85 to R99, R470, R573, R590,
R592). The ownership of a pair and its checkpoints are what step 0x6 needs of the chapter on pairs (R529 to R531, R540 to R548). -/

namespace Sys2Proof.Machine

/-! Where a start stands. -/

/-- A start is under way that runs steps of R87: its own, or those of a standby sync (R87, R536). -/
def State.booting (s : State) : Bool :=
  s.sup.mode == .startup && !s.sup.inReset && !s.boot.failed && (s.boot.takeStep == 0 || s.boot.takeStep == 0xE)

/-- The deferred step of a takeover, which runs the firmware, the training and the calibration too (R544). -/
def State.deferring (s : State) : Bool :=
  s.sup.mode == .startup && !s.sup.inReset && !s.boot.failed && s.boot.takeStep == 0xD

/-- The start waits for the host with a code (R93). -/
def waitStep (code : Byte) (s : State) : State := s.modBoot fun b => { b with waitHost := true, failCode := code }

/-- Step 0x6 has given up its configuration and waits (R89). -/
def waitConfig (code : Byte) (s : State) : State := waitStep code (s.modBoot fun b => { b with cfgApplied := true })

/-! Steps 0x2 to 0x4. -/

/-- DOMAINS_ON (R87). -/
def execDomainsOn (s : State) : Out :=
  guardNext (s.booting && !s.boot.domains) s (s.modBoot fun b => { b with domains := true })

/-- The clocks run: LC and TK start at 0 (R86). -/
def releaseClocks (s : State) : State :=
  (s.modSup fun u => { u with pllLocked := 0xF }).modTime fun t => { t with tclk := true, sclk := true, lc := 0, tk := 0, tkPhase := 0 }

/-- The domains that are released when a PLL has not locked: those before it in the order of R86, each with its own PLL locked.
With the sampling PLL missing the TCLK domain is released and LC runs (R83, R86; log entry 207). -/
def releaseBefore (w : StepFault) (s : State) : State :=
  let locked : BitVec 4 := match w with
    | .memoryPll => 0x4
    | .timePll => 0xC
    | .samplingPll => if s.sup.sysrefOk then 0xD else 0xC
    | _ => 0
  let s1 := s.modSup fun u => { u with pllLocked := locked }
  if locked.getLsbD 0 then s1.modTime fun t => { t with tclk := true, lc := 0 } else s1

/-- A hub that has no fabric neighbour leads itself (R231, R425). -/
def leadAlone (s : State) : State := leadTime (s.modFab fun f => { f with leads := true, leader := f.hubId })

/-- PLL_LOCK: the four PLLs lock and the domains are released; without SYSREF_CLK the time and sampling PLLs cannot (R85, R86).
The hub has met no neighbour yet, so it leads itself from LC 0 (R231, R238, R425). -/
def execPllLock (s : State) : Out :=
  guardNext (s.booting && s.boot.domains && !s.boot.plls && s.sup.sysrefOk) s
    (leadAlone (releaseClocks (s.modBoot fun b => { b with plls := true })))

/-- Step 0x5 begins, as BOOT_SRC says (R57, R88). -/
def beginFirmware (s : State) : State :=
  let s1 := s.modBoot fun b => { b with fwMem := true }
  match s.sup.straps.bootSrc.toNat with
  | 1 => waitStep 0x00 s1
  | 3 => failStart 0x22 s1
  | _ => s1

/-- SRAM_SELF_TEST_DONE: the firmware memory first (R87). -/
def execSramSelfTestDone (firmwareMemory pass : Bool) (s : State) : Out :=
  guardNext (s.booting && s.boot.plls && (if firmwareMemory then !s.boot.fwMem else s.boot.fwMem && !s.boot.sram)) s <|
    if !pass then failStart 0x10 s
    else if firmwareMemory then beginFirmware s
    else s.modBoot fun b => { b with sram := true }

/-- OWL_SELF_TEST_DONE (R489, R491). -/
def execOwlSelfTestDone (pass : Bool) (s : State) : Out :=
  guardNext (s.booting && s.boot.plls && !s.boot.owlTest) s <|
    if pass then s.modBoot fun b => { b with owlTest := true } else owlFailure s

/-- DRAM_TRAINING_DONE: in step 0x4, or in the deferred step without retained training (R87, R544). -/
def execDramTrainingDone (pass : Bool) (s : State) : Out :=
  guardNext ((s.booting || s.deferring) && s.boot.plls && !s.boot.dram) s <|
    if pass then s.modBoot fun b => { b with dram := true } else failStart 0x11 s

/-- Step 0x4 is done with a den's reference. -/
def denDone (d : DenId) (s : State) : State := s.modBoot fun b => { b with dens := b.dens ||| BitVec.ofNat 4 (2 ^ d.val) }

/-- DEN_REFERENCE_SETTLED (R87, R545). -/
def execDenReferenceSettled (den : DenId) (s : State) : Out :=
  guardNext (s.served && s.boot.plls && !(s.dens[den]).settled) s (denDone den (s.modDen den fun x => { x with settled := true }))

/-- DEN_REFERENCE_TIMEOUT: the den is isolated with a den-level fault, and the start goes on (R90). -/
def execDenReferenceTimeout (den : DenId) (s : State) : Out :=
  guardNext (s.booting && s.boot.plls && !s.boot.dens.getLsbD den.val) s
    (denDone den (isolateDen den (raiseDenFaultFree s den 0)))

/-- The histograms of the interpolators take effect (R260). -/
def takeMaps (hits : List (List Nat)) (s : State) : State :=
  s.modTdc fun t => { t with maps := vmapI t.maps fun i _ => histMap (hits.getD i.val [])
                             inl := vmapI t.inl fun i _ => mapInl (histMap (hits.getD i.val [])) }

/-- INTERPOLATOR_CAL_DONE: one histogram for each interpolator, in the order of the maps: the 16 inputs' first, the 34 internal
channels', the 16 inputs' second (R260, R261; log entry 217). -/
def execInterpolatorCalDone (hits : List (List Nat)) (s : State) : Out :=
  guardNext ((s.booting || s.deferring) && s.boot.plls && !s.boot.interp) s <|
    if hits.length ≠ 66 || hits.any histBad then failStart 0x13 s
    else (takeMaps hits s).modBoot fun b => { b with interp := true }

/-! Step 0x5 (R57, R87, R88, R592). -/

/-- The boot flash map: the firmware image and the two copies of the boot configuration, as address and size (R96). -/
def flashFirmware : Nat × Nat := (0x000000, 0x200000)
def flashCopyA : Nat × Nat := (0x200000, 0x100000)
def flashCopyB : Nat × Nat := (0x300000, 0x100000)

/-- The bytes of a part of the flash, as far as the part reaches. -/
def flashPart (part : Nat × Nat) (bytes : List Byte) : List Byte := bytes.take part.2

/-- The boot flash is being read for the firmware. -/
def State.readingFlash (s : State) : Bool :=
  (s.booting || s.deferring) && s.boot.fwMem && !s.boot.fwLoaded && !s.boot.waitHost && !s.sup.straps.bootSrc.getLsbD 0

/-- The boot flash holds no image that can be used: a download is awaited, or the start fails (R88, R93). -/
def flashUnusable (code : Byte) (s : State) : State := if s.sup.straps.bootSrc = 2 then waitStep code s else failStart code s

/-- BOOT_FLASH_READ_DONE (R88, R521). -/
def execBootFlashReadDone (image : List Byte) (s : State) : Out :=
  guardNext s.readingFlash s <|
    let part := flashPart flashFirmware image
    let ws := wordsOfBytes part
    if fwCheck s.secFloor (part.length / 4) ws = 0 then
      (s.modBoot fun b => { b with fwLoaded := true }).modProt fun p => { p with fwVersion := (pw ws 2).extractLsb' 0 24 }
    else flashUnusable 0x21 s

/-- BOOT_FLASH_NO_RESPONSE (R88). -/
def execBootFlashNoResponse (s : State) : Out := guardNext s.readingFlash s (flashUnusable 0x20 s)

/-- The notices with which the firmware begins (R75, R94, R592). -/
def firstNotices (s : State) : State :=
  let v := Config.random s.free
  let s1 := raise { s with free := s.free + 1 } 0x0001 (s.resetStatus :: words64 v.toNat)
  let s2 := if s.sup.longNoticeDue then (raise s1 0x0002 [s1.resetStatus]).modSup fun u => { u with longNoticeDue := false } else s1
  raiseTimeMap (raise s2 0x0003 (s2.modeStatus :: words64 0))

/-- The CHECKPOINT_FAIL that a takeover without a checkpoint owes is emitted once the firmware runs (R548, R592). -/
def oweCheckpointFail (s : State) : State :=
  match s.pair.claimCause with
  | some c => raise s 0x0801 [w32 c.toNat]
  | none => s

/-- FIRMWARE_START: step 0x5 is complete. The boot loader's cache and the staging area go, and Owl runs from step 0x6 on (R88, R447,
R470, R592). -/
def execFirmwareStart (s : State) : Out :=
  guardNext ((s.booting || s.deferring) && s.boot.fwLoaded && !s.boot.fwRuns) s <|
    let s1 := s.modBoot fun b => { b with fwRuns := true, waitHost := false }
    let s2 := (s1.modCmd fun c => { c with bootCache := Cache.empty }).modProt fun p => { p with staged := [], stage := .empty, result := 0 }
    let s3 := if s.boot.takeStep = 0 then s2.modOwl fun o => { o with running := true, alive := true, cycleAt := s2.lcN } else s2
    oweCheckpointFail (firstNotices s3)

/-! Ownership (R529, R531). -/

def ownMagic : Word := 0x4F50484E

/-- A copy of the ownership word that checks: PAIR_TERM and PAIR_HUB_ID. -/
def readOwn (ws : List Word) : Option (Word × BitVec 10) :=
  if pw ws 0 = ownMagic ∧ ws.length = 6 ∧ crcWords (ws.take 5) = pw ws 5 then some (pw ws 1, (pw ws 4).extractLsb' 0 10) else none

/-- The valid copies of the ownership word. -/
def Pair.ownCopies (p : Pair) : List (Word × BitVec 10) := p.ownWords.toList.filterMap readOwn

/-- The highest PAIR_TERM among the valid copies, else 0 (R529). -/
def Pair.topTerm (p : Pair) : Nat := (p.ownCopies.map fun c => c.1.toNat).foldl max 0

/-- The ownership word of a term (R531). -/
def ownWord (term : Word) (die : Word64) (hub : BitVec 10) : List Word :=
  let w := [ownMagic, term, w32 die.toNat, w32 (die.toNat / 2 ^ 32), w32 hub.toNat]
  w ++ [crcWords w]

/-- A claim: PAIR_OWN high, the next term into both copies. Whether they read back as written is the pair memory's own affair, so it
is a free bit; where they do not, nothing is known of the copies (R529; log entry 2). True where the claim has held. -/
def claim (s : State) : State × Bool :=
  let t := w32 (s.pair.topTerm + 1)
  let hub := ((s.pair.ownCopies.head?).map (·.2)).getD s.fab.hubId
  let d := s.drawWord
  let good := !bit d.1 0
  let w := if good then ownWord t s.factory.dieId hub else []
  (d.2.modPair fun p => { p with owns := true, ownLine := true, term := t, claimAt := s.lcN, ownWords := Vector.replicate 2 w }, good)

/-! Checkpoints as they are read (R540, R542, R544). -/

def fullMagic : Word := 0x4350484E
def deltaMagic : Word := 0x4450484E

/-- A write found whole in a slot: its header's words and its sections. -/
abbrev Write := List Word × List Sec

/-- A slot's content, when its header and every section check (R540). -/
def readWrite (magic : Word) (ws : List Word) : Option Write :=
  if pw ws 0 = magic ∧ crcWords (ws.take 15) = pw ws 15 ∧ 16 ≤ ws.length then
    (readSections (bits (pw ws 5) 20 16) ws).map fun ss => (ws.take 16, ss)
  else none

/-- The order of writes: PAIR_TERM, then WRITE_SEQ (log entry 51). -/
def Write.order (w : Write) : Nat := (pw w.1 2).toNat * 2 ^ 32 + (pw w.1 1).toNat

/-- The newest of several writes. -/
def newestWrite (l : List Write) : Option Write :=
  l.foldl (fun b w => match b with
    | some x => if x.order < w.order then some w else b
    | none => some w) none

/-- The newest valid full checkpoint. -/
def Pair.newestFull (p : Pair) : Option Write := newestWrite ((p.slots.toList.take 2).filterMap (readWrite fullMagic))

/-- The newest valid write of either kind, a full one given (R544). -/
def Pair.newestOf (p : Pair) (f : Write) : Write :=
  (newestWrite (f :: (p.slots.toList.drop 2).filterMap (readWrite deltaMagic))).getD f

/-- The order in which WRITE_SEQ goes on, over any slot that checks. -/
def Pair.topSeq (p : Pair) : Word :=
  match newestWrite ((p.slots.toList.take 2).filterMap (readWrite fullMagic) ++ (p.slots.toList.drop 2).filterMap (readWrite deltaMagic)) with
  | some w => pw w.1 1
  | none => 0

/-- NEXT_SEQ and RES of each stream from section 0x09 (R541). -/
def readSeqs (ws : List Word) : List (BitVec 48 × BitVec 48) :=
  let q := fun k => BitVec.ofNat 48 ((pw ws k).toNat + bits (pw ws (k + 1)) 15 0 * 2 ^ 32)
  (List.range 54).map fun t => (q (4 * t), q (4 * t + 2))

/-- Sections of the resume part. -/
def isResume (x : Sec) : Bool := decide (x.1 < 0x10)

/-- The words of section 0x12 that are QUEUE_CONFIG commands. -/
def queuePart : Nat := 262

/-- QUEUE_CONFIG of section 0x12. -/
def applyQueues (ws : List Word) (s : State) : State :=
  match evenCommands queueConfigSpec 2 131 (ws.take queuePart) with
  | some cs => let r := replayAll cs s; (replayAll r.2 r.1).1
  | none => s

/-- The rest sections as they are loaded; the subscriptions wait (R544, R547). -/
def loadRest (s : State) : State :=
  match s.pair.restore with
  | none => s
  | some r =>
    let s1 := (applySections r.rest s).1
    let s2 := match findSection r.rest 0x12 with
      | some ws => applyQueues ws s1
      | none => s1
    s2.modPair fun p => { p with restore := some { r with rest := [], loaded := true } }

/-- The resume part and the sequences of the newest write take effect: every stream goes on at RES, TIME_EPOCH is one more, and TK is
provisional. A lane that step 0x9 has started with the settings of section 0x06 goes on. The fabric image of section 0x17 is taken with them, since section 0x01 has its FAB_GEN and DIGEST in force (R541, R544
to R547; log entry 51). -/
def loadResume (full : Write) (s : State) : State :=
  let new := s.pair.newestOf full
  let seqs := readSeqs ((findSection new.2 0x09).getD [])
  let subs := (findSection new.2 0x12).getD ((findSection full.2 0x12).getD [])
  let rest := (full.2.filter fun x => !isResume x && x.1 != 0x12) ++ [(0x12, subs)]
  let early := full.2.filter fun x => isResume x || x.1 == 0x17
  let s1 := (applySections early s).1
  let s2 := s1.modHoard fun h => { h with streams := vmapI h.streams fun t x => { x with nextSeq := ((seqs[t.val]?).map (·.2)).getD 0 } }
  (s2.modTime fun t => { t with epoch := (pw full.1 5).extractLsb' 0 16 + 1 }).modPair fun p =>
    { p with
      provisional := true, writeSeq := pw new.1 1, writeNo := pw new.1 1
      restore := some { rest := rest, loaded := false, subs := subs.drop queuePart, seqs := seqs, writeSeq := pw new.1 1
                        tk := BitVec.ofNat 64 (nat64 (pw new.1 3) (pw new.1 4)) } }

/-! Step 0x6 (R89, R94 to R99, R590). -/

/-- GEN a is newer than GEN b (R97, R321). -/
def genNewer (a b : Word) : Bool := a != b && decide ((a - b).toNat < 2 ^ 31)

/-- The valid copies in the order in which they are tried (R97, R590). -/
def bootOrder (a b : List Byte) : List (List Sec) :=
  match readBoot a, readBoot b with
  | some x, some y => if genNewer y.1 x.1 then [y.2, x.2] else [x.2, y.2]
  | some x, none => [x.2]
  | none, some y => [y.2]
  | none, none => []

/-- FAIL_CODE when no copy can be loaded (R97). -/
def noCopyCode (a b : List Byte) : Byte :=
  if pw (wordsOfBytes (a.take 4)) 0 != bootMagic && pw (wordsOfBytes (b.take 4)) 0 != bootMagic then 0x30 else 0x31

/-- The first copy whose application meets no refusal; what another copy did is undone (R590). -/
def applyCopies : List (List Sec) → State → Option (List Sec × State)
  | [], _ => none
  | ss :: t, s =>
    let r := applySections ss s
    if r.2 then some (ss, r.1) else applyCopies t s

/-- The plan of step 0x6: validated, and due at its first boundary at least 400 ticks ahead; or the start waits (R87, R89). -/
def bootPlan (img : Option (List Word)) (s : State) : State :=
  match img with
  | none => waitConfig 0x32 s
  | some ws =>
    let r := loadPlan ws s
    if r.2 then (r.1.modPlan fun p => { p with swap := some r.1.nextEdge }).modBoot fun b => { b with cfgApplied := true }
    else waitConfig 0x32 r.1

/-- A copy declares the hub one of a pair (R530). -/
def declaresPaired (ss : List Sec) : Bool :=
  match findSection ss 0x01 with
  | some ws => bit (pw ws 2) 1
  | none => false

/-- A checkpoint takes the place of the boot configuration, but for a plan that it leaves out (R89, R95, R541). -/
def loadCheckpoint (full : Write) (boot : List Sec) (s : State) : State :=
  bootPlan ((findSection full.2 0x08).orElse fun _ => findSection boot 0x08) (loadRest (loadResume full s))

/-- The boot configuration is loaded (R89, R98, R590). A standby sync takes it under SYNC_ID and activates no plan (R528, R536). -/
def loadCopies (a b : List Byte) (s : State) : State :=
  match applyCopies (bootOrder a b) s with
  | none => waitConfig (noCopyCode a b) s
  | some (ss, s1) =>
    if s.pair.syncing then
      (setHubId (s1.pair.word1.extractLsb' 0 10) s1).modBoot fun b => { b with cfgApplied := true }
    else bootPlan (findSection ss 0x08) s1

/-- Step 0x6 with its ownership settled: a checkpoint, if this hub is paired and one is valid, or the boot configuration (R89). -/
def loadConfig (a b : List Byte) (s : State) : State :=
  match bootOrder a b with
  | [] => waitConfig (noCopyCode a b) s
  | ss :: _ =>
    match s.pair.newestFull with
    | some full => if s.pair.owns && s.pair.claimCause.isNone then loadCheckpoint full ss s else loadCopies a b s
    | none => loadCopies a b s

/-- This start has to claim before it loads: its configuration declares it paired, and it is no standby sync (R530). -/
def State.mustClaim (s : State) (a b : List Byte) : Bool :=
  !s.pair.syncing && !s.pair.owns && (((bootOrder a b).head?).map declaresPaired).getD false

/-- A claim of step 0x6, with its failure noticed (R529, R553). -/
def claimAtBoot (s : State) : State :=
  let r := claim s
  if r.2 then r.1.modPair fun p => { p with writeSeq := p.topSeq, writeNo := p.topSeq }
  else raise (r.1.modPair fun p => { p with claimCause := some 3 }) 0x0801 [3]

/-- A waiting claim goes on once PAIR_OWN is low (R529). -/
def resumeClaim (s : State) : State :=
  match s.boot.claimWait with
  | some (a, b) => if s.pair.ownLine then s else loadConfig a b (claimAtBoot (s.modBoot fun x => { x with claimWait := none }))
  | none => s

/-- The plan of the boot configuration for a takeover whose checkpoint leaves it out (R545). -/
def takeoverPlan (a b : List Byte) (s : State) : State :=
  match ((bootOrder a b).head?).bind fun ss => findSection ss 0x08 with
  | some ws => (loadPlan ws s).1
  | none => s

/-- A takeover still has no valid plan for step 0xC. -/
def State.wantsPlan (s : State) : Bool :=
  s.sup.mode == .startup && (s.boot.takeStep == 0xB || s.boot.takeStep == 0xC) && s.plan.shadow.state != .valid

/-- The boot flash is being read for the boot configuration. -/
def State.readingConfig (s : State) : Bool := s.booting && s.boot.fwRuns && !s.boot.cfgApplied && s.boot.claimWait.isNone

/-- BOOT_CONFIG_READ_DONE (R87, R96, R89, R97, R530, R545). -/
def execBootConfigReadDone (copyA copyB : List Byte) (s : State) : Out :=
  let a := flashPart flashCopyA copyA
  let b := flashPart flashCopyB copyB
  .next <|
    if s.wantsPlan then takeoverPlan a b s
    else if s.readingConfig then
      if !s.mustClaim a b then loadConfig a b s
      else resumeClaim (s.modBoot fun x => { x with claimWait := some (a, b) })
    else s

/-- STARTUP_PLAN_ACTIVATE (R87, R213). -/
def execStartupPlanActivate (s : State) : Out :=
  .next <|
    match s.plan.swap with
    | some e => if s.booting && s.boot.cfgApplied && !s.plan.stopped && !s.plan.active then activatePlan e s else s
    | none => s

/-! Step 0x7 (R30, R87, R573). -/

/-- Steps 0x4 and 0x6 are complete (R87). -/
def State.readyForFront (s : State) : Bool :=
  let b := s.boot
  s.booting && b.takeStep == 0 && b.fwMem && b.sram && b.owlTest && b.dram && b.dens == 0xF && b.interp && b.fwRuns && b.cfgApplied &&
  s.plan.active

/-- The setts that a configuration has running. -/
def State.bootSetts (s : State) : List SettId := allSetts.filter fun k => s.boot.runMask.getLsbD k.val

/-- FRONT_END_ENABLE: the front ends go on, and the configuration's setts start at the next boundary (R98, R573). -/
def execFrontEndEnable (s : State) : Out :=
  guardNext (s.readyForFront && !s.boot.frontOn && s.sup.tjSamples == 8 && !s.sup.overtemp) s <|
    let b := s.nextBoundary
    (forEach s.bootSetts (fun s k => s.modChain k fun c => { c with startAt := some b }) s).modBoot fun b => { b with frontOn := true }

/-- Every running sett of continuous conversion is past warm-up, and none has still to start (R30, R178). -/
def State.warm (s : State) : Bool :=
  (s.bootSetts.all fun k => (s.setts[k]).run) &&
  allSetts.all fun k => !(s.setts[k]).run || (s.setts[k]).burstMode || decide (s.settle k ≤ (s.chains[k]).words)

/-- Entry to Service (R30, R93, R147, R573). -/
def enterService (s : State) : State :=
  let s1 := s.modBoot fun b => { b with frozenMs := some (BitVec.ofNat 16 s.elapsedMs), recovery := false, takeStep := 0, runMask := 0 }
  judgeTherm (raiseMode .service 0 (closeTaps (s1.modSup fun u => { u with mode := .service })))

/-! Limits and faults of a start (R20, R87, R90). -/

/-- A PLL has not locked in time: without SYSREF_CLK the code says so (R85, R93). -/
def pllTimeout (w : StepFault) (code : Byte) (s : State) : State := failStart (if s.sup.sysrefOk then code else 0x05) (releaseBefore w s)

/-- The part of a step that has exceeded its limit is still incomplete. -/
def State.overdue (s : State) : StepFault → Bool
  | .domains => s.booting && !s.boot.domains
  | .timePll | .samplingPll | .corePll | .memoryPll => s.booting && s.boot.domains && !s.boot.plls
  | .sram => s.booting && s.boot.plls && !(s.boot.fwMem && s.boot.sram)
  | .dram => (s.booting || s.deferring) && s.boot.plls && !s.boot.dram
  | .owl => s.booting && s.boot.plls && !s.boot.owlTest
  | .interpolator => (s.booting || s.deferring) && s.boot.plls && !s.boot.interp
  | .flash => s.readingFlash
  | .takeover => s.sup.mode == .startup && !s.boot.failed && decide (9 ≤ s.boot.takeStep.toNat ∧ s.boot.takeStep.toNat ≤ 0xD)

/-- The start fails with the code of what was late. A step of a takeover has the code of the hardware it uses, which no operand
names (R87, R90, R544; log entry 2). Of the codes of step 0x5, one over its limit has 0x20 (log entry 204). -/
def lateStep (what : StepFault) (s : State) : State :=
  match what with
  | .domains => failStart Config.domainsFailCode s
  | .timePll => pllTimeout .timePll 0x01 s
  | .samplingPll => pllTimeout .samplingPll 0x02 s
  | .corePll => failStart 0x03 s
  | .memoryPll => failStart 0x04 (releaseBefore .memoryPll s)
  | .sram => failStart 0x10 s
  | .dram => failStart 0x11 s
  | .owl => owlFailure s
  | .interpolator => failStart 0x13 s
  | .flash => flashUnusable 0x20 s
  | .takeover => let r := s.drawWord; failStart (r.1.extractLsb' 0 8) r.2

/-- STARTUP_STEP_TIMEOUT (R87, R90). -/
def execStartupStepTimeout (what : StepFault) (s : State) : Out := guardNext (s.overdue what) s (lateStep what s)

/-- CONTROL_PROCESSOR_WATCHDOG_EXPIRY (R20, R93). -/
def execControlProcessorWatchdogExpiry (s : State) : Out := guardNext (s.served && s.boot.plls) s (chipFault 0x14 s)

/-! JTAG (R61). -/

/-- The port works: VDD_IO_0 and VDD_CORE are good, whatever the mode and HOT_EN. -/
def State.jtagLive (s : State) : Bool := s.sup.railGood.getLsbD 9 && s.sup.railGood.getLsbD 0

/-- Debug access is open (R519). -/
def State.debugOpen (s : State) : Bool := (s.prot.debugUntil.map fun t => decide (s.lcN < t)).getD false

/-- The instruction in force, with what it does to the balls. -/
def jtagDrive (b : JtagBalls) (s : State) : State := s.modSup fun u => { u with jtagBalls := b }

/-- The balls as the port has them: an instruction that drives them does so only once isolation is released. -/
def State.jtagPins (s : State) : JtagBalls := if s.portLive then s.sup.jtagBalls else .functional

/-- The boundary-scan cells capture the pin levels. -/
def jtagCapture (pins : List Bool) (s : State) : State := s.modSup fun u => { u with jtagCells := pins }

/-- JTAG_INSTRUCTION. The debug access beyond boundary scan is locked unless it is open, and the manual gives it no effect then. -/
def execJtagInstruction (op : JtagOp) (pins : List Bool) (s : State) : Out :=
  if !s.jtagLive then .next s
  else match op with
    | .bypass => .next (jtagDrive .functional s)
    | .idcode => .next (jtagDrive .functional s)
    | .samplePreload => .next (jtagCapture pins (jtagDrive .functional s))
    | .extest => .next (jtagCapture pins (jtagDrive .driven s))
    | .intest => .next (jtagCapture pins (jtagDrive .driven s))
    | .clamp => .next (jtagDrive .driven s)
    | .highz => .next (jtagDrive .highZ s)
    | .debugOp => if s.debugOpen then .refused .debugInstruction else .next s

end Sys2Proof.Machine
end

