-- ==== Sys2Proof/Machine/Pair.lean ====
section
/-! DEFINITION. Active and standby pairs: the heartbeat, standby syncs, checkpoints, takeover and yield (R526 to R553), and the two
rows with which a takeover's restoration ends: TK_ALIGN_RESUME (R237) and WARM_UP_COMPLETE (R30). -/

namespace Sys2Proof.Machine

/-! Restoring what waits for fabric time (R546, R547). -/

/-- A cursor of section 0x12: stream, ACKED and the tick of the first entry of ACKED + 1. -/
structure SavedCursor where
  stream : Nat
  acked : BitVec 48
  tick : Nat
  deriving DecidableEq, Repr

/-- A subscription of section 0x12. -/
structure SavedSub where
  id : Fin 64
  sub : Sub
  cursors : List SavedCursor
  deriving DecidableEq, Repr

def readCursor (ws : List Word) : SavedCursor :=
  { stream := bits (pw ws 1) 23 16, acked := BitVec.ofNat 48 ((pw ws 0).toNat + bits (pw ws 1) 15 0 * 2 ^ 32), tick := nat64 (pw ws 2) (pw ws 3) }

/-- The settings of a subscription, without its cursors. -/
def readSub (ws : List Word) : Sub :=
  { uplink := bit (pw ws 0) 16, dest := (pw ws 0).extractLsb' 17 10, window := (pw ws 3).extractLsb' 0 13
    maxResends := (pw ws 3).extractLsb' 13 4, ackUs := (pw ws 4).extractLsb' 0 20, run := (pw ws 5).extractLsb' 0 8, cursors := [], hold := none }

/-- A number of subscriptions, and the words after them. -/
def readSubs : Nat → List Word → List SavedSub × List Word
  | 0, ws => ([], ws)
  | n + 1, ws =>
    let k := bits (pw ws 5) 15 8
    let cs := (recordsOf 4 k (ws.drop 6)).map readCursor
    let r := readSubs n (ws.drop (6 + 4 * k))
    ({ id := ⟨bits (pw ws 0) 5 0, Nat.mod_lt _ (by decide)⟩, sub := readSub ws, cursors := cs } :: r.1, r.2)

/-- The subscriptions and the marks of section 0x12 after its QUEUE_CONFIG part. -/
def Restore.saved (r : Restore) : List SavedSub × List Word := readSubs (min 64 (pw r.subs 0).toNat) (r.subs.drop 1)

/-- RES of a stream. -/
def Restore.res (r : Restore) (t : Nat) : BitVec 48 := ((r.seqs[t]?).map (·.2)).getD 0

/-- LC of the first entry that this start has put into a stream, or now (R547). -/
def State.firstEntry (s : State) (t : Fin 54) (res : BitVec 48) : Nat :=
  let x := s.hoard.streams[t]
  match x.held.find? fun r => r.seq == res with
  | some r => r.lc.toNat
  | none => match x.openRec with
    | some o => if x.nextSeq = res then o.lc else s.lcN
    | none => s.lcN

/-- The tick before that entry, which ends what was lost. -/
def State.lastLost (s : State) (t : Fin 54) (res : BitVec 48) : Nat := (s.tickOfLc (s.firstEntry t res) - 1).toNat

/-- A restored cursor goes on at RES, and its first record carries SKIP (R547). -/
def restoredCursor (r : Restore) (c : SavedCursor) : Cursor := { newCursor c.stream (r.res c.stream) with skip := true }

/-- The GAP entries of one stream: one for each restored cursor, or one for every consumer (R547). -/
def streamGaps (r : Restore) (subs : List SavedSub) (s : State) (t : Fin 54) : State :=
  let res := r.res t.val
  let mine := subs.flatMap fun u => (u.cursors.filter fun c => c.stream == t.val).map fun c => (u.id, c)
  let gap := fun (s1 : State) (sub : Option Nat) (first : BitVec 48) (tick : Nat) =>
    raise s1 0x0100 (gapBody t.val sub 4 first (res - 1) tick (s.lastLost t res))
  if mine.isEmpty then gap s none (((r.seqs[t.val]?).map (·.1)).getD 0) r.tk.toNat
  else mine.foldl (fun s1 x => gap s1 (some x.1.val) (x.2.acked + 1) x.2.tick) s

/-- The TAKEOVER notice: the tick of the first entry is the earliest of any stream (R553). -/
def raiseTakeover (r : Restore) (s : State) : State :=
  let first := (List.finRange 54).foldl (fun m t => min m (s.firstEntry t (r.res t.val))) s.lcN
  raise s 0x0800 ([s.pair.term, r.writeSeq] ++ words64 (s.tickOfLc first).toNat)

/-- The marks of section 0x12 come back invalid for every stream (R546). -/
def restoreMarks (ws : List Word) (s : State) : State :=
  (recordsOf 3 256 ws).foldl (fun s m =>
    let id : Fin 256 := ⟨bits (pw m 0) 7 0, Nat.mod_lt _ (by decide)⟩
    s.setMark id (some
      { parts := (maskStreams (pw m 1) (pw m 2)).map fun t => (t.val, 0, false)
        guardMib := if bit (pw m 0) 8 then some (bits (pw m 0) 24 9) else none, risked := [] })) s

/-- TK agrees with the fabric: it has been loaded, or this hub's own time is the fabric's (R426, R547). -/
def State.tkAligned (s : State) : Bool := !s.pair.provisional || s.fab.leads

/-- The gaps are declared and the subscriptions restored, once the rest sections are loaded and TK is aligned (R547). -/
def finishRestore (s : State) : State :=
  match s.pair.restore with
  | none => s
  | some r =>
    if !r.loaded || !s.tkAligned || !s.boot.fwRuns then s
    else
      let saved := r.saved
      let s1 := if s.boot.takeover then raiseTakeover r s else s
      let s2 := (List.finRange 54).foldl (streamGaps r saved.1) s1
      let s3 := saved.1.foldl (fun s u => s.setSub u.id (some { u.sub with cursors := u.cursors.map (restoredCursor r) })) s2
      (restoreMarks saved.2 s3).modPair fun p => { p with restore := none, provisional := false }

/-- TK_ALIGN_RESUME: the plan goes on at index 0 with its cyclic states, a start event of every running sett; TK is no longer
provisional (R237, R545). -/
def execTkAlignResume (s : State) : Out :=
  .next <|
    match s.time.realign with
    | some r =>
      if !r.loaded then s
      else
        let b := s.boundaryFrom r.resumeFrom
        let s1 := atTk b s
        let s2 := (s1.modTime fun t => { t with realign := none }).modPlan fun p =>
          { p with stopped := false, segment := 0, frameTk := b, frameLc := s1.lcN * 256, firstFrame := p.active
                   frameCount := if p.active then p.frameCount + 1 else p.frameCount }
        let s3 := if s2.plan.active then forEach allSetts (toCyclic s2.plan.bank.asCycle) s2 else s2
        let s4 := forEach (allSetts.filter fun k => (s3.setts[k]).run && !(s3.setts[k]).shed) (fun s k =>
          startChain k b (s.modSett k fun x => { x with restart := none, ocHold := false })) s3
        let s5 := raise s4 0x0301 (words64 ((r.stopTk.getD 0).toNat) ++ words64 r.stopLc.toNat ++ words64 b ++ s1.lcWords)
        finishRestore (s5.modPair fun p => { p with provisional := false })
    | none => s

/-- WARM_UP_COMPLETE: entry to Service (R30). -/
def execWarmUpComplete (s : State) : Out :=
  guardNext (s.booting && s.boot.takeStep == 0 && s.boot.frontOn && s.plan.active && s.warm) s (finishRestore (enterService s))

/-! Heartbeat (R532 to R535). -/

/-- A checkpoint write has completed within the last 1 s (R532). -/
def State.freshWrite (s : State) : Bool :=
  let young := fun (t : Option Nat) => (t.map fun t => decide (s.lcN < t + 1000000000)).getD false
  young s.pair.fullAt || young s.pair.deltaAt

/-- STATE of the heartbeat (R532). -/
def State.hbState (s : State) : Nat :=
  let p := s.pair
  if p.syncing then (if p.coldNext.isSome then 3 else if p.unfit then 6 else 2)
  else if p.owns then (if p.yieldStep == .sending then 4 else if s.freshWrite then 1 else 5)
  else if s.sup.mode == .startup && !s.boot.cfgApplied then 0
  else if p.paired then 0 else 6

/-- A heartbeat frame with its CRC8. -/
def hbFrame (state mode term : Nat) : Word :=
  let w := 0xB4 + fld 8 3 state + fld 11 4 mode + fld 16 8 term
  w32 (w + fld 24 8 (crc8 ((wordBytes (w32 w)).take 3)).toNat)

/-- HEARTBEAT_TX: every 32 µs while PAIR_HB_OUT is driven (R59, R532). -/
def execHeartbeatTx (s : State) : Out :=
  guardNext s.served s <|
    let s1 := atAon (s.pair.hbSentAt + 32000) s
    s1.modPair fun p =>
      { p with hbSentAt := s1.time.aonNs
               hbSent := hbFrame s1.hbState s1.sup.mode.code (if p.owns then bits p.term 7 0 else 0) }

/-- SYNC and CRC8 check (R532). -/
def hbValid (f : Word) : Bool := bits f 7 0 == 0xB4 && (crc8 ((wordBytes f).take 3)).toNat == bits f 31 24

/-- This unit is a standby: in Hibernate with PAIR_ROLE 1, or after a standby sync or a yield (R533). -/
def State.isStandby (s : State) : Bool := s.sup.mode == .hibernate && !s.sup.src.holds && (s.pair.standby || s.pair.cold)

/-- PARTNER_STATE of an owner at a frame (R535). -/
def partnerAt (st : Nat) (p : Partner) : Partner :=
  if st = 2 then .syncing
  else if st = 6 && (p == .syncing || p == .unfit) then .unfit
  else p

/-- What a valid frame does: the partner's state, arming, and the line that an owning partner drives (R529, R533, R535). -/
def takeFrame (now st : Nat) (standby : Bool) (p : Pair) : Pair :=
  { p with
    hbAt := now, hbHeard := true, partnerSent := BitVec.ofNat 3 st
    armed := if standby || p.syncing then st == 1 || st == 4 else p.armed
    ownLine := p.ownLine || st == 1 || st == 4 || st == 5
    partner := if p.owns then partnerAt st p.partner else p.partner
    syncSeen := if st = 2 ∨ st = 3 then now else p.syncSeen }

/-- HEARTBEAT_RX (R532, R533, R535). -/
def execHeartbeatRx (frame : Word) (s : State) : Out :=
  guardNext (s.powered && hbValid frame) s (s.modPair (takeFrame s.time.aonNs (bits frame 10 8) s.isStandby))

/-- Nanoseconds of HB_LOSS_ACLK periods at 32.768 kHz. -/
def Pair.lossNs (p : Pair) : Nat := (bits p.word0 8 3 * 1000000000 + 32767) / 32768

/-- The conditions of a takeover hold (R533). -/
def State.takesOver (s : State) : Bool :=
  s.isStandby && !s.sup.inReset && s.pair.armed && !s.pair.hbHeard && !s.pair.ownLine && s.sup.startConditions false

/-- A takeover leaves Hibernate (R30, R77, R92, R544). -/
def startTakeover (s : State) : State :=
  let s1 := (enterStartup s).modBoot fun b => { b with takeover := true, recovery := true, takeStep := 9 }
  s1.modSup fun u => { u with resetCauses := 0x40, railId := 0 }

/-- An owner's partner is silent (R535). -/
def partnerSilent (s : State) : State :=
  if s.pair.partnerSent = 3 then s.modPair fun p => { p with partner := .ready }
  else raise (s.modPair fun p => { p with partner := .lost }) 0x0802 [0]

/-- HEARTBEAT_LOSS: HB_LOSS_ACLK periods without a valid frame (R533, R535). -/
def execHeartbeatLoss (s : State) : Out :=
  guardNext (s.powered && (s.pair.hbHeard || s.pair.armed)) s <|
    let s1 := (atAon (s.pair.hbAt + s.pair.lossNs) s).modPair fun p => { p with hbHeard := false }
    if s1.takesOver then startTakeover s1
    else if s1.pair.owns && s.pair.hbHeard then partnerSilent s1
    else s1

/-- PAIR_OWN_LOW: a standby whose heartbeat is lost takes over, and a claim that waits goes on (R529, R533). -/
def execPairOwnLow (s : State) : Out :=
  guardNext (s.powered && !s.pair.owns) s <|
    let s1 := s.modPair fun p => { p with ownLine := false }
    if s1.takesOver then startTakeover s1 else resumeClaim s1

/-- Nanoseconds of RESYNC_H hours and as many more. -/
def Pair.resyncNs (p : Pair) (more : Nat) : Nat := (bits p.word1 23 16 + more) * hourNs

/-- PARTNER_OVERDUE (R535). -/
def execPartnerOverdue (s : State) : Out :=
  guardNext (s.served && s.pair.owns && s.pair.partner == .ready) s <|
    raise ((atAon (s.pair.syncSeen + s.pair.resyncNs 1) s).modPair fun p => { p with partner := .lost }) 0x0802 [1]

/-! Standby sync (R536, R537). -/

/-- STANDBY_SYNC_START: a standby is armed whose retained state is missing, or whose last sync lies RESYNC_H hours back (R536). -/
def execStandbySyncStart (s : State) : Out :=
  guardNext (s.isStandby && !s.sup.inReset && s.pair.armed && s.sup.startConditions false) s <|
    enterSync (enterStartup (if s.pair.retainValid then atAon (s.pair.lastSync + s.pair.resyncNs 0) s else s))

/-- Every configured lane is UP. -/
def State.lanesUp (s : State) : Bool := allPorts.all fun p => !(s.lane p).enable || (s.lane p).rx == .up

/-- The leader's beacon data; a hub that sees no other leads itself. -/
def State.fabricLeader (s : State) : Option Member :=
  if s.fab.members.isEmpty then some s.selfMember else s.leaderMember

/-- The retained state is stored, with the settings of the lanes that the snapshots belong to (R537; log entry 51). -/
def storeRetained (s : State) : State :=
  s.modPair fun p =>
    { p with retainValid := true, retainLanes := s.lanes.lanes.map fun l => if l.enable then l.snapshot else none, retainPorts := section06 s
             retainMaps := s.tdc.maps, retainDram := s.boot.dram, lastSync := s.time.aonNs, coldNext := some s.time.aonNs }

/-- An unfit unit stays awake and says so (R428, R536). -/
def beUnfit (lead : Member) (s : State) : State :=
  let s1 := s.modPair fun p => { p with unfit := true }
  if lead.digest = s.fabDigest then s1
  else raise s1 0x0500 [s.fabGen, lead.fabGen, w32 (fld 0 10 s.fab.leader.toNat + flag 10 s.omitted)]

/-- Steps 0x1 to 0x5 and the configuration are complete, as a standby sync needs them (R536). -/
def State.syncRan (s : State) : Bool :=
  let b := s.boot
  s.booting && s.pair.syncing && b.fwMem && b.sram && b.owlTest && b.dram && b.interp && b.fwRuns && b.cfgApplied

/-- STANDBY_SYNC_DONE: the unit is judged, and a fit one stores its retained state once its lanes are up and time has been waited for
(R536). -/
def execStandbySyncDone (ownerFwVersion : BitVec 24) (s : State) : Out :=
  .next <|
    if !s.syncRan || s.pair.coldNext.isSome || s.pair.unfit then s
    else match s.fabricLeader with
      | none => s
      | some l =>
        if s.prot.fwVersion != ownerFwVersion || l.fabGen != s.fabGen || l.digest != s.fabDigest then beUnfit l s
        else if s.lanesUp && (s.time.tq == 3 || s.pair.tqGaveUp) then storeRetained s
        else s

/-- STANDBY_TQ_GIVE_UP: 10 s have passed (R536). -/
def execStandbyTqGiveUp (s : State) : Out :=
  guardNext (s.syncRan && !s.pair.tqGaveUp && s.time.tq != 3) s <|
    (atLc 10000000000 s).modPair fun p => { p with tqGaveUp := true }

/-- COLD_NEXT_END: 1 ms later the unit enters Hibernate as a standby (R533, R536). -/
def execColdNextEnd (s : State) : Out :=
  .next <|
    match s.pair.coldNext with
    | some t => (enterHibernate (atAon (t + 1000000) s)).modPair fun p => { p with cold := true }
    | none => s

/-! Checkpoints (R531, R539 to R543, R549, R552). -/

/-- The header and body of a write (R540). -/
def checkpointWords (full : Bool) (s : State) : List Word :=
  let reserve := s.pair.yieldStep != .writing
  let res := resumeSections reserve s.plan.bank s.plan.active s
  let ss := if full then res ++ restSections s else deltaSections reserve s
  let tk := words64 s.fabricTk.1
  let head := [if full then fullMagic else deltaMagic, s.pair.writeNo + 1, s.pair.term] ++ tk ++
    [w32 (fld 0 16 s.time.epoch.toNat + fld 16 5 ss.length),
     w32 (if full then 64 + 8 * ss.length + 4 * (res.map fun x => x.2.length).sum else 0)] ++ List.replicate 8 0
  head ++ [crcWords head] ++ bodyWords ss

/-- A write begins (R539). -/
def beginWrite (full : Bool) (s : State) : State :=
  let ws := checkpointWords full s
  s.modPair fun p =>
    { p with writing := some { isFull := full, words := ws, since := s.lcN, final := p.yieldStep == .writing }, writeNo := p.writeNo + 1
             queued := if full then (false, p.queued.2) else (p.queued.1, false) }

/-- A valid copy of the ownership word carries a higher term: this owner has been displaced (R531). -/
def State.displaced (s : State) : Bool := decide (s.pair.term.toNat < s.pair.topTerm)

/-- An owner that has been displaced (R531). -/
def standDown (s : State) : State :=
  let s1 := forEach allSetts (fun s k => switchDriver k false s) (outputsOff s)
  let s2 := raise (s1.modPair fun p => { p with owns := false, ownLine := true, writing := none }) 0x0802 [2]
  (enterHibernate s2).modPair fun p => { p with cold := true }

/-- A full checkpoint begins, once the ownership word has been read (R531). -/
def beginFull (s : State) : State := if s.displaced then standDown s else beginWrite true s

/-- The next write begins, or waits for the one in progress (R539). -/
def askWrite (full : Bool) (s : State) : State :=
  if s.pair.writing.isSome then s.modPair fun p => { p with queued := (p.queued.1 || full, p.queued.2 || !full) }
  else if full then beginFull s else beginWrite false s

/-- The owner writes: it has nothing left to load, and no yield has stopped it but for its own last checkpoint (R539, R549; log entry
51). -/
def State.writes (s : State) (full : Bool) : Bool :=
  s.served && s.time.tclk && s.pair.owns && (s.pair.restore.map (·.loaded)).getD true &&
  (s.pair.yieldStep == .none || s.pair.yieldStep == .stopping || (full && s.pair.yieldStep == .writing))

/-- CHECKPOINT_FULL_DUE: every 1 s of LC (R539). -/
def execCheckpointFullDue (s : State) : Out :=
  guardNext (s.writes true) s <|
    let s1 := atLc (s.pair.dueAt.1 + 1000000000) s
    askWrite true (s1.modPair fun p => { p with dueAt := (s1.lcN, p.dueAt.2) })

/-- CHECKPOINT_DELTA_DUE: every 10 ms of LC (R539). -/
def execCheckpointDeltaDue (s : State) : Out :=
  guardNext (s.writes false) s <|
    let s1 := atLc (s.pair.dueAt.2 + 10000000) s
    askWrite false (s1.modPair fun p => { p with dueAt := (p.dueAt.1, s1.lcN) })

/-- The slot of the next write of a kind. -/
def Pair.slotFor (p : Pair) (full : Bool) : Fin 4 :=
  match full, p.nextSlot.1, p.nextSlot.2 with
  | true, false, _ => 0
  | true, true, _ => 1
  | false, _, false => 2
  | false, _, true => 3

/-- A write has completed: its slot holds it, and the other slot of its kind is next (R539). -/
def Pair.complete (c : Checkpoint) (lc : Nat) (p : Pair) : Pair :=
  { p with
    writing := none, stale := false, writeSeq := pw c.words 1, slots := vset p.slots (p.slotFor c.isFull) c.words
    nextSlot := if c.isFull then (!p.nextSlot.1, p.nextSlot.2) else (p.nextSlot.1, !p.nextSlot.2)
    fullAt := if c.isFull then some lc else p.fullAt, deltaAt := if c.isFull then p.deltaAt else some lc }

/-- The reply to a PAIR_YIELD is made available as YIELDING begins (R549; DEDUCED, log entry 186). -/
def answerYield (s : State) : State :=
  match s.pair.yieldReq with
  | some r => answerLater 0x0F03 r stOk [] (s.modPair fun p => { p with yieldReq := none })
  | none => s

/-- What waits for a full checkpoint goes on: requests for one are answered, and the last checkpoint of a yield is followed by
YIELDING (R549, R552). -/
def afterFull (final : Bool) (s : State) : State :=
  let s1 := s.pair.nowReqs.foldl (fun s r => answerLater 0x0F02 r stOk [s.pair.writeSeq] s) (s.modPair fun p => { p with nowReqs := [] })
  if final then answerYield (s1.modPair fun p => { p with yieldStep := .sending, yieldAt := s1.lcN, queued := (false, false) }) else s1

/-- A write that fell due during the one now over begins, the other kind first (R539). -/
def nextWrite (wasFull : Bool) (s : State) : State :=
  let q := s.pair.queued
  if s.pair.yieldStep == .sending || s.pair.writing.isSome then s
  else if wasFull then (if q.2 && s.pair.yieldStep != .writing then beginWrite false s else if q.1 then beginFull s else s)
  else if q.1 then beginFull s
  else if q.2 && s.pair.yieldStep != .writing then beginWrite false s
  else s

/-- A write has failed: it is counted and noticed, and its slot holds nothing valid (R539, R553; log entry 51). -/
def failWrite (c : Checkpoint) (s : State) : State :=
  raise (s.modPair fun p =>
    { p with writing := none, writeFails := satInc p.writeFails, slots := vset p.slots (p.slotFor c.isFull) [] }) 0x0801 [0]

/-- Nanoseconds that a write and its read-back take: 2 × B / 12.5 MB/s for its B bytes (R539). -/
def Checkpoint.span (c : Checkpoint) : Nat := 160 * (4 * c.words.length)

/-- CHECKPOINT_WRITE_DONE: the last byte has been written and read back (R539). -/
def execCheckpointWriteDone (ok : Bool) (s : State) : Out :=
  .next <|
    match s.pair.writing with
    | none => s
    | some c =>
      let s0 := atLc (c.since + c.span) s
      if !ok then nextWrite c.isFull (failWrite c s0)
      else
        let s1 := s0.modPair (Pair.complete c s0.lcN)
        nextWrite c.isFull (if c.isFull then afterFull c.final s1 else s1)

/-- LC of the last completed write, or of the claim (R542). -/
def Pair.lastWrite (p : Pair) : Nat := max (max (p.fullAt.getD 0) (p.deltaAt.getD 0)) p.claimAt

/-- CHECKPOINT_STALE: no write has completed for 1 s (R542, R553). -/
def execCheckpointStale (s : State) : Out :=
  guardNext (s.served && s.time.tclk && s.pair.owns && !s.pair.stale) s <|
    raise ((atLc (s.pair.lastWrite + 1000000000) s).modPair fun p => { p with stale := true }) 0x0801 [1]

/-! Takeover (R544 to R548). -/

/-- What a standby retains comes back: lane snapshots, interpolator maps with CAL_DEG, and the DRAM training (R537, R544, R545). -/
def takeRetained (s : State) : State :=
  let p := s.pair
  let s1 := { s with lanes := { s.lanes with lanes := vmapI s.lanes.lanes fun i l => { l with snapshot := p.retainLanes[i] } } }
  let s2 := s1.modTdc fun t => { t with maps := p.retainMaps, inputs := t.inputs.map fun e => { e with calDeg := true } }
  s2.modBoot fun b => { b with dram := p.retainDram, interp := true }

/-- The lanes of section 0x06 start with what is retained of them: the pair memory cannot be read before ownership is claimed
(R55, R544; log entry 51). -/
def startRetainedLanes (s : State) : State := (applySections [(0x06, s.pair.retainPorts)] s).1

/-- The hardware of step 0x9 is up (R544). -/
def State.atTakeStep (s : State) (n : BitVec 4) : Bool :=
  s.sup.mode == .startup && !s.sup.inReset && !s.boot.failed && s.boot.takeStep == n

/-- TAKEOVER_WAKE (R544). -/
def execTakeoverWake (s : State) : Out :=
  guardNext (s.atTakeStep 9 && s.sup.sysrefOk) s <|
    let s1 := releaseClocks (s.modBoot fun b => { b with domains := true, plls := true, sram := true, owlTest := true, takeStep := 0xA })
    if s.pair.retainValid then startRetainedLanes (takeRetained s1) else s1

/-- Without a checkpoint, or with a failed claim, the start goes on as one without checkpoint, from step 0x4 (R94, R548). -/
def withoutCheckpoint (cause : BitVec 2) (s : State) : State :=
  (s.modPair fun p => { p with claimCause := some cause }).modBoot fun b => { b with takeStep := 0 }

/-- The plan of section 0x08, when there is one (R541). -/
def loadPlanSection (ss : List Sec) (s : State) : State :=
  match findSection ss 0x08 with
  | some ws => (loadPlan ws s).1
  | none => s

/-- TAKEOVER_CLAIM (R529, R544, R546, R548). -/
def execTakeoverClaim (s : State) : Out :=
  guardNext (s.atTakeStep 0xA && !s.pair.ownLine) s <|
    let r := claim s
    let s1 := r.1.modPair fun p => { p with takeovers := satInc p.takeovers, writeSeq := p.topSeq, writeNo := p.topSeq }
    if !r.2 then withoutCheckpoint 3 s1
    else match s1.pair.newestFull with
      | none => withoutCheckpoint 2 s1
      | some full => (loadPlanSection full.2 (loadResume full s1)).modBoot fun b => { b with takeStep := 0xB, takeAt := s.lcN }

/-- An exchange has been applied and TK loaded (R237, R241, R544). -/
def State.fabricTime (s : State) : Bool :=
  decide (2 ≤ s.time.tq.toNat) && !s.time.alignDue && (match s.time.realign with
    | some r => r.loaded
    | none => true)

/-- TAKEOVER_TIME (R544). -/
def execTakeoverTime (s : State) : Out :=
  guardNext (s.atTakeStep 0xB && s.fabricTime) s
    ((s.modBoot fun b => { b with takeStep := 0xC }).modPair fun p => { p with provisional := false })

/-- TIME_WAIT_EXPIRY: TK is provisional (R544, R545). -/
def execTimeWaitExpiry (s : State) : Out :=
  guardNext (s.atTakeStep 0xB) s <|
    (atLc (s.boot.takeAt + bits s.pair.word1 15 10 * 1000000) s).modBoot fun b => { b with takeStep := 0xC }

/-- TAKEOVER_FRONT: the plan at its first boundary at least 400 ticks ahead, and there a start event of the running setts. Owl runs
from here on, and the firmware boot begins (R178, R470, R544). -/
def execTakeoverFront (s : State) : Out :=
  guardNext (s.atTakeStep 0xC && s.plan.shadow.state == .valid && !s.plan.stopped) s <|
    let e := s.nextEdge
    let s1 := activatePlan e (s.modBoot fun b => { b with frontOn := true, takeStep := 0xD })
    let s2 := forEach s.bootSetts (fun s k => startSett k e s) s1
    beginFirmware (s2.modOwl fun o => { o with running := true, alive := true, cycleAt := s2.lcN })

/-- TAKEOVER_DEFERRED: the firmware runs, training and calibration are there, and the rest sections are loaded (R544, R547). -/
def execTakeoverDeferred (s : State) : Out :=
  guardNext (s.deferring && s.boot.fwRuns && s.boot.dram && s.boot.interp) s <|
    finishRestore ((loadRest s).modBoot fun b => { b with takeStep := 0, dens := 0xF, cfgApplied := true })

/-! PAIR_STATUS, PAIR_CHECKPOINT_NOW and PAIR_YIELD (R549, R551, R552). -/

def Partner.code : Partner → Nat
  | .unseen => 0 | .syncing => 1 | .ready => 2 | .unfit => 3 | .lost => 4

/-- An age in ms, saturating; 0xFFFF where there is none. -/
def ageMs (now : Nat) (t : Option Nat) : Nat := (t.map fun t => min 0xFFFF ((now - t) / 1000000)).getD 0xFFFF

/-- Reply words of PAIR_STATUS (R551). -/
def pairStatusWords (s : State) : List Word :=
  let p := s.pair
  let role := if p.owns then 1 else if p.syncing then 2 else 0
  [w32 (role + fld 2 3 p.partner.code + flag 5 p.ownLine + flag 6 (s.hbState == 5) + flag 7 p.retainValid), p.term, p.writeSeq,
   p.writeFails, p.takeovers, w32 (ageMs s.lcN p.fullAt + fld 16 16 (ageMs s.lcN p.deltaAt))]

def pairStatusSpec : CmdSpec :=
  { code := 0x0F01, access := fun c _ _ => accAny c, mode := modeAll, length := fun ws => ws.length == 1
    body := fun _ ws s => if pw ws 0 != 0 then refuse stBadParam s else .done stOk (pairStatusWords s) s }

def execPairStatus (p : Packet) (s : State) : Out := serve pairStatusSpec p s

/-- A full checkpoint is being written. -/
def Pair.writingFull (p : Pair) : Bool := (p.writing.map (·.isFull)).getD false

/-- PAIR_CHECKPOINT_NOW: a full checkpoint begins where the owner can write one now, and is awaited where not (R552). -/
def checkpointNowBody (c : Ctx) (ws : List Word) (s : State) : Res :=
  if pw ws 0 != 0 then refuse stBadParam s
  else if s.pair.writingFull then refuse stBusy s
  else
    let s1 := s.modPair fun p => { p with nowReqs := p.nowReqs ++ [c.replyTo s] }
    .deferred (if s.writes true then askWrite true s1 else s1)

def checkpointNowSpec : CmdSpec :=
  { code := 0x0F02, access := fun c _ _ => accEng c, mode := fun _ s => modeIf s.pair.owns, length := fun ws => ws.length == 1
    body := checkpointNowBody }

def execPairCheckpointNow (p : Packet) (s : State) : Out := serve checkpointNowSpec p s

/-- PAIR_YIELD is served by an owner in Service or Safe-Core whose partner is READY (R549). -/
def State.mayYield (s : State) : Bool :=
  s.pair.owns && (s.sup.mode == .service || s.sup.mode == .safeCore) && s.pair.partner == .ready && s.pair.yieldStep == .none

def pairYieldBody (c : Ctx) (ws : List Word) (s : State) : Res :=
  if pw ws 0 != 0 then refuse stBadParam s else .deferred (startYield (some (c.replyTo s)) s)

def pairYieldSpec : CmdSpec :=
  { code := 0x0F03, access := fun c _ _ => accEng c, mode := fun _ s => modeIf s.mayYield, length := fun ws => ws.length == 1
    body := pairYieldBody }

def execPairYield (p : Packet) (s : State) : Out := serve pairYieldSpec p s

/-- Every cursor has acknowledged its last record (R549). -/
def State.drained (s : State) : Bool :=
  (List.finRange 64).all fun i => match s.hoard.subs[i] with
    | some u => u.cursors.all fun c => match finOf 54 c.stream with
      | some t => c.acked + 1 == s.hoard.streams[t].nextSeq
      | none => true
    | none => true

/-- Every sett has stopped (R549). -/
def State.allStopped (s : State) : Bool := allSetts.all fun k => !(s.setts[k]).run && (s.chains[k]).stopAt.isNone

/-- YIELD_DRAIN_END: the last checkpoint begins. An automatic yield does not wait for acknowledgements (R534, R549). -/
def execYieldDrainEnd (s : State) : Out :=
  guardNext (s.pair.yieldStep == .stopping && s.allStopped) s <|
    let s1 := if s.drained || s.pair.yieldReq.isNone then s else atLc (s.pair.yieldAt + 100000000) s
    askWrite true (s1.modPair fun p => { p with yieldStep := .writing, queued := (p.queued.1, false) })

/-- YIELD_RELEASE: after 1 ms of YIELDING, PAIR_OWN is released and Hibernate entered (R549). -/
def execYieldRelease (s : State) : Out :=
  guardNext (s.pair.yieldStep == .sending) s <|
    (enterHibernate (atLc (s.pair.yieldAt + 1000000) s)).modPair fun p => { p with cold := true }

end Sys2Proof.Machine
end

