-- ==== Sys2Proof/Machine/Dispatch.lean ====
section
/-! DEFINITION. One arm per command, each a direct call of the command's meaning, in the order of spec/opcode_table.json. -/

namespace Sys2Proof.Machine

def exec (i : Instr) (s : State) : Host.Outcome State Fault Refusal :=
  match i with
  | .vddAonGood => Sys2Proof.Machine.execVddAonGood s
  | .vddAonLoss => Sys2Proof.Machine.execVddAonLoss s
  | .railGood rail => Sys2Proof.Machine.execRailGood rail s
  | .railFail rail => Sys2Proof.Machine.execRailFail rail s
  | .ioBankLevel3v3 bank => Sys2Proof.Machine.execIoBankLevel3v3 bank s
  | .ioBankLevel1v8 bank => Sys2Proof.Machine.execIoBankLevel1v8 bank s
  | .hotEnLow => Sys2Proof.Machine.execHotEnLow s
  | .hotEnQualified => Sys2Proof.Machine.execHotEnQualified s
  | .resetNAssert => Sys2Proof.Machine.execResetNAssert s
  | .resetNRelease holdAclk => Sys2Proof.Machine.execResetNRelease holdAclk s
  | .strapSample pairRole bootSrc factoryTest => Sys2Proof.Machine.execStrapSample pairRole bootSrc factoryTest s
  | .internalResetRelease pairOwnHigh => Sys2Proof.Machine.execInternalResetRelease pairOwnHigh s
  | .sysResetSourceActive => Sys2Proof.Machine.execSysResetSourceActive s
  | .sysResetPulseEnd => Sys2Proof.Machine.execSysResetPulseEnd s
  | .coreClockLoss => Sys2Proof.Machine.execCoreClockLoss s
  | .clockResetPulseEnd => Sys2Proof.Machine.execClockResetPulseEnd s
  | .sysrefLost => Sys2Proof.Machine.execSysrefLost s
  | .pllLockLoss pll => Sys2Proof.Machine.execPllLockLoss pll s
  | .lanePllLockLoss group rate => Sys2Proof.Machine.execLanePllLockLoss group rate s
  | .vcoreMiss measured => Sys2Proof.Machine.execVcoreMiss measured s
  | .tempSample tj => Sys2Proof.Machine.execTempSample tj s
  | .domainsOn => Sys2Proof.Machine.execDomainsOn s
  | .pllLock => Sys2Proof.Machine.execPllLock s
  | .startupStepTimeout what => Sys2Proof.Machine.execStartupStepTimeout what s
  | .sramSelfTestDone firmwareMemory pass => Sys2Proof.Machine.execSramSelfTestDone firmwareMemory pass s
  | .owlSelfTestDone pass => Sys2Proof.Machine.execOwlSelfTestDone pass s
  | .dramTrainingDone pass => Sys2Proof.Machine.execDramTrainingDone pass s
  | .denReferenceSettled den => Sys2Proof.Machine.execDenReferenceSettled den s
  | .denReferenceTimeout den => Sys2Proof.Machine.execDenReferenceTimeout den s
  | .interpolatorCalDone hits => Sys2Proof.Machine.execInterpolatorCalDone hits s
  | .bootFlashReadDone image => Sys2Proof.Machine.execBootFlashReadDone image s
  | .bootFlashNoResponse => Sys2Proof.Machine.execBootFlashNoResponse s
  | .firmwareStart => Sys2Proof.Machine.execFirmwareStart s
  | .bootConfigReadDone copyA copyB => Sys2Proof.Machine.execBootConfigReadDone copyA copyB s
  | .startupPlanActivate => Sys2Proof.Machine.execStartupPlanActivate s
  | .frontEndEnable => Sys2Proof.Machine.execFrontEndEnable s
  | .warmUpComplete => Sys2Proof.Machine.execWarmUpComplete s
  | .sysInfo p => Sys2Proof.Machine.execSysInfo p s
  | .sysModeSet p => Sys2Proof.Machine.execSysModeSet p s
  | .sysReset p => Sys2Proof.Machine.execSysReset p s
  | .sysEventsRead p => Sys2Proof.Machine.execSysEventsRead p s
  | .sysConfigRead p => Sys2Proof.Machine.execSysConfigRead p s
  | .afeConfig p => Sys2Proof.Machine.execAfeConfig p s
  | .afeRange p => Sys2Proof.Machine.execAfeRange p s
  | .excConfig p => Sys2Proof.Machine.execExcConfig p s
  | .afeDiag p => Sys2Proof.Machine.execAfeDiag p s
  | .afeDiagTestDone ch rPair overloaded => Sys2Proof.Machine.execAfeDiagTestDone ch rPair overloaded s
  | .convMode p => Sys2Proof.Machine.execConvMode p s
  | .convInject p => Sys2Proof.Machine.execConvInject p s
  | .calStart p => Sys2Proof.Machine.execCalStart p s
  | .calPoint p => Sys2Proof.Machine.execCalPoint p s
  | .calPointDone ch => Sys2Proof.Machine.execCalPointDone ch s
  | .calCommit p => Sys2Proof.Machine.execCalCommit p s
  | .calRead p => Sys2Proof.Machine.execCalRead p s
  | .rawTap p => Sys2Proof.Machine.execRawTap p s
  | .fltPreset p => Sys2Proof.Machine.execFltPreset p s
  | .fltCoefLoad p => Sys2Proof.Machine.execFltCoefLoad p s
  | .fltStart p => Sys2Proof.Machine.execFltStart p s
  | .fltStop p => Sys2Proof.Machine.execFltStop p s
  | .fltGrowth p => Sys2Proof.Machine.execFltGrowth p s
  | .fltStartEffect sett => Sys2Proof.Machine.execFltStartEffect sett s
  | .fltStopEffect sett => Sys2Proof.Machine.execFltStopEffect sett s
  | .planWrite p => Sys2Proof.Machine.execPlanWrite p s
  | .planValidate p => Sys2Proof.Machine.execPlanValidate p s
  | .planSwap p => Sys2Proof.Machine.execPlanSwap p s
  | .planRead p => Sys2Proof.Machine.execPlanRead p s
  | .planStatus p => Sys2Proof.Machine.execPlanStatus p s
  | .planSwapEdge => Sys2Proof.Machine.execPlanSwapEdge s
  | .planFrameBoundary frac => Sys2Proof.Machine.execPlanFrameBoundary frac s
  | .excOn idx => Sys2Proof.Machine.execExcOn idx s
  | .excOff idx => Sys2Proof.Machine.execExcOff idx s
  | .burst idx => Sys2Proof.Machine.execBurst idx s
  | .burstComplete sett inputs => Sys2Proof.Machine.execBurstComplete sett inputs s
  | .latch idx => Sys2Proof.Machine.execLatch idx s
  | .range idx => Sys2Proof.Machine.execRange idx s
  | .rangeBlankingEnd ch => Sys2Proof.Machine.execRangeBlankingEnd ch s
  | .injectSlot idx => Sys2Proof.Machine.execInjectSlot idx s
  | .injectionResult ch input => Sys2Proof.Machine.execInjectionResult ch input s
  | .calPendingFrameEnd ch => Sys2Proof.Machine.execCalPendingFrameEnd ch s
  | .calStep idx => Sys2Proof.Machine.execCalStep idx s
  | .refCompareDone den ppm => Sys2Proof.Machine.execRefCompareDone den ppm s
  | .pulseWin idx => Sys2Proof.Machine.execPulseWin idx s
  | .mark idx => Sys2Proof.Machine.execMark idx s
  | .calAdjustInterval ch => Sys2Proof.Machine.execCalAdjustInterval ch s
  | .calTimeout ch => Sys2Proof.Machine.execCalTimeout ch s
  | .firTickGroup sett beyond => Sys2Proof.Machine.execFirTickGroup sett beyond s
  | .bearRetimeRelease sett => Sys2Proof.Machine.execBearRetimeRelease sett s
  | .modulatorInstability ch => Sys2Proof.Machine.execModulatorInstability ch s
  | .modulatorRecoveryEnd ch => Sys2Proof.Machine.execModulatorRecoveryEnd ch s
  | .commonModeFaultOnset ch detector => Sys2Proof.Machine.execCommonModeFaultOnset ch detector s
  | .commonModeFaultClear ch detector => Sys2Proof.Machine.execCommonModeFaultClear ch detector s
  | .ocTrip sett => Sys2Proof.Machine.execOcTrip sett s
  | .regLost sett => Sys2Proof.Machine.execRegLost sett s
  | .regLostClear sett => Sys2Proof.Machine.execRegLostClear sett s
  | .contention sett => Sys2Proof.Machine.execContention sett s
  | .contentionClear sett => Sys2Proof.Machine.execContentionClear sett s
  | .denExcCurrentFault den => Sys2Proof.Machine.execDenExcCurrentFault den s
  | .filterEngineError sett => Sys2Proof.Machine.execFilterEngineError sett s
  | .settRestart sett => Sys2Proof.Machine.execSettRestart sett s
  | .rawAccWindowEnd ch => Sys2Proof.Machine.execRawAccWindowEnd ch s
  | .tkAlignStop => Sys2Proof.Machine.execTkAlignStop s
  | .tkAlignLoad => Sys2Proof.Machine.execTkAlignLoad s
  | .tkAlignResume => Sys2Proof.Machine.execTkAlignResume s
  | .timeRead p => Sys2Proof.Machine.execTimeRead p s
  | .timeServoConfig p => Sys2Proof.Machine.execTimeServoConfig p s
  | .timeRole p => Sys2Proof.Machine.execTimeRole p s
  | .timeStepPolicy p => Sys2Proof.Machine.execTimeStepPolicy p s
  | .delayTapSet p => Sys2Proof.Machine.execDelayTapSet p s
  | .delayTapAdjust sett => Sys2Proof.Machine.execDelayTapAdjust sett s
  | .syncInterval port => Sys2Proof.Machine.execSyncInterval port s
  | .syncRx port t2 t3 => Sys2Proof.Machine.execSyncRx port t2 t3 s
  | .syncFuRx port fu => Sys2Proof.Machine.execSyncFuRx port fu s
  | .delayReqRx port t4 => Sys2Proof.Machine.execDelayReqRx port t4 s
  | .delayRespRx port t4 => Sys2Proof.Machine.execDelayRespRx port t4 s
  | .parentLoss => Sys2Proof.Machine.execParentLoss s
  | .parentReselect port => Sys2Proof.Machine.execParentReselect port s
  | .leaderServoUpdate => Sys2Proof.Machine.execLeaderServoUpdate s
  | .holdoverExpiry => Sys2Proof.Machine.execHoldoverExpiry s
  | .timeMapInterval => Sys2Proof.Machine.execTimeMapInterval s
  | .ppsEdge stamp => Sys2Proof.Machine.execPpsEdge stamp s
  | .ptpAnnounceRx a => Sys2Proof.Machine.execPtpAnnounceRx a s
  | .ptpSyncRx port clockId seq stamp => Sys2Proof.Machine.execPtpSyncRx port clockId seq stamp s
  | .ptpFollowUpRx port clockId seq origin => Sys2Proof.Machine.execPtpFollowUpRx port clockId seq origin s
  | .ptpDelayRespRx port clockId seq sent receive => Sys2Proof.Machine.execPtpDelayRespRx port clockId seq sent receive s
  | .sourceLost => Sys2Proof.Machine.execSourceLost s
  | .tdcConfig p => Sys2Proof.Machine.execTdcConfig p s
  | .tdcWindow p => Sys2Proof.Machine.execTdcWindow p s
  | .tdcRead p => Sys2Proof.Machine.execTdcRead p s
  | .tdcCal p => Sys2Proof.Machine.execTdcCal p s
  | .tdcCalDone input hits => Sys2Proof.Machine.execTdcCalDone input hits s
  | .edgeInput input rising stamp => Sys2Proof.Machine.execEdgeInput input rising stamp s
  | .elecChangeEnd input => Sys2Proof.Machine.execElecChangeEnd input s
  | .muWindowClose mu => Sys2Proof.Machine.execMuWindowClose mu s
  | .muHeldStopExpiry mu => Sys2Proof.Machine.execMuHeldStopExpiry mu s
  | .tdcTrackUpdate id codes inl => Sys2Proof.Machine.execTdcTrackUpdate id codes inl s
  | .trackStarved input => Sys2Proof.Machine.execTrackStarved input s
  | .edgeLossEntry input => Sys2Proof.Machine.execEdgeLossEntry input s
  | .quadConfig p => Sys2Proof.Machine.execQuadConfig p s
  | .quadStatus p => Sys2Proof.Machine.execQuadStatus p s
  | .quadWindowEnd slot fit => Sys2Proof.Machine.execQuadWindowEnd slot fit s
  | .quadAdjustInterval slot => Sys2Proof.Machine.execQuadAdjustInterval slot s
  | .prjDefine p => Sys2Proof.Machine.execPrjDefine p s
  | .prjEnable p => Sys2Proof.Machine.execPrjEnable p s
  | .prjEnableEffect => Sys2Proof.Machine.execPrjEnableEffect s
  | .accConfig p => Sys2Proof.Machine.execAccConfig p s
  | .minmaxRead p => Sys2Proof.Machine.execMinmaxRead p s
  | .prjCompute prj => Sys2Proof.Machine.execPrjCompute prj s
  | .accWindowEnd kind idx => Sys2Proof.Machine.execAccWindowEnd kind idx s
  | .feedReqRx src words => Sys2Proof.Machine.execFeedReqRx src words s
  | .feedRx src words => Sys2Proof.Machine.execFeedRx src words s
  | .subOpen p => Sys2Proof.Machine.execSubOpen p s
  | .subAck p => Sys2Proof.Machine.execSubAck p s
  | .subClose p => Sys2Proof.Machine.execSubClose p s
  | .markSet p => Sys2Proof.Machine.execMarkSet p s
  | .rewind p => Sys2Proof.Machine.execRewind p s
  | .hoardStatus p => Sys2Proof.Machine.execHoardStatus p s
  | .queueConfig p => Sys2Proof.Machine.execQueueConfig p s
  | .tailTimeout stream => Sys2Proof.Machine.execTailTimeout stream s
  | .subSend sub stream readOk => Sys2Proof.Machine.execSubSend sub stream readOk s
  | .ackTimeoutResend sub stream => Sys2Proof.Machine.execAckTimeoutResend sub stream s
  | .spillDrain port replay => Sys2Proof.Machine.execSpillDrain port replay s
  | .spillAgeExpiry port replay => Sys2Proof.Machine.execSpillAgeExpiry port replay s
  | .coderConfig p => Sys2Proof.Machine.execCoderConfig p s
  | .coderStatus p => Sys2Proof.Machine.execCoderStatus p s
  | .decodeTest p => Sys2Proof.Machine.execDecodeTest p s
  | .coderResume sett => Sys2Proof.Machine.execCoderResume sett s
  | .laneConfig p => Sys2Proof.Machine.execLaneConfig p s
  | .laneEq p => Sys2Proof.Machine.execLaneEq p s
  | .lanePrbs p => Sys2Proof.Machine.execLanePrbs p s
  | .laneMargin p => Sys2Proof.Machine.execLaneMargin p s
  | .laneMarginDone port scan => Sys2Proof.Machine.execLaneMarginDone port scan s
  | .laneSleep p => Sys2Proof.Machine.execLaneSleep p s
  | .lanePllLock group rate => Sys2Proof.Machine.execLanePllLock group rate s
  | .laneAcquireDone port coef => Sys2Proof.Machine.execLaneAcquireDone port coef s
  | .blockLock port => Sys2Proof.Machine.execBlockLock port s
  | .blockLockLoss port invalid => Sys2Proof.Machine.execBlockLockLoss port invalid s
  | .lockingTimeout port => Sys2Proof.Machine.execLockingTimeout port s
  | .hiBer port invalid => Sys2Proof.Machine.execHiBer port invalid s
  | .hiBerClear port => Sys2Proof.Machine.execHiBerClear port s
  | .lossOfSignal port => Sys2Proof.Machine.execLossOfSignal port s
  | .laneIntervalEnd port dataBlocks invalid coef => Sys2Proof.Machine.execLaneIntervalEnd port dataBlocks invalid coef s
  | .txQuietEntry port => Sys2Proof.Machine.execTxQuietEntry port s
  | .rxQuietEntry port => Sys2Proof.Machine.execRxQuietEntry port s
  | .wakePatternEnd port => Sys2Proof.Machine.execWakePatternEnd port s
  | .wakeIdleEnd port => Sys2Proof.Machine.execWakeIdleEnd port s
  | .wakeDetect port => Sys2Proof.Machine.execWakeDetect port s
  | .wakeTimeout port => Sys2Proof.Machine.execWakeTimeout port s
  | .txTapStep port => Sys2Proof.Machine.execTxTapStep port s
  | .prbsCheckerLock port => Sys2Proof.Machine.execPrbsCheckerLock port s
  | .prbsCheckerLoss port bits errors => Sys2Proof.Machine.execPrbsCheckerLoss port bits errors s
  | .errorInjection port => Sys2Proof.Machine.execErrorInjection port s
  | .fabJoin p => Sys2Proof.Machine.execFabJoin p s
  | .fabRoute p => Sys2Proof.Machine.execFabRoute p s
  | .fabStatus p => Sys2Proof.Machine.execFabStatus p s
  | .fabConfigPublish p => Sys2Proof.Machine.execFabConfigPublish p s
  | .ethConfig p => Sys2Proof.Machine.execEthConfig p s
  | .frameForward port f => Sys2Proof.Machine.execFrameForward port f s
  | .linkCtlRx port block => Sys2Proof.Machine.execLinkCtlRx port block s
  | .ackWaitExpiry port cls => Sys2Proof.Machine.execAckWaitExpiry port cls s
  | .frameAgeDiscard port cls => Sys2Proof.Machine.execFrameAgeDiscard port cls s
  | .portFrameStart port => Sys2Proof.Machine.execPortFrameStart port s
  | .beaconTx => Sys2Proof.Machine.execBeaconTx s
  | .beaconRx port f => Sys2Proof.Machine.execBeaconRx port f s
  | .memberTimeout hub => Sys2Proof.Machine.execMemberTimeout hub s
  | .electionTick => Sys2Proof.Machine.execElectionTick s
  | .joinSettle => Sys2Proof.Machine.execJoinSettle s
  | .configImgRx offset words applyTk => Sys2Proof.Machine.execConfigImgRx offset words applyTk s
  | .fabConfigApply => Sys2Proof.Machine.execFabConfigApply s
  | .replyRx session reqId bytes => Sys2Proof.Machine.execReplyRx session reqId bytes s
  | .forwardTimeout session reqId => Sys2Proof.Machine.execForwardTimeout session reqId s
  | .udpDatagramRx port d => Sys2Proof.Machine.execUdpDatagramRx port d s
  | .arpRx port a => Sys2Proof.Machine.execArpRx port a s
  | .arpRefresh => Sys2Proof.Machine.execArpRefresh s
  | .icmpEchoRx port srcIp dstIp ident seq data => Sys2Proof.Machine.execIcmpEchoRx port srcIp dstIp ident seq data s
  | .safeParamWrite p => Sys2Proof.Machine.execSafeParamWrite p s
  | .safeCommission p => Sys2Proof.Machine.execSafeCommission p s
  | .safeStatus p => Sys2Proof.Machine.execSafeStatus p s
  | .safePulseConfig p => Sys2Proof.Machine.execSafePulseConfig p s
  | .safeResetReq p => Sys2Proof.Machine.execSafeResetReq p s
  | .owlCycle si sofb selfTestOk => Sys2Proof.Machine.execOwlCycle si sofb selfTestOk s
  | .monitorInvalidTrip mon => Sys2Proof.Machine.execMonitorInvalidTrip mon s
  | .monitorPlausTrip mon => Sys2Proof.Machine.execMonitorPlausTrip mon s
  | .siFilterChange si => Sys2Proof.Machine.execSiFilterChange si s
  | .siDisc pair => Sys2Proof.Machine.execSiDisc pair s
  | .soReadbackFailure so => Sys2Proof.Machine.execSoReadbackFailure so s
  | .offPulseDue so => Sys2Proof.Machine.execOffPulseDue so s
  | .offPulseStart so => Sys2Proof.Machine.execOffPulseStart so s
  | .offPulseEnd so tFall tRise => Sys2Proof.Machine.execOffPulseEnd so tFall tRise s
  | .owlWatchdogExpiry => Sys2Proof.Machine.execOwlWatchdogExpiry s
  | .safetyDataTx conn => Sys2Proof.Machine.execSafetyDataTx conn s
  | .safetyDataExtraTx conn => Sys2Proof.Machine.execSafetyDataExtraTx conn s
  | .safetyDataRx w0 w1 w2 w3 => Sys2Proof.Machine.execSafetyDataRx w0 w1 w2 w3 s
  | .safetyConnLoss conn => Sys2Proof.Machine.execSafetyConnLoss conn s
  | .protPropose p => Sys2Proof.Machine.execProtPropose p s
  | .protConfirm p => Sys2Proof.Machine.execProtConfirm p s
  | .protAbort p => Sys2Proof.Machine.execProtAbort p s
  | .keyInstall p => Sys2Proof.Machine.execKeyInstall p s
  | .fwStage p => Sys2Proof.Machine.execFwStage p s
  | .fwActivate p => Sys2Proof.Machine.execFwActivate p s
  | .firmwareSwitch => Sys2Proof.Machine.execFirmwareSwitch s
  | .sessionOpen p => Sys2Proof.Machine.execSessionOpen p s
  | .sessionClose p => Sys2Proof.Machine.execSessionClose p s
  | .sessionIdleTimeout session => Sys2Proof.Machine.execSessionIdleTimeout session s
  | .proposalExpiry proposal => Sys2Proof.Machine.execProposalExpiry proposal s
  | .lockoutEnd slot => Sys2Proof.Machine.execLockoutEnd slot s
  | .debugAccessEnd => Sys2Proof.Machine.execDebugAccessEnd s
  | .pairConfig p => Sys2Proof.Machine.execPairConfig p s
  | .pairStatus p => Sys2Proof.Machine.execPairStatus p s
  | .pairCheckpointNow p => Sys2Proof.Machine.execPairCheckpointNow p s
  | .pairYield p => Sys2Proof.Machine.execPairYield p s
  | .yieldDrainEnd => Sys2Proof.Machine.execYieldDrainEnd s
  | .yieldRelease => Sys2Proof.Machine.execYieldRelease s
  | .heartbeatTx => Sys2Proof.Machine.execHeartbeatTx s
  | .heartbeatRx frame => Sys2Proof.Machine.execHeartbeatRx frame s
  | .heartbeatLoss => Sys2Proof.Machine.execHeartbeatLoss s
  | .partnerOverdue => Sys2Proof.Machine.execPartnerOverdue s
  | .takeoverWake => Sys2Proof.Machine.execTakeoverWake s
  | .takeoverClaim => Sys2Proof.Machine.execTakeoverClaim s
  | .takeoverTime => Sys2Proof.Machine.execTakeoverTime s
  | .timeWaitExpiry => Sys2Proof.Machine.execTimeWaitExpiry s
  | .takeoverFront => Sys2Proof.Machine.execTakeoverFront s
  | .takeoverDeferred => Sys2Proof.Machine.execTakeoverDeferred s
  | .checkpointFullDue => Sys2Proof.Machine.execCheckpointFullDue s
  | .checkpointDeltaDue => Sys2Proof.Machine.execCheckpointDeltaDue s
  | .checkpointWriteDone ok => Sys2Proof.Machine.execCheckpointWriteDone ok s
  | .checkpointStale => Sys2Proof.Machine.execCheckpointStale s
  | .standbySyncStart => Sys2Proof.Machine.execStandbySyncStart s
  | .standbySyncDone ownerFwVersion => Sys2Proof.Machine.execStandbySyncDone ownerFwVersion s
  | .standbyTqGiveUp => Sys2Proof.Machine.execStandbyTqGiveUp s
  | .coldNextEnd => Sys2Proof.Machine.execColdNextEnd s
  | .healthReport p => Sys2Proof.Machine.execHealthReport p s
  | .marginPlan p => Sys2Proof.Machine.execMarginPlan p s
  | .chanRetire p => Sys2Proof.Machine.execChanRetire p s
  | .chanRestore p => Sys2Proof.Machine.execChanRestore p s
  | .chanRestoreEffect => Sys2Proof.Machine.execChanRestoreEffect s
  | .countersRead p => Sys2Proof.Machine.execCountersRead p s
  | .countersClear p => Sys2Proof.Machine.execCountersClear p s
  | .marginSample margin value => Sys2Proof.Machine.execMarginSample margin value s
  | .ageingEyeScan port scan => Sys2Proof.Machine.execAgeingEyeScan port scan s
  | .marginDailyFold => Sys2Proof.Machine.execMarginDailyFold s
  | .baselineEnd => Sys2Proof.Machine.execBaselineEnd s
  | .pktWrite bytes => Sys2Proof.Machine.execPktWrite bytes s
  | .rplRead clocked => Sys2Proof.Machine.execRplRead clocked s
  | .badInstr instr addr => Sys2Proof.Machine.execBadInstr instr addr s
  | .regWrite addr words => Sys2Proof.Machine.execRegWrite addr words s
  | .nqPop => Sys2Proof.Machine.execNqPop s
  | .nqFlush => Sys2Proof.Machine.execNqFlush s
  | .longResetClear => Sys2Proof.Machine.execLongResetClear s
  | .tearClear => Sys2Proof.Machine.execTearClear s
  | .wrIgnoredClear => Sys2Proof.Machine.execWrIgnoredClear s
  | .badInstrClear => Sys2Proof.Machine.execBadInstrClear s
  | .eventSummaryClear mask => Sys2Proof.Machine.execEventSummaryClear mask s
  | .cntSelWrite value => Sys2Proof.Machine.execCntSelWrite value s
  | .splitLoRead which => Sys2Proof.Machine.execSplitLoRead which s
  | .splitMidRead which => Sys2Proof.Machine.execSplitMidRead which s
  | .splitLastRead which => Sys2Proof.Machine.execSplitLastRead which s
  | .controlProcessorWatchdogExpiry => Sys2Proof.Machine.execControlProcessorWatchdogExpiry s
  | .pairOwnLow => Sys2Proof.Machine.execPairOwnLow s
  | .rawResult ch volts sense => Sys2Proof.Machine.execRawResult ch volts sense s
  | .lcWrap => Sys2Proof.Machine.execLcWrap s
  | .jtagInstruction op pins => Sys2Proof.Machine.execJtagInstruction op pins s

end Sys2Proof.Machine
end

