-- ==== Sys2Proof/Machine/Step.lean ====
section
/-! DEFINITION. One step of the block: the command at the front of the queue runs, and an idle block lets one TCLK period
pass (log entry 19). -/

namespace Sys2Proof.Machine

/-- The command at the front of the queue is carried out on the state with the rest of the queue; with an empty queue
one TCLK period passes (log entry 19). -/
def step (s : State) : Host.Outcome State Fault Refusal :=
  match s.pending with
  | [] => .next (idle s)
  | i :: rest => exec i { s with pending := rest }

/-- The state with the command that a word spells put at the front of its queue; no word spells one, since
spec/opcode_table.json gives its rows no bits (log entry 3). -/
def State.withFetchWord (s : State) (nbits w : Nat) : State :=
  match decodeTableWord nbits w with
  | some i => { s with pending := i :: s.pending }
  | none => s

end Sys2Proof.Machine
end

