-- ==== Sys2Proof/Safety.lean ====
section
/-! DEFINITION. What counts as a safe run, the form of the sparse memories, and when a request reaches its own checks:
the terms that the claims use. -/

namespace Sys2Proof

/-- A step that answers a next state. -/
def Runs (s : Machine.State) : Prop := ∃ t, Machine.step s = .next t

/-- k steps that all answer a next state. -/
def SafeFor : Nat → Machine.State → Prop
  | 0, _ => True
  | k + 1, s => ∃ t, Machine.step s = .next t ∧ SafeFor k t

/-- The one command without a next state: a debug instruction of the JTAG port (R61). -/
def Instr.isDebugOp : Instr → Bool
  | .jtagInstruction .debugOp _ => true
  | _ => false

namespace Machine

/-- Keys that rise strictly: the canonical form of a sparse memory. -/
abbrev Rising {α : Type} (l : List (Nat × α)) : Prop := l.Pairwise fun a b => a.1 < b.1

/-- The words of a fabric configuration image that is being published or received (R434, R437). -/
def Fab.stagedWords (f : Fab) : List (Nat × Word) := (f.staged.map (·.words)).getD []

/-- The sparse memories in canonical form: both plan banks (R218), the staging copy of the safety parameters (R499), the
staged firmware image (R522) and the staged fabric configuration image (R434). -/
abbrev State.Canonical (s : State) : Prop :=
  (∀ i : Fin 2, Rising (s.plan.banks[i]).words) ∧ Rising s.owl.staged ∧ Rising s.prot.staged ∧ Rising s.fab.stagedWords

/-- Steps 4 to 6 of R450 passed: the context of the request, and the state in which its session has been used (R451,
R452, R454). -/
def authentic (code : Nat) (p : Packet) (s : State) : Option (Ctx × State) :=
  if p.session = 0 then
    if reqAuth p then none else some ({ packet := p, session := none, slot := none, roles := 0, replay := false }, s)
  else
    match (sessionIndex p.session).bind fun i => (s.openSession i).map fun x => (i, x) with
    | none => none
    | some (i, x) =>
      if reqAuth p && !s.lockedOut x.slot && macOk code p x.key then
        some ({ packet := p, session := some i, slot := some x.slot, roles := s.prot.slots[x.slot].roles, replay := false },
          (passAuth x.slot s).modSession i fun y => { y with usedAt := s.lcN })
      else none

/-- Steps 1 to 9 of R450 passed while the firmware runs: the packet is accepted, its session and MAC are good, its cache
has not seen it, fewer than 16 requests are executing and the reserved header fields are 0. The context, and the state
with the request entered in its cache. -/
def admitted (code : Nat) (p : Packet) (s : State) : Option (Ctx × State) :=
  if s.portLive && s.accepting && s.boot.fwRuns && headerClean p then
    (takeUp code p s).bind fun s0 =>
      (authentic code p s0).bind fun (c, s1) =>
        if !s1.resetRepeated code p && lookCache (s1.cacheOf p) p == .fresh && decide (s1.cmd.running.length < 16) then
          some (c, putCache p (enterCache (s1.cacheOf p) p) s1)
        else none
  else none

/-- The reply of a request admitted in state s1: its status and words, sent from the state t that its effect leaves. -/
def replied (code : Nat) (p : Packet) (s1 : State) (status : Nat) (words : List Word) (t : State) : Out :=
  .next (answerWith code p (s1.macKey p) status words t)

/-- The reply comes later (R449): the request is among those executing. -/
def postponed (p : Packet) (t : State) : Out :=
  .next (t.modCmd fun m => { m with running := m.running ++ [{ packet := p }] })

end Machine

end Sys2Proof
end

