-- ==== Sys2Proof/Certificates/Slice0/Obligations.lean ====
section
/-! DEFINITION. The statements about the NH384 for the provers. -/

open Sys2Proof Sys2Proof.Machine

/-- The step of a state whose queue has a front carries out that command on the state with the rest of the queue; on an
empty queue one nanosecond passes, which is the model's choice (log entry 19). -/
def Obligations.FrontCommandRuns : Prop :=
  (∀ (c : Instr) (rest : List Instr) (s : State), s.pending = c :: rest → step s = exec c { s with pending := rest }) ∧
  ∀ s : State, s.pending = [] → step s = .next (idle s)

/-- No command stops the block but a debug instruction of a live JTAG port whose debug access is open (R61). -/
def Obligations.EveryCommandAnswers : Prop :=
  (∀ (c : Instr) (s : State), c.isDebugOp = false → ∃ t, exec c s = .next t) ∧
  ∀ (pins : List Bool) (s : State),
    exec (.jtagInstruction .debugOp pins) s = if s.jtagLive && s.debugOpen then .refused .debugInstruction else .next s

/-- What every step leaves: the factory data, and the queue without its front. -/
def Obligations.CommandKeepsQueueAndDie : Prop :=
  ∀ s t : State, step s = .next t → t.factory = s.factory ∧ t.pending = s.pending.tail

/-- The canonical form of the sparse memories is kept by every step. -/
def Obligations.SparseMemoriesStayCanonical : Prop :=
  ∀ s t : State, s.Canonical → step s = .next t → t.Canonical

/-- The sparse memories of the reset state are empty and canonical. -/
def Obligations.ResetMemoriesCanonical : Prop :=
  State.reset.Canonical ∧ (∀ i : Fin 2, (State.reset.plan.banks[i]).words = []) ∧ State.reset.owl.staged = [] ∧
  State.reset.prot.staged = [] ∧ State.reset.fab.stagedWords = []

/-- Any number of steps from any state whose queue holds no debug instruction. -/
def Obligations.RunsNeverStop : Prop :=
  ∀ (k : Nat) (s : State), (∀ c ∈ s.pending, c.isDebugOp = false) → SafeFor k s

/-- The frame of a notice (R322, R466, R468, R592). -/
def Obligations.NoticesTouchOnlyStreamsAndWindow : Prop :=
  (∀ (s : State) (code : Nat) (body : List Word),
    raise s code body = { s with hoard := (raise s code body).hoard, cmd := (raise s code body).cmd }) ∧
  ∀ (s : State) (code : Nat) (body : List Word), s.boot.fwRuns = false → raise s code body = s

/-- What n nanoseconds do to the state (R86, R226, R229). -/
def Obligations.TimePassesAlone : Prop :=
  ∀ (n : Nat) (s : State),
    (elapse n s).time.aonNs = s.time.aonNs + n ∧
    (elapse n s).time.lc = (if s.time.tclk then s.time.lc + BitVec.ofNat 64 n else s.time.lc) ∧
    (s.time.sclk = false → (elapse n s).time.tk = s.time.tk ∧ (elapse n s).time.tkPhase = s.time.tkPhase) ∧
    (s.time.sclk = true → (elapse n s).time.tkPhase < tickLen) ∧
    elapse n s = { s with time := (elapse n s).time, tdc := (elapse n s).tdc, coders := (elapse n s).coders,
                          hoard := (elapse n s).hoard, cmd := (elapse n s).cmd }

/-- The frame of a reply (R441, R446, R457). -/
def Obligations.RepliesTouchOnlyTheWayOut : Prop :=
  (∀ (code : Nat) (p : Packet) (key : Option (List Byte)) (st : Nat) (ws : List Word) (s : State),
    let t := answerWith code p key st ws s
    t = { s with lanes := t.lanes, fab := t.fab, hoard := t.hoard, cmd := t.cmd }) ∧
  ∀ (code : Nat) (p : Packet) (key : Option (List Byte)) (st : Nat) (ws : List Word) (s : State),
    p.origin = .controlPort →
    let t := answerWith code p key st ws s
    t = { s with cmd := t.cmd } ∧
    t.cmd.replies = s.cmd.replies ++ [replyBytes code p s.fab.hubId st 0 false ws key]

/-- The frame of admission (R450, R454, R456, R520). -/
def Obligations.AdmissionTouchesOnlyTheRequest : Prop :=
  ∀ (code : Nat) (p : Packet) (s s1 : State) (c : Ctx), admitted code p s = some (c, s1) →
    s1 = { s with cmd := s1.cmd, prot := { s.prot with slots := s1.prot.slots } } ∧
    (∀ k : Fin 8, s1.prot.slots[k] = { s.prot.slots[k] with fails := (s1.prot.slots[k]).fails }) ∧
    c.packet = p ∧ (p.session = 0 → s1.prot = s.prot ∧ c.session = none ∧ c.roles = 0)

/-- Steps 7 and 8 of R450 as R456 writes them. -/
def Obligations.ReplayCacheRule : Prop :=
  ∀ (sp : CmdSpec) (c : Ctx) (p : Packet) (s : State), s.resetRepeated sp.code p = false →
    let C := s.cacheOf p
    let high : Word := C.high.getD (p.reqId - 1)
    let age := (high - p.reqId).toNat
    let seen := C.entries.find? fun e => e.reqId == p.reqId
    let key := s.macKey p
    (64 ≤ age ∧ age < 2 ^ 31 → afterAuth sp c p s = early sp.code p stStale key s) ∧
    (¬ (64 ≤ age ∧ age < 2 ^ 31) →
      (∀ e, seen = some e →
        (e.crc ≠ p.crc → afterAuth sp c p s = early sp.code p stBadParam key s) ∧
        (e.crc = p.crc → e.reply = none → afterAuth sp c p s = early sp.code p stInProgress key s) ∧
        ∀ st dropped ws, e.crc = p.crc → e.reply = some (st, dropped, ws) →
          afterAuth sp c p s = sendReply p (replyBytes sp.code p s.fab.hubId stDuplicate st.toNat dropped ws key) s) ∧
      (seen = none → 16 ≤ s.cmd.running.length → afterAuth sp c p s = early sp.code p stRetryLater key s) ∧
      (seen = none → s.cmd.running.length < 16 →
        afterAuth sp c p s = execute sp c p s ∧
        enterCache C p =
          { high := some (if 2 ^ 31 ≤ age then p.reqId else high)
            entries := { reqId := p.reqId, crc := p.crc, reply := none } ::
              C.entries.filter fun e => decide (((if 2 ^ 31 ≤ age then p.reqId else high) - e.reqId).toNat < 64) }))

/-- Steps 11 to 13 of R450, in their order. -/
def Obligations.ChecksBeforeEffect : Prop :=
  ∀ (sp : CmdSpec) (p : Packet) (s s1 : State) (c : Ctx), admitted sp.code p s = some (c, s1) →
    (sp.access c p.params s1 = false → serve sp p s = replied sp.code p s1 stProtected [] s1) ∧
    (sp.access c p.params s1 = true → sp.mode p.params s1 ≠ stOk → serve sp p s = replied sp.code p s1 (sp.mode p.params s1) [] s1) ∧
    (sp.access c p.params s1 = true → sp.mode p.params s1 = stOk → sp.length p.params = false →
      serve sp p s = replied sp.code p s1 stBadLength [] s1)

/-- The rails and HOT_EN (R63, R64, R66, R69 to R71). -/
def Obligations.RailsAndHotEn : Prop :=
  (∀ s : State, s.sup.mode = .off → exec .vddAonGood s = .next
    { s with
      time := { s.time with aonNs := 0 }
      sup := { s.sup with mode := .hibernate, railGood := s.sup.railGood ||| 0x2000, hold := false, seen := 0x05, inReset := true
                          src := { power := true, rail := false, hotEn := true, pin := false, cmd := false, clock := false } } }) ∧
  (∀ s : State, s.sup.mode ≠ .off → ∃ t, exec .vddAonLoss s = .next t ∧ t.sup = State.reset.sup ∧ t.boot = State.reset.boot ∧
    t.pair.slots = s.pair.slots ∧
    t = { State.reset with factory := s.factory, chains := t.chains, lanes := t.lanes, owl := t.owl, pair := t.pair,
                           free := s.free, pending := s.pending }) ∧
  (∀ (r : Fin 13) (s : State), s.sup.mode ≠ .off → s.sup.railGood.getLsbD r.val = false →
    (∀ b : Fin 4, r.val = 9 + b.val → (s.sup.bankLevel[b]).isSome) →
    ∃ t, exec (.railGood r) s = .next t ∧ t.sup.railGood = s.sup.railGood ||| BitVec.ofNat 14 (2 ^ r.val) ∧
      t.sup.src = (if t.sup.railsGood then { s.sup.src with power := false, rail := false } else s.sup.src) ∧
      t = { s with sup := { s.sup with railGood := t.sup.railGood, src := t.sup.src, vcoreMeas := t.sup.vcoreMeas }, free := t.free } ∧
      (r.val ≠ 0 → t.sup.vcoreMeas = s.sup.vcoreMeas ∧ t.free = s.free)) ∧
  (∀ (r : Fin 13) (s : State), s.sup.mode ≠ .off → s.sup.railGood.getLsbD r.val = true →
    ∃ t, exec (.railFail r) s = .next t ∧
      let s1 := resetBy 1 (fun x => { x with rail := true }) s
      t.sup.railGood = s1.sup.railGood &&& ~~~BitVec.ofNat 14 (2 ^ r.val) ∧
      t.sup.firstFail = some (noteRail r.val (aclkPeriod s.time.aonNs) s1.sup.firstFail) ∧
      (∀ b : Fin 4, t.sup.bankLevel[b] = if r.val = 9 + b.val then none else s1.sup.bankLevel[b]) ∧
      t = { s1 with sup := { s1.sup with railGood := t.sup.railGood, firstFail := t.sup.firstFail, bankLevel := t.sup.bankLevel
                                         jtagBalls := if r.val = 0 ∨ r.val = 9 then .functional else s1.sup.jtagBalls } }) ∧
  (∀ (b : Fin 4) (s : State), s.sup.mode ≠ .off → s.sup.bankLevel[b] = none →
    exec (.ioBankLevel3v3 b) s = .next { s with sup := { s.sup with bankLevel := vset s.sup.bankLevel b (some true) } } ∧
    ∃ t, exec (.ioBankLevel1v8 b) s = .next t ∧ t.sup.bankLevel = vset s.sup.bankLevel b (some false) ∧
      t.sup.railGood = s.sup.railGood ||| BitVec.ofNat 14 (2 ^ (9 + b.val)) ∧
      t.sup.src = (if t.sup.railsGood then { s.sup.src with power := false, rail := false } else s.sup.src) ∧
      t = { s with sup := { s.sup with bankLevel := t.sup.bankLevel, railGood := t.sup.railGood, src := t.sup.src } }) ∧
  (∀ s : State, s.sup.mode ≠ .off → ∃ t, exec .hotEnLow s = .next t ∧
    let s1 := resetBy 2 (fun x => { x with hotEn := true }) s
    t = { s1 with sup := { s1.sup with hotLevel := false, hotQualified := false } }) ∧
  (∀ s : State, s.sup.mode ≠ .off → s.sup.hotQualified = false → exec .hotEnQualified s = .next
    { s with sup := { s.sup with hotLevel := true, hotQualified := true, hold := false, src := { s.sup.src with hotEn := false } } })

/-- A reset source becomes active (R71, R72). -/
def Obligations.ResetLosesEveryDomainButAon : Prop :=
  (∀ (n : Nat) (f : Sources → Sources) (s : State), s.sup.inReset = false →
    let t := resetBy n f s
    t.sup.mode = .hibernate ∧ t.sup.inReset = true ∧ t.sup.seen = BitVec.ofNat 6 (2 ^ n) ∧ t.sup.src = f s.sup.src ∧
    t.sup.straps = { s.sup.straps with latched := false } ∧ t.sup.resetCauses = s.sup.resetCauses ∧
    t.sup.startCount = s.sup.startCount ∧ t.sup.lastSysReset = s.sup.lastSysReset ∧
    t.time.tclk = false ∧ t.time.sclk = false ∧ t.time.aonNs = s.time.aonNs ∧
    t.pair.slots = s.pair.slots ∧ t.pair.ownWords = s.pair.ownWords ∧ t.boot.fwRuns = false ∧
    (∀ k : Fin 8, t.prot.slots[k] = { KeySlot.reset with fails := (s.prot.slots[k]).fails, lockedUntil := (s.prot.slots[k]).lockedUntil }) ∧
    t = { State.reset with factory := s.factory, sup := t.sup, boot := t.boot, time := t.time, chains := t.chains, lanes := t.lanes,
                           owl := t.owl, prot := t.prot, pair := t.pair, free := s.free, pending := s.pending }) ∧
  ∀ (n : Nat) (f : Sources → Sources) (s : State), s.sup.inReset = true →
    resetBy n f s = { s with sup := { s.sup with src := f s.sup.src, seen := s.sup.seen ||| BitVec.ofNat 6 (2 ^ n)
                                                 straps := { s.sup.straps with latched := false } } }

/-- The reset sources and the release (R29, R57, R71, R75, R77, R78, R80, R83). -/
def Obligations.ResetSourcesAndRelease : Prop :=
  (∀ s : State, s.sup.mode ≠ .off → s.sup.src.pin = false →
    exec .resetNAssert s = .next (resetBy 3 (fun x => { x with pin := true }) s)) ∧
  (∀ (n : Nat) (s : State), s.sup.src.pin = true → ∃ t, exec (.resetNRelease n) s = .next t ∧
    (t.sup.longReset = true ↔ s.sup.longReset = true ∨ 163840 ≤ n) ∧
    (t.sup.longNoticeDue = true ↔ s.sup.longNoticeDue = true ∨ 163840 ≤ n) ∧
    t = { s with sup := { s.sup with src := { s.sup.src with pin := false }, hold := false, longReset := t.sup.longReset
                                     longNoticeDue := t.sup.longNoticeDue } }) ∧
  (∀ (pr ft : Bool) (bs : BitVec 2) (s : State), s.sup.inReset = true → s.sup.mode ≠ .off → s.sup.src.pin = false →
    s.sup.straps.latched = false → (s.sup.seen.getLsbD 3 = true ∨ s.sup.src.ended = true) →
    exec (.strapSample pr bs ft) s = .next
      { s with sup := { s.sup with straps := { pairRole := pr, bootSrc := bs, factoryTest := ft, latched := true } } }) ∧
  (∀ (high : Bool) (s : State), s.sup.inReset = true → s.sup.mode ≠ .off → s.sup.src.ended = true → s.sup.straps.latched = true →
    ∃ t, exec (.internalResetRelease high) s = .next t ∧ t.sup.resetCauses = s.sup.seen.setWidth 7 ∧ t.sup.inReset = false ∧
      t.sup.railId = (if s.sup.seen.getLsbD 1 then BitVec.ofNat 4 ((s.sup.firstFail.map (·.1)).getD 0) else 0) ∧
      t.pair.ownLine = high ∧ t.pair.standby = s.sup.straps.pairRole ∧
      (s.sup.startConditions true = true → t.sup.mode = .startup ∧ t.sup.startCount = satInc s.sup.startCount ∧
        t.sup.resetEntry = (if s.sup.lastSysReset.isSome && s.sup.resetEntry.isNone then some s.time.aonNs else s.sup.resetEntry) ∧ (high = true → t.pair.syncing = true ∧ t.boot.takeStep = 0xE)) ∧
      (s.sup.startConditions true = false → t.sup.mode = s.sup.mode ∧ t.sup.startCount = s.sup.startCount) ∧
      t = { s with sup := t.sup, boot := t.boot, pair := t.pair }) ∧
  (∀ (p : Packet) (s s1 : State) (c : Ctx), admitted 0x0102 p s = some (c, s1) → accEng c = true → p.params.length = 1 →
    resv (pw p.params 0) 31 1 = true → (bit (pw p.params 0) 0 = true ∨ s1.pair.paired = false) → s1.sup.sysResetDue = none →
    exec (.sysReset p) s = replied 0x0102 p s1 stOk []
      { s1 with sup := { s1.sup with sysResetDue := some (bit (pw p.params 0) 0, s1.time.aonNs + 1000000)
                                     lastSysReset := some c.packet.reqId, resetEntry := none } }) ∧
  (∀ (restart : Bool) (due : Nat) (s : State), s.sup.sysResetDue = some (restart, due) → ∃ t, exec .sysResetSourceActive s = .next t ∧
    let s1 := resetBy 4 (fun x => { x with cmd := true }) (atAon due s)
    t = { s1 with sup := { s1.sup with pulseEnd := (atAon due s).time.aonNs + 10000, hold := s1.sup.hold || !restart } }) ∧
  (∀ s : State, s.sup.src.cmd = true → exec .sysResetPulseEnd s = .next
    { atAon s.sup.pulseEnd s with sup := { s.sup with src := { s.sup.src with cmd := false } } }) ∧
  (∀ s : State, s.sup.mode ≠ .off → s.sup.pllLocked.getLsbD 2 = true → ∃ t, exec .coreClockLoss s = .next t ∧
    let s1 := resetBy 5 (fun x => { x with clock := true }) s
    t = { s1 with sup := { s1.sup with pulseEnd := s.time.aonNs + 10000 } }) ∧
  ∀ s : State, s.sup.src.clock = true → exec .clockResetPulseEnd s = .next
    { atAon s.sup.pulseEnd s with sup := { s.sup with src := { s.sup.src with clock := false } } }

/-- Clocks and temperature (R33, R67, R82, R83, R85, R573). -/
def Obligations.ClocksAndTemperature : Prop :=
  (∀ s : State, s.served = true → s.sup.sysrefOk = true → exec .sysrefLost s = .next
    (chipFault 0x05 { s with sup := { s.sup with sysrefOk := false, pllLocked := s.sup.pllLocked &&& 0xC } })) ∧
  (∀ (pll : Pll) (s : State), s.served = true → s.sup.pllLocked.getLsbD (pllBit pll) = true →
    exec (.pllLockLoss pll) s = .next (chipFault (match pll with | .time => 0x01 | .sampling => 0x02 | .memory => 0x04)
      { s with sup := { s.sup with pllLocked := s.sup.pllLocked &&& ~~~BitVec.ofNat 4 (2 ^ pllBit pll) } })) ∧
  (∀ (g : Fin 2) (rate : Bool) (s : State), s.lanes.pll[pllIndex g.val rate] = true → ∃ t, exec (.lanePllLockLoss g rate) s = .next t ∧
    t = forEach allPorts (fun s p =>
        if (s.lane p).rx ≠ .off ∧ p.val / 16 = g.val ∧ (s.lane p).rate = rate then (retrain p s).modLane p fun l => { l with rx := .pll } else s)
      { s with lanes := { s.lanes with pll := vset s.lanes.pll (pllIndex g.val rate) false } } ∧
    t = { s with lanes := t.lanes, fab := t.fab, hoard := t.hoard, cmd := t.cmd, free := t.free }) ∧
  (∀ (m : Byte) (a : Nat) (s : State), s.health.vcoreAt = some a →
    let s1 := atAon (a + 100000000) s
    (vcoreNear s.sup.vcoreReq m = true → exec (.vcoreMiss m) s = .next
      { s1 with sup := { s1.sup with vcoreMeas := m }, health := { s1.health with vcoreAt := none } }) ∧
    (vcoreNear s.sup.vcoreReq m = false → ∃ t, exec (.vcoreMiss m) s = .next t ∧ t.sup = { s.sup with vcoreMeas := m } ∧
      t.health.vcoreFailed = true ∧ t.health.vcoreAt = none ∧
      t.sup.vcoreReq = s.sup.vcoreReq ∧ t.plan = s.plan ∧ t.owl = s.owl ∧ t.pending = s.pending)) ∧
  ∀ (tj : BitVec 16) (s : State), s.served = true →
    let s1 := atAon (s.sup.tempAt + 1000000) s
    let trip : Int := if s.factory.industrial then 1760 else 1600
    let hi := if trip ≤ tj.toInt then min 8 (s.sup.tjHigh + 1) else 0
    let lo := if tj.toInt < trip - 160 then min 8 (s.sup.tjLow + 1) else 0
    let hot := if hi = 8 then true else if lo = 8 then false else s.sup.overtemp
    exec (.tempSample tj) s = .next (judgeTherm { s1 with
      sup := { s.sup with tj := tj, tjHigh := hi, tjLow := lo, tjSamples := min 8 (s.sup.tjSamples + 1), overtemp := hot
                          tempAt := s1.time.aonNs
                          causes := if hot then s.sup.causes else s.sup.causes &&& ~~~causeBit 1 } })

/-- SYS_MODE_SET (R30, R32 to R35). -/
def Obligations.ModeSet : Prop :=
  ∀ (p : Packet) (s s1 : State) (c : Ctx), admitted 0x0101 p s = some (c, s1) → p.params.length = 1 →
    ¬ (s1.sup.mode = .safeCore ∧ s1.sup.safeAt = some s1.time.aonNs) →
    let w := pw p.params 0
    let target := bits w 3 0
    (if target = 5 then accEng c else accOp c) = true → resv w 31 4 = true →
    ((target = 1 ∧ s1.sup.mode = .service ∧ s1.pair.paired = false) ∨
     (target = 3 ∧ (s1.sup.mode = .service ∨ (s1.sup.mode = .test ∧ s1.prot.debugUntil = none) ∨
        (s1.sup.mode = .safeCore ∧ s1.sup.causes &&& 0xE = 0))) ∨
     (target = 4 ∧ (s1.working = true ∨ s1.sup.mode = .safeCore)) ∨
     (target = 5 ∧ s1.sup.mode = .service)) →
    let t :=
      if target = 1 then (enterHibernate s1).modSup fun u => { u with hold := true }
      else if target = 3 then
        if s1.sup.mode = .test then leaveTest s1 else if s1.sup.mode = .safeCore then leaveSafe s1 else s1
      else if target = 4 then enterSafe 0 s1
      else enterTest s1
    s1.breaksLimits t = false →
    exec (.sysModeSet p) s = replied 0x0101 p s1 stOk [t.modeStatus] t

/-- Steps 0x2 to 0x4 (R85 to R88, R90, R93, R260, R491). The failure code of step 0x2 is free (log entry 12).
That the hub leads itself from the release of its clocks is the model's reading (log entry 195), and so are which PLLs a late
one finds locked (log entry 207) and the code of a late flash (log entry 204). -/
def Obligations.StartupHardwareSteps : Prop :=
  (∀ s : State, s.booting = true → s.boot.domains = false → exec .domainsOn s = .next { s with boot := { s.boot with domains := true } }) ∧
  (∀ s : State, s.booting = true → s.boot.domains = true → s.boot.plls = false → s.sup.sysrefOk = true →
    exec .pllLock s = .next (leadTime { s with
      boot := { s.boot with plls := true }
      sup := { s.sup with pllLocked := 0xF }
      time := { s.time with tclk := true, sclk := true, lc := 0, tk := 0, tkPhase := 0 }
      fab := { s.fab with leads := true, leader := s.fab.hubId } })) ∧
  (∀ s : State, s.booting = true → s.boot.plls = true → s.boot.fwMem = false →
    exec (.sramSelfTestDone true false) s = .next (failStart 0x10 s) ∧
    let s1 := { s with boot := { s.boot with fwMem := true } }
    exec (.sramSelfTestDone true true) s = .next (
      if s.sup.straps.bootSrc = 1 then { s1 with boot := { s1.boot with waitHost := true, failCode := 0x00 } }
      else if s.sup.straps.bootSrc = 3 then failStart 0x22 s1 else s1)) ∧
  (∀ s : State, s.booting = true → s.boot.plls = true → s.boot.fwMem = true → s.boot.sram = false →
    exec (.sramSelfTestDone false false) s = .next (failStart 0x10 s) ∧
    exec (.sramSelfTestDone false true) s = .next { s with boot := { s.boot with sram := true } }) ∧
  (∀ s : State, s.booting = true → s.boot.plls = true → s.boot.owlTest = false →
    exec (.owlSelfTestDone true) s = .next { s with boot := { s.boot with owlTest := true } } ∧
    exec (.owlSelfTestDone false) s = .next (owlFailure s)) ∧
  (∀ s : State, (s.booting = true ∨ s.deferring = true) → s.boot.plls = true → s.boot.dram = false →
    exec (.dramTrainingDone true) s = .next { s with boot := { s.boot with dram := true } } ∧
    exec (.dramTrainingDone false) s = .next (failStart 0x11 s)) ∧
  (∀ (d : DenId) (s : State), s.served = true → s.boot.plls = true → (s.dens[d]).settled = false →
    exec (.denReferenceSettled d) s = .next { s with
      dens := vmod s.dens d fun x => { x with settled := true }
      boot := { s.boot with dens := s.boot.dens ||| BitVec.ofNat 4 (2 ^ d.val) } }) ∧
  (∀ (d : DenId) (s : State), s.booting = true → s.boot.plls = true → s.boot.dens.getLsbD d.val = false →
    ∃ t, exec (.denReferenceTimeout d) s = .next t ∧
      let s1 := isolateDen d (raiseDenFaultFree s d 0)
      t = { s1 with boot := { s1.boot with dens := s1.boot.dens ||| BitVec.ofNat 4 (2 ^ d.val) } }) ∧
  (∀ (hits : List (List Nat)) (s : State), (s.booting = true ∨ s.deferring = true) → s.boot.plls = true → s.boot.interp = false →
    ((hits.length ≠ 66 ∨ hits.any histBad = true) → exec (.interpolatorCalDone hits) s = .next (failStart 0x13 s)) ∧
    (hits.length = 66 → hits.any histBad = false → ∃ t, exec (.interpolatorCalDone hits) s = .next t ∧
      (∀ i : Fin 66, t.tdc.maps[i] = histMap (hits.getD i.val []) ∧ t.tdc.inl[i] = mapInl (histMap (hits.getD i.val []))) ∧
      t = { s with tdc := { s.tdc with maps := t.tdc.maps, inl := t.tdc.inl }, boot := { s.boot with interp := true } })) ∧
  ∀ (w : StepFault) (s : State), s.overdue w = true → ∃ t, exec (.startupStepTimeout w) s = .next t ∧
    (w = .timePll → t = failStart (if s.sup.sysrefOk then 0x01 else 0x05) (releaseBefore w s)) ∧
    (w = .samplingPll → t = failStart (if s.sup.sysrefOk then 0x02 else 0x05) (releaseBefore w s)) ∧
    (w = .corePll → t = failStart 0x03 s) ∧ (w = .memoryPll → t = failStart 0x04 (releaseBefore w s)) ∧
    (w = .sram → t = failStart 0x10 s) ∧ (w = .dram → t = failStart 0x11 s) ∧
    (w = .owl → t = owlFailure s) ∧ (w = .interpolator → t = failStart 0x13 s) ∧
    (w = .flash → t = if s.sup.straps.bootSrc = 2 then waitStep 0x20 s else failStart 0x20 s) ∧
    (w = .domains → ∃ code, t = failStart code s) ∧
    (w = .takeover → ∃ code, t = failStart code { s with free := s.free + 1 })

/-- Steps 0x5 to 0x7 (R30, R57, R87 to R89, R93, R97, R530, R573, R590, R592). -/
def Obligations.StartupFirmwareAndConfiguration : Prop :=
  (∀ (bytes : List Byte) (s : State), s.readingFlash = true →
    let image := flashPart flashFirmware bytes
    (fwCheck s.secFloor (image.length / 4) (wordsOfBytes image) = 0 → exec (.bootFlashReadDone bytes) s = .next
      { s with boot := { s.boot with fwLoaded := true }
               prot := { s.prot with fwVersion := (pw (wordsOfBytes image) 2).extractLsb' 0 24 } }) ∧
    (fwCheck s.secFloor (image.length / 4) (wordsOfBytes image) ≠ 0 → exec (.bootFlashReadDone bytes) s = .next
      (if s.sup.straps.bootSrc = 2 then { s with boot := { s.boot with waitHost := true, failCode := 0x21 } } else failStart 0x21 s)) ∧
    exec .bootFlashNoResponse s = .next
      (if s.sup.straps.bootSrc = 2 then { s with boot := { s.boot with waitHost := true, failCode := 0x20 } } else failStart 0x20 s)) ∧
  (∀ s : State, (s.booting = true ∨ s.deferring = true) → s.boot.fwLoaded = true → s.boot.fwRuns = false →
    ∃ t, exec .firmwareStart s = .next t ∧ t.boot = { s.boot with fwRuns := true, waitHost := false } ∧
      t.cmd.bootCache = Cache.empty ∧ t.prot = { s.prot with staged := [], stage := .empty, result := 0 } ∧
      t.owl = (if s.boot.takeStep = 0 then { s.owl with running := true, alive := true, cycleAt := s.lcN } else s.owl) ∧
      t.sup = { s.sup with longNoticeDue := false } ∧
      t = { s with boot := t.boot, cmd := t.cmd, prot := t.prot, owl := t.owl, sup := t.sup, hoard := t.hoard, free := t.free }) ∧
  (∀ (x y : List Byte) (s : State), s.wantsPlan = false → s.booting = true → s.boot.fwRuns = true → s.boot.cfgApplied = false →
    s.boot.claimWait = none →
    let a := flashPart flashCopyA x
    let b := flashPart flashCopyB y
    (s.mustClaim a b = false → exec (.bootConfigReadDone x y) s = .next (loadConfig a b s)) ∧
    (bootOrder a b = [] → exec (.bootConfigReadDone x y) s = .next
      { s with boot := { s.boot with cfgApplied := true, waitHost := true, failCode := noCopyCode a b } }) ∧
    (s.mustClaim a b = true → s.pair.ownLine = true → exec (.bootConfigReadDone x y) s = .next
      { s with boot := { s.boot with claimWait := some (a, b) } }) ∧
    (s.mustClaim a b = true → s.pair.ownLine = false → exec (.bootConfigReadDone x y) s = .next
      (loadConfig a b (claimAtBoot { s with boot := { s.boot with claimWait := none } })))) ∧
  (∀ (a b : List Byte) (s : State), s.wantsPlan = true → exec (.bootConfigReadDone a b) s = .next (takeoverPlan (flashPart flashCopyA a) (flashPart flashCopyB b) s)) ∧
  (∀ (e : Nat) (s : State), s.booting = true → s.boot.cfgApplied = true → s.plan.stopped = false → s.plan.active = false →
    s.plan.swap = some e → exec .startupPlanActivate s = .next (activatePlan e s)) ∧
  (∀ s : State, s.readyForFront = true → s.boot.frontOn = false → s.sup.tjSamples = 8 → s.sup.overtemp = false →
    ∃ t, exec .frontEndEnable s = .next t ∧ t.boot = { s.boot with frontOn := true } ∧
      (∀ k : SettId, t.chains[k] = if s.boot.runMask.getLsbD k.val then { s.chains[k] with startAt := some s.nextBoundary } else s.chains[k]) ∧
      t = { s with boot := t.boot, chains := t.chains }) ∧
  (∀ s : State, s.booting = true → s.boot.takeStep = 0 → s.boot.frontOn = true → s.plan.active = true → s.warm = true →
    exec .warmUpComplete s = .next (finishRestore (enterService s))) ∧
  (∀ s : State, s.sup.overtemp = false → (enterService s).sup = { s.sup with mode := .service } ∧
    (enterService s).boot = { s.boot with frozenMs := some (BitVec.ofNat 16 s.elapsedMs), recovery := false, takeStep := 0, runMask := 0 } ∧
    enterService s = { s with sup := (enterService s).sup, boot := (enterService s).boot, hoard := (enterService s).hoard
                              cmd := (enterService s).cmd })

/-- The watchdog and the JTAG port (R20, R61, R93, R519). -/
def Obligations.WatchdogAndJtag : Prop :=
  (∀ s : State, s.served = true → s.boot.plls = true → exec .controlProcessorWatchdogExpiry s = .next
    (if s.sup.mode = .startup ∨ s.boot.recovery = true then failStart 0x14 s else enterSafe 2 s)) ∧
  (∀ (op : JtagOp) (pins : List Bool) (s : State), s.sup.railGood.getLsbD 9 = true → s.sup.railGood.getLsbD 0 = true →
    let drive : JtagBalls → State := fun b => { s with sup := { s.sup with jtagBalls := b } }
    let sample : JtagBalls → State := fun b =>
      { s with sup := { s.sup with jtagBalls := b, jtagCells := pins } }
    (op = .bypass ∨ op = .idcode → exec (.jtagInstruction op pins) s = .next (drive .functional)) ∧
    (op = .samplePreload → exec (.jtagInstruction op pins) s = .next (sample .functional)) ∧
    (op = .extest ∨ op = .intest → exec (.jtagInstruction op pins) s = .next (sample .driven)) ∧
    (op = .clamp → exec (.jtagInstruction op pins) s = .next (drive .driven)) ∧
    (op = .highz → exec (.jtagInstruction op pins) s = .next (drive .highZ)) ∧
    (op = .debugOp → s.debugOpen = false → exec (.jtagInstruction op pins) s = .next s) ∧
    (op = .debugOp → s.debugOpen = true → exec (.jtagInstruction op pins) s = .refused .debugInstruction)) ∧
  ∀ s : State, s.jtagPins = if s.portLive then s.sup.jtagBalls else .functional

/-- Heartbeat and standby (R30, R77, R92, R529, R532, R533, R535 to R537). -/
def Obligations.HeartbeatAndStandby : Prop :=
  (∀ s : State, s.served = true → ∃ t, exec .heartbeatTx s = .next t ∧
    let s1 := atAon (s.pair.hbSentAt + 32000) s
    t = { s1 with pair := { s1.pair with hbSentAt := s1.time.aonNs
                                         hbSent := hbFrame s1.hbState s1.sup.mode.code (if s.pair.owns then bits s.pair.term 7 0 else 0) } }) ∧
  (∀ (f : Word) (s : State), s.sup.mode ≠ .off →
    (hbValid f = false → exec (.heartbeatRx f) s = .next s) ∧
    (hbValid f = true → exec (.heartbeatRx f) s = .next { s with pair := takeFrame s.time.aonNs (bits f 10 8) s.isStandby s.pair })) ∧
  (∀ s : State, s.sup.mode ≠ .off → (s.pair.hbHeard = true ∨ s.pair.armed = true) → ∃ t, exec .heartbeatLoss s = .next t ∧
    let s0 := atAon (s.pair.hbAt + s.pair.lossNs) s
    let s1 := { s0 with pair := { s0.pair with hbHeard := false } }
    (s1.takesOver = true → t = startTakeover s1) ∧
    (s1.takesOver = false → s1.pair.owns = true → s.pair.hbHeard = true →
      (s.pair.partnerSent = 3 → t = { s1 with pair := { s1.pair with partner := .ready } }) ∧
      (s.pair.partnerSent ≠ 3 → t = raise { s1 with pair := { s1.pair with partner := .lost } } 0x0802 [0])) ∧
    (s1.takesOver = false → (s1.pair.owns = false ∨ s.pair.hbHeard = false) → t = s1)) ∧
  (∀ s : State, startTakeover s = { s with
      sup := { s.sup with
        mode := .startup, startCount := satInc s.sup.startCount, resetCauses := 0x40, railId := 0
        resetEntry := if s.sup.lastSysReset.isSome && s.sup.resetEntry.isNone then some s.time.aonNs else s.sup.resetEntry }
      boot := { Startup.reset with releaseAt := s.time.aonNs, takeover := true, recovery := true, takeStep := 9 } }) ∧
  (∀ s : State, s.sup.mode ≠ .off → s.pair.owns = false → ∃ t, exec .pairOwnLow s = .next t ∧
    let s1 := { s with pair := { s.pair with ownLine := false } }
    (s1.takesOver = true → t = startTakeover s1) ∧
    (s1.takesOver = false → s.boot.claimWait = none → t = s1) ∧
    (∀ a b, s1.takesOver = false → s.boot.claimWait = some (a, b) →
      t = loadConfig a b (claimAtBoot { s1 with boot := { s1.boot with claimWait := none } }))) ∧
  (∀ s : State, s.served = true → s.pair.owns = true → s.pair.partner = .ready → ∃ t, exec .partnerOverdue s = .next t ∧
    let s1 := atAon (s.pair.syncSeen + s.pair.resyncNs 1) s
    t = raise { s1 with pair := { s1.pair with partner := .lost } } 0x0802 [1]) ∧
  (∀ s : State, s.isStandby = true → s.sup.inReset = false → s.pair.armed = true → s.sup.startConditions false = true →
    exec .standbySyncStart s = .next
      (enterSync (enterStartup (if s.pair.retainValid then atAon (s.pair.lastSync + s.pair.resyncNs 0) s else s)))) ∧
  (∀ (v : BitVec 24) (l : Member) (s : State), s.syncRan = true → s.pair.coldNext = none → s.pair.unfit = false →
    s.fabricLeader = some l →
    let same := s.prot.fwVersion = v ∧ l.fabGen = s.fabGen ∧ l.digest = s.fabDigest
    (¬ same → exec (.standbySyncDone v) s = .next (beUnfit l s)) ∧
    (same → s.lanesUp = true → (s.time.tq = 3 ∨ s.pair.tqGaveUp = true) → exec (.standbySyncDone v) s = .next
      { s with pair := { s.pair with
          retainValid := true, retainLanes := s.lanes.lanes.map fun x => if x.enable then x.snapshot else none, retainPorts := section06 s
          retainMaps := s.tdc.maps, retainDram := s.boot.dram, lastSync := s.time.aonNs, coldNext := some s.time.aonNs } }) ∧
    (same → (s.lanesUp = false ∨ (s.time.tq ≠ 3 ∧ s.pair.tqGaveUp = false)) → exec (.standbySyncDone v) s = .next s)) ∧
  (∀ s : State, s.syncRan = true → s.pair.tqGaveUp = false → s.time.tq ≠ 3 → ∃ t, exec .standbyTqGiveUp s = .next t ∧
    let s1 := atLc 10000000000 s
    t = { s1 with pair := { s1.pair with tqGaveUp := true } }) ∧
  ∀ (a : Nat) (s : State), s.pair.coldNext = some a → ∃ t, exec .coldNextEnd s = .next t ∧
    let s1 := enterHibernate (atAon (a + 1000000) s)
    t = { s1 with pair := { s1.pair with cold := true } }

/-- The steps of a takeover (R237, R529, R544 to R548). -/
def Obligations.TakeoverSteps : Prop :=
  (∀ s : State, s.atTakeStep 9 = true → s.sup.sysrefOk = true → ∃ t, exec .takeoverWake s = .next t ∧
    (s.pair.retainValid = false → t = { s with
      sup := { s.sup with pllLocked := 0xF }
      boot := { s.boot with domains := true, plls := true, sram := true, owlTest := true, takeStep := 0xA }
      time := { s.time with tclk := true, sclk := true, lc := 0, tk := 0, tkPhase := 0 } }) ∧
    (s.pair.retainValid = true → ∃ u, t = (applySections [(0x06, u.pair.retainPorts)] u).1 ∧ u.pair = s.pair ∧ u.time = { s.time with tclk := true, sclk := true, lc := 0, tk := 0, tkPhase := 0 } ∧
      u.sup = { s.sup with pllLocked := 0xF } ∧ u.boot.takeStep = 0xA ∧
      u.tdc.maps = s.pair.retainMaps ∧ u.boot.dram = s.pair.retainDram ∧ u.boot.interp = true ∧
        ∀ p : Port, (u.lane p) = { s.lane p with snapshot := s.pair.retainLanes[p] })) ∧
  (∀ s : State, s.atTakeStep 0xA = true → s.pair.ownLine = false → ∃ t s1, exec .takeoverClaim s = .next t ∧
    s1.pair.owns = true ∧ s1.pair.ownLine = true ∧ s1.pair.term = BitVec.ofNat 32 (s.pair.topTerm + 1) ∧
    s1.pair.claimAt = s.lcN ∧ s1.pair.takeovers = satInc s.pair.takeovers ∧
    s1 = { s with pair := s1.pair, free := s1.free } ∧
    ((claim s).2 = false → t = withoutCheckpoint 3 s1) ∧
    ((claim s).2 = true → s1.pair.newestFull = none → t = withoutCheckpoint 2 s1) ∧
    ∀ full, (claim s).2 = true → s1.pair.newestFull = some full →
      t.boot.takeStep = 0xB ∧ t.boot.takeAt = s.lcN ∧
      t = { loadPlanSection full.2 (loadResume full s1) with boot := t.boot }) ∧
  (∀ s : State, s.atTakeStep 0xB = true →
    (s.fabricTime = true → exec .takeoverTime s = .next
      { s with boot := { s.boot with takeStep := 0xC }, pair := { s.pair with provisional := false } }) ∧
    ∃ t, exec .timeWaitExpiry s = .next t ∧
      let s1 := atLc (s.boot.takeAt + bits s.pair.word1 15 10 * 1000000) s
      t = { s1 with boot := { s1.boot with takeStep := 0xC } }) ∧
  (∀ s : State, s.atTakeStep 0xC = true → s.plan.shadow.state = .valid → s.plan.stopped = false →
    ∃ t, exec .takeoverFront s = .next t ∧
      let s1 := { s with boot := { s.boot with frontOn := true, takeStep := 0xD } }
      let s2 := forEach s.bootSetts (fun s' k => startSett k s.nextEdge s') (activatePlan s.nextEdge s1)
      t = beginFirmware { s2 with owl := { s2.owl with running := true, alive := true, cycleAt := s2.lcN } }) ∧
  (∀ s : State, s.deferring = true → s.boot.fwRuns = true → s.boot.dram = true → s.boot.interp = true →
    ∃ t, exec .takeoverDeferred s = .next t ∧
      let s1 := loadRest s
      t = finishRestore { s1 with boot := { s1.boot with takeStep := 0, dens := 0xF, cfgApplied := true } }) ∧
  (∀ (r : Realign) (s : State), s.time.realign = some r → r.loaded = true → ∃ t u, exec .tkAlignResume s = .next t ∧
    t = finishRestore u ∧ u.pair = { s.pair with provisional := false } ∧ u.sup = s.sup ∧ u.owl = s.owl ∧ u.pending = s.pending ∧
    u.plan.stopped = false ∧ u.time.realign = none) ∧
  ∀ s : State, s.pair.restore = none → finishRestore s = s

/-- Checkpoints and the yield (R531, R534, R539, R542, R549, R551 to R553). When the reply to a yield is made available is the
model's reading (log entry 186). -/
def Obligations.CheckpointsAndYield : Prop :=
  (∀ s : State, s.writes true = true → ∃ t, exec .checkpointFullDue s = .next t ∧
    let s1 := atLc (s.pair.dueAt.1 + 1000000000) s
    t = askWrite true { s1 with pair := { s1.pair with dueAt := (s1.lcN, s1.pair.dueAt.2) } }) ∧
  (∀ s : State, s.writes false = true → ∃ t, exec .checkpointDeltaDue s = .next t ∧
    let s1 := atLc (s.pair.dueAt.2 + 10000000) s
    t = askWrite false { s1 with pair := { s1.pair with dueAt := (s1.pair.dueAt.1, s1.lcN) } }) ∧
  (∀ (full : Bool) (s : State),
    (s.pair.writing.isSome = true → askWrite full s = { s with pair := { s.pair with
      queued := (s.pair.queued.1 || full, s.pair.queued.2 || !full) } }) ∧
    (s.pair.writing = none → full = false → askWrite full s = beginWrite false s) ∧
    (s.pair.writing = none → full = true → s.displaced = false → askWrite full s = beginWrite true s) ∧
    (s.pair.writing = none → full = true → s.displaced = true → askWrite full s = standDown s)) ∧
  (∀ (c : Checkpoint) (s : State), s.pair.writing = some c →
    let slot := s.pair.slotFor c.isFull
    let s0 := atLc (c.since + 160 * (4 * c.words.length)) s
    let s1 := { s0 with pair := { s.pair with
      writing := none, stale := false, writeSeq := pw c.words 1, slots := vset s.pair.slots slot c.words
      nextSlot := if c.isFull then (!s.pair.nextSlot.1, s.pair.nextSlot.2) else (s.pair.nextSlot.1, !s.pair.nextSlot.2)
      fullAt := if c.isFull then some s0.lcN else s.pair.fullAt, deltaAt := if c.isFull then s.pair.deltaAt else some s0.lcN } }
    exec (.checkpointWriteDone true) s = .next (nextWrite c.isFull (if c.isFull then afterFull c.final s1 else s1)) ∧
    exec (.checkpointWriteDone false) s = .next (nextWrite c.isFull (raise { s0 with pair := { s.pair with
      writing := none, writeFails := satInc s.pair.writeFails, slots := vset s.pair.slots slot [] } } 0x0801 [0]))) ∧
  (∀ s : State, s.served = true → s.time.tclk = true → s.pair.owns = true → s.pair.stale = false → ∃ t, exec .checkpointStale s = .next t ∧
    let s1 := atLc (s.pair.lastWrite + 1000000000) s
    t = raise { s1 with pair := { s1.pair with stale := true } } 0x0801 [1]) ∧
  (∀ (p : Packet) (s s1 : State) (c : Ctx), admitted 0x0F01 p s = some (c, s1) → accAny c = true → p.params = [0] →
    exec (.pairStatus p) s = replied 0x0F01 p s1 stOk (pairStatusWords s1) s1) ∧
  (∀ (p : Packet) (s s1 : State) (c : Ctx), admitted 0x0F02 p s = some (c, s1) → accEng c = true → p.params = [0] →
    s1.pair.owns = true → s1.pair.writingFull = false →
    let s2 := { s1 with pair := { s1.pair with nowReqs := s1.pair.nowReqs ++ [c.replyTo s1] } }
    exec (.pairCheckpointNow p) s = postponed p (if s1.writes true then askWrite true s2 else s2)) ∧
  (∀ (p : Packet) (s s1 : State) (c : Ctx), admitted 0x0F03 p s = some (c, s1) → accEng c = true → p.params = [0] →
    s1.mayYield = true → exec (.pairYield p) s = postponed p (startYield (some (c.replyTo s1)) s1)) ∧
  (∀ s : State, s.pair.yieldStep = .stopping → s.allStopped = true → ∃ t, exec .yieldDrainEnd s = .next t ∧
    let s1 := if s.drained = true ∨ s.pair.yieldReq = none then s else atLc (s.pair.yieldAt + 100000000) s
    t = askWrite true { s1 with pair := { s1.pair with yieldStep := .writing, queued := (s1.pair.queued.1, false) } }) ∧
  (∀ s : State, s.pair.nowReqs = [] →
    let s1 := { s with pair := { s.pair with yieldStep := .sending, yieldAt := s.lcN, queued := (false, false) } }
    afterFull false s = s ∧
    (s.pair.yieldReq = none → afterFull true s = s1) ∧
    ∀ r, s.pair.yieldReq = some r → afterFull true s = answerLater 0x0F03 r stOk [] { s1 with pair := { s1.pair with yieldReq := none } }) ∧
  ∀ s : State, s.pair.yieldStep = .sending → ∃ t, exec .yieldRelease s = .next t ∧
    let s1 := atLc (s.pair.yieldAt + 1000000) s
    t = { enterHibernate s1 with pair := { (enterHibernate s1).pair with cold := true } }

/-- The register window and the control port (R77, R439 to R441, R464, R465, R468). -/
def Obligations.RegisterWindow : Prop :=
  (∀ (v : SplitValue) (s : State), splitLive v s = true → exec (.splitLoRead v) s = .next
    { s with cmd := { s.cmd with
        lastRead := s.windowWord (splitBase v)
        snap := match v with
          | .lc => { s.cmd.snap with lc := some s.time.lc }
          | .tk => { s.cmd.snap with tk := some s.time.tk }
          | .nt => { s.cmd.snap with nt := some (ntWindow s.nt) }
          | .counter => { s.cmd.snap with counter := some s.counterWords } } }) ∧
  (∀ (v : SplitValue) (s : State), splitLive v s = true → (v = .nt ∨ v = .counter) →
    (∀ ws, snapWords s.cmd.snap v = some ws → exec (.splitMidRead v) s = .next { s with cmd := { s.cmd with lastRead := pw ws 1 } }) ∧
    (snapWords s.cmd.snap v = none → exec (.splitMidRead v) s = .next { s with cmd := { s.cmd with
      tear := true, tearAddr := BitVec.ofNat 12 (splitBase v + 4), lastRead := s.windowWord (splitBase v + 4) } })) ∧
  (∀ (v : SplitValue) (s : State), splitLive v s = true →
    (∀ ws, snapWords s.cmd.snap v = some ws → exec (.splitLastRead v) s = .next { s with cmd := { s.cmd with
      lastRead := ws.getLastD 0
      snap := match v with
        | .lc => { s.cmd.snap with lc := none }
        | .tk => { s.cmd.snap with tk := none }
        | .nt => { s.cmd.snap with nt := none }
        | .counter => { s.cmd.snap with counter := none } } }) ∧
    (snapWords s.cmd.snap v = none → exec (.splitLastRead v) s = .next { s with cmd := { s.cmd with
      tear := true, tearAddr := BitVec.ofNat 12 (splitEnd v), lastRead := s.windowWord (splitEnd v) } })) ∧
  (∀ (a : BitVec 12) (ws : List Word) (s : State), s.portLive = true → a.toNat % 4 = 0 →
    exec (.regWrite a ws) s = .next (writeWords a.toNat ws s)) ∧
  (∀ (a : BitVec 12) (ws : List Word) (s : State), s.portLive = true → a.toNat % 4 ≠ 0 →
    exec (.regWrite a ws) s = .next { s with cmd := { s.cmd with badInstr := true } }) ∧
  (∀ (off : Nat) (w : Word) (ws : List Word) (s : State),
    writeWords off [] s = s ∧ writeWords off (w :: ws) s = writeWords ((off + 4) % 4096) ws (writeWord off w s) ∧
    (writable off = none → writeWord off w s = { s with cmd := { s.cmd with wrIgnored := true } }) ∧
    (∀ res hard, writable off = some (res, hard) → (w &&& res ≠ 0 ∨ (hard = false ∧ s.boot.fwRuns = false)) →
      writeWord off w s = { s with cmd := { s.cmd with wrIgnored := true } }) ∧
    (s.boot.fwRuns = true → writeWord 0x034 w s = { s with cmd := { s.cmd with nqFilter := w } })) ∧
  (∀ s : State, s.portLive = true →
    (s.boot.fwRuns = true →
      exec .nqPop s = .next { s with cmd := { s.cmd with nq := s.cmd.nq.drop 1 } } ∧
      exec .nqFlush s = .next { s with cmd := { s.cmd with nq := [], nqLost := 0 } } ∧
      (∀ m, exec (.eventSummaryClear m) s = .next { s with cmd := { s.cmd with eventSummary := s.cmd.eventSummary &&& ~~~m } }) ∧
      ∀ v : Word, v &&& 0xFFFF0000 = 0 → exec (.cntSelWrite v) s = .next
        { s with cmd := { s.cmd with cntSel := v.extractLsb' 0 16, snap := { s.cmd.snap with counter := none } } }) ∧
    (s.boot.fwRuns = false → exec .nqPop s = .next { s with cmd := { s.cmd with wrIgnored := true } } ∧
      exec .nqFlush s = .next { s with cmd := { s.cmd with wrIgnored := true } }) ∧
    exec .longResetClear s = .next { s with sup := { s.sup with longReset := false } } ∧
    exec .tearClear s = .next { s with cmd := { s.cmd with tear := false } } ∧
    exec .wrIgnoredClear s = .next { s with cmd := { s.cmd with wrIgnored := false } } ∧
    exec .badInstrClear s = .next { s with cmd := { s.cmd with badInstr := false, dropped := 0 } }) ∧
  (∀ (i : Byte) (a : BitVec 16) (s : State), s.portLive = true →
    ¬ (i = 0x05 ∨ i = 0x12 ∨ i = 0x13 ∨ ((i = 0x0B ∨ i = 0x02) ∧ a &&& 0xF003 = 0)) →
    exec (.badInstr i a) s = .next { s with cmd := { s.cmd with badInstr := true } }) ∧
  ∀ (n : Nat) (r : List Byte) (rs : List (List Byte)) (s : State), s.portLive = true → s.cmd.replies = r :: rs →
    exec (.rplRead n) s = .next (if r.length ≤ n then { s with cmd := { s.cmd with replies := rs, held := s.cmd.held - 1 } } else s)

/-- Packets and forwarding (R441 to R443, R446, R450, R454, R461). -/
def Obligations.PacketsAndForwarding : Prop :=
  (∀ (bs : List Byte) (s : State), s.portLive = true → s.pktReady = false →
    exec (.pktWrite bs) s = .next { s with cmd := { s.cmd with dropped := satInc s.cmd.dropped } }) ∧
  (∀ (bs : List Byte) (s : State), s.portLive = true → s.pktReady = true →
    let q := parsePacket .controlPort none bs
    let s1 := { s with cmd := { s.cmd with held := s.cmd.held + 1 } }
    let here := reqLocal q.2 || (s.fab.hubIdSet && q.2.hubId == s.fab.hubId)
    (sizeOk bs = false → exec (.pktWrite bs) s = .next (early q.1 q.2 stBadLength none s1)) ∧
    (sizeOk bs = true → packetCrcOk bs = false → exec (.pktWrite bs) s = .next (early q.1 q.2 stBadCrc none s1)) ∧
    (sizeOk bs = true → packetCrcOk bs = true → here = true → opcodes.contains q.1 = true → exec (.pktWrite bs) s = .next
      { s1 with cmd := { s1.cmd with inbox := s.cmd.inbox ++ [(BitVec.ofNat 16 q.1, q.2)] } }) ∧
    (sizeOk bs = true → packetCrcOk bs = true → here = false → s.sup.mode = .safeCore →
      exec (.pktWrite bs) s = .next (early q.1 q.2 stNotInMode none s1)) ∧
    (sizeOk bs = true → packetCrcOk bs = true → here = false → s.sup.mode ≠ .safeCore → s.fab.hubIdSet = false →
      exec (.pktWrite bs) s = .next (early q.1 q.2 stUnreachable none s1)) ∧
    (sizeOk bs = true → packetCrcOk bs = true → here = false → s.sup.mode ≠ .safeCore → s.fab.hubIdSet = true →
      (s1.route q.2.hubId 2).isSome = true → exec (.pktWrite bs) s = .next
        (sendFrame (mkFrame s1 2 0x04 false false q.2.hubId none (wordsOfBytes bs))
          { s1 with cmd := { s1.cmd with forwarded := s.cmd.forwarded ++
            [{ session := q.2.session, reqId := q.2.reqId, header := bs.take 16, since := s.lcN }] } }))) ∧
  (∀ (p : Packet) (code st : Nat) (key : Option (List Byte)) (s : State), p.origin = .controlPort →
    early code p st key s = { s with cmd := { s.cmd with replies := s.cmd.replies ++ [replyBytes code p s.fab.hubId st 0 false [] key] } }) ∧
  (∀ (n : Byte) (r : Word) (bs : List Byte) (s : State),
    (s.cmd.forwarded.any (awaited n r) = true → exec (.replyRx n r bs) s = .next { s with cmd := { s.cmd with
      replies := s.cmd.replies ++ [bs], forwarded := s.cmd.forwarded.eraseP (awaited n r) } }) ∧
    (s.cmd.forwarded.any (awaited n r) = false → exec (.replyRx n r bs) s = .next s)) ∧
  (∀ (n : Byte) (r : Word) (f : Forwarded) (s : State), s.cmd.forwarded.find? (awaited n r) = some f →
    ∃ t, exec (.forwardTimeout n r) s = .next t ∧
      let s1 := atLc (f.since + 100000000) s
      let q := parsePacket .controlPort none f.header
      t = early q.1 q.2 stUnreachable none { s1 with cmd := { s1.cmd with forwarded := s1.cmd.forwarded.eraseP (awaited n r) } }) ∧
  ∀ (i : Fin 8) (x : Session) (s : State), s.cmd.sessions[i] = some x → ∃ t, exec (.sessionIdleTimeout i) s = .next t ∧
    let s1 := atLc (x.usedAt + 600000000000) s
    t = { s1 with cmd := { s1.cmd with sessions := vset s1.cmd.sessions i none } }

/-- SYS_INFO, SYS_EVENTS_READ, SYS_CONFIG_READ, SESSION_OPEN, SESSION_CLOSE (R100, R453, R454, R462, R463). What REMAINING
counts is the model's reading (log entry 225). -/
def Obligations.SystemCommands : Prop :=
  (∀ (p : Packet) (s s1 : State) (c : Ctx), admitted 0x0100 p s = some (c, s1) → accAny c = true → p.params = [0] →
    exec (.sysInfo p) s = replied 0x0100 p s1 stOk
      ([chipId, s1.fwVersionWord, s1.hubState, s1.strapsWord, s1.resetStatus, s1.modeStatus] ++ words64 s1.factory.dieId.toNat ++
        [w32 (flag 0 s1.factory.industrial + flag 2 (!s1.boot.fwRuns)), w32 s1.sessionsOpen]) s1) ∧
  (∀ (p : Packet) (s s1 : State) (c : Ctx) (w : Word), admitted 0x0103 p s = some (c, s1) → p.params = [w] →
    (if bit w 5 then accOp c else accAny c) = true → resv w 31 6 = true → 1 ≤ bits w 4 0 → bits w 4 0 ≤ 16 →
    let got := fitNotices (bits w 4 0) 502 s1.cmd.nq
    exec (.sysEventsRead p) s = replied 0x0103 p s1 stOk
      (w32 (fld 0 5 got.length + fld 8 5 (if bit w 5 then s1.cmd.nq.length - got.length else s1.cmd.nq.length) + fld 16 8 s1.cmd.nqLost.toNat) :: got.flatMap noticeWords)
      (if bit w 5 then { s1 with cmd := { s1.cmd with nq := s1.cmd.nq.drop got.length } } else s1)) ∧
  (∀ (p : Packet) (s s1 : State) (c : Ctx) (w gen : Word), admitted 0x0104 p s = some (c, s1) → p.params = [w, gen] →
    accAny c = true → s1.sup.mode ≠ .safeCore → s1.boot.fwRuns = true → resv w 31 29 = true → bits w 19 0 % 4 = 0 →
    1 ≤ bits w 27 20 → bits w 27 20 ≤ 128 → (bit w 28 = true ∨ gen = 0) →
    let img := if bit w 28 then buildBoot gen (bootSections s1) else s1.boot.cfgImage
    bits w 19 0 / 4 + bits w 27 20 ≤ img.length →
    exec (.sysConfigRead p) s = replied 0x0104 p s1 stOk (w32 (4 * img.length) :: (img.drop (bits w 19 0 / 4)).take (bits w 27 20))
      { s1 with boot := { s1.boot with cfgImage := img } }) ∧
  (∀ (p : Packet) (s s1 : State) (c : Ctx) (w : Word), admitted 0x0E10 p s = some (c, s1) → accAny c = true → p.params = [w] →
    bit w 0 = false → resv w 31 1 = true → c.session = none →
    exec (.sessionOpen p) s = replied 0x0E10 p s1 stOk
      ((List.range 4).map fun k => w32 ((Config.random s1.free).toNat / 2 ^ (32 * k)))
      { s1 with free := s1.free + 1
                cmd := { s1.cmd with nonces :=
                  { origin := c.packet.origin, value := Config.random s1.free, since := s1.lcN } :: s1.cmd.nonces } }) ∧
  (∀ (p : Packet) (s s1 : State) (c : Ctx) (key : List Byte) (i : Fin 8), admitted 0x0E10 p s = some (c, s1) → accAny c = true →
    p.params.length = 13 → bit (pw p.params 0) 0 = true → resv (pw p.params 0) 31 4 = true → c.session = none →
    let k : Fin 8 := ⟨bits (pw p.params 0) 3 1, Nat.mod_lt _ (by decide)⟩
    let nb := (p.params.drop 1).take 4
    let v := BitVec.ofNat 128 (nat128 nb)
    let msg := bytesOfWords nb ++ bytesOfWords ((p.params.drop 5).take 4)
    s1.lockedOut k = false → s1.cmd.nonces.any (nonceGood c.packet.origin v s1.lcN) = true →
    (s1.prot.slots[k]).key = some key →
    (hmac key (ascii "NH384PF" ++ msg ++ [BitVec.ofNat 8 k.val])).take 16 = bytesOfWords ((p.params.drop 9).take 4) →
    (∀ j : Fin 8, (s1.openSession j).isNone = true → i ≤ j) → (s1.openSession i).isNone = true →
    let ks := hmac key (ascii "NH384SK" ++ msg ++ [BitVec.ofNat 8 (i.val + 1)])
    ∃ t, exec (.sessionOpen p) s = .next (answerWith 0x0E10 p (some ks) stOk
        [w32 (fld 0 8 (i.val + 1) + fld 8 4 (s1.prot.slots[k]).roles.toNat)] t) ∧
      t.cmd.sessions = vset s1.cmd.sessions i (some { slot := k, key := ks, usedAt := s1.lcN, cache := Cache.empty }) ∧
      t = { s1 with
        cmd := { s1.cmd with sessions := t.cmd.sessions, nonces := s1.cmd.nonces.filter fun n => n.value != v }
        prot := { s1.prot with slots := vmod s1.prot.slots k fun x => { x with fails := 0 } } }) ∧
  ∀ (p : Packet) (s s1 : State) (c : Ctx) (w : Word) (i : Fin 8), admitted 0x0E11 p s = some (c, s1) → p.params = [w] →
    bits w 7 0 = i.val + 1 → resv w 31 8 = true → (accSvc c = true ∨ c.session = some i) →
    exec (.sessionClose p) s = replied 0x0E11 p s1 stOk []
      { s1 with cmd := { s1.cmd with sessions := vset s1.cmd.sessions i none } }

/-- The front-end commands (R104, R128 to R132, R211). -/
def Obligations.FrontEndCommands : Prop :=
  (∀ (p : Packet) (s s1 : State) (c : Ctx) (w0 w1 : Word) (ch : Chan), admitted 0x0200 p s = some (c, s1) → accEng c = true →
    p.params = [w0, w1] → chanAt (bits w0 8 0) = some ch → resv w0 31 10 = true → resv w1 31 6 = true → bits w1 3 1 ≤ 4 →
    (∀ x ∈ namedChans ch (bit w0 9), bits w1 3 1 ≤ (s1.chans[x]).rangeInit.toNat) →
    (s1.setts[settOf ch]).run = false → s1.plan.swap = none →
    let t := forEach (namedChans ch (bit w0 9)) (fun u x =>
      let v := if bit w1 0 then u else endRawWindow x u
      { v with chans := vmod v.chans x fun y =>
      { y with enable := bit w1 0, scale := w1.extractLsb' 1 3, openDet := bit w1 4, refBg := bit w1 5
               cm := if bit w1 0 then y.cm else 0 } }) (clearValid s1)
    s1.breaksLimits t = false → exec (.afeConfig p) s = replied 0x0200 p s1 stOk
      [w32 (flag 0 (bit w1 0) + fld 1 3 (w1.extractLsb' 1 3 : BitVec 3).toNat + flag 4 (bit w1 4) + flag 5 (bit w1 5) +
        fld 6 3 (s1.chans[ch]).range.toNat)] t) ∧
  (∀ (p : Packet) (s s1 : State) (c : Ctx) (w : Word) (ch : Chan), admitted 0x0201 p s = some (c, s1) → p.params = [w] →
    chanAt (bits w 8 0) = some ch → resv w 31 13 = true →
    let x := s1.chans[ch]
    (bit w 9 = false → accAny c = true → exec (.afeRange p) s = replied 0x0201 p s1 stOk
      [w32 (fld 0 3 x.range.toNat + fld 3 3 x.rangeInit.toNat + fld 6 3 x.scale.toNat + flag 9 x.blanking)] s1) ∧
    (bit w 9 = true → accEng c = true → bits w 12 10 ≤ 4 → x.scale.toNat ≤ bits w 12 10 → (s1.setts[settOf ch]).run = false →
      let r : BitVec 3 := BitVec.ofNat 3 (bits w 12 10)
      let t := { s1 with chans := vmod s1.chans ch fun y => { y with rangeInit := r, range := r } }
      s1.breaksLimits t = false → exec (.afeRange p) s = replied 0x0201 p s1 stOk
        [w32 (fld 0 3 r.toNat + fld 3 3 r.toNat + fld 6 3 x.scale.toNat + flag 9 x.blanking)] t)) ∧
  (∀ (p : Packet) (s s1 : State) (c : Ctx) (w0 w1 : Word) (k : SettId), admitted 0x0202 p s = some (c, s1) → p.params = [w0, w1] →
    finOf 48 (bits w0 5 0) = some k → resv w0 31 7 = true → resv w1 31 15 = true →
    let force : State → State := fun u =>
      let v := if bit w1 10 then forceDriverOff k u else u
      { v with setts := vmod v.setts k fun x => { x with forceOff := bit w1 10 } }
    let reply : State → List Word := fun u =>
      let x := u.setts[k]
      [w32 (fld 0 8 x.vcode.toNat + fld 8 2 x.excMode.toNat + flag 10 x.forceOff + fld 11 4 x.ilim.toNat + flag 15 x.driving +
        flag 16 x.contention + flag 17 x.ocTrip.isSome + flag 18 x.regLost)]
    (bit w0 6 = true → accOp c = true → s1.breaksLimits (force s1) = false →
      exec (.excConfig p) s = replied 0x0202 p s1 stOk (reply (force s1)) (force s1)) ∧
    (bit w0 6 = false → accEng c = true → bits w1 9 8 ≠ 3 → (bits w1 9 8 = 0 ∨ (1 ≤ bits w1 14 11 ∧ bits w1 14 11 ≤ 8)) →
      (s1.setts[k]).run = false → s1.plan.swap = none →
      let u := force (clearValid s1)
      let t := { u with setts := vmod u.setts k fun x =>
          { x with vcode := w1.extractLsb' 0 8, excMode := w1.extractLsb' 8 2, ilim := w1.extractLsb' 11 4 } }
      s1.breaksLimits t = false → exec (.excConfig p) s = replied 0x0202 p s1 stOk (reply t) t)) ∧
  (∀ (p : Packet) (s s1 : State) (c : Ctx) (w : Word) (ch : Chan), admitted 0x0203 p s = some (c, s1) → p.params = [w] →
    chanAt (bits w 8 0) = some ch → resv w 31 10 = true →
    (bit w 9 = false → accAny c = true → s1.breaksLimits (diagWords ch s1).2 = false →
      exec (.afeDiag p) s = replied 0x0203 p s1 stOk (diagWords ch s1).1 (diagWords ch s1).2 ∧
      (diagWords ch s1).2 = { s1 with free := (diagWords ch s1).2.free, setts := (diagWords ch s1).2.setts } ∧
      ∀ j : SettId, ((diagWords ch s1).2.setts[j]) = { s1.setts[j] with nowOn := ((diagWords ch s1).2.setts[j]).nowOn }) ∧
    (bit w 9 = true → accEng c = true → (s1.setts[settOf ch]).run = false → (s1.chans[ch]).actTest = none →
      exec (.afeDiag p) s = postponed p
        { s1 with chans := vmod s1.chans ch fun x => { x with actTest := some (c.replyTo s1) } })) ∧
  (∀ (ch : Chan) (r : Nat) (tooBig : Bool) (req : ReplyTo) (s : State), (s.chans[ch]).actTest = some req →
    ∃ t, exec (.afeDiagTestDone ch r tooBig) s = .next t ∧
      let s1 := { s with chans := vmod s.chans ch fun x =>
        { x with actTest := none, rPair := BitVec.ofNat 24 (min r 0xFFFFFF)
                 actResult := if tooBig = true ∨ 1000000 < r then 2 else if r < 10 then 3 else 1 } }
      t = answerLater 0x0203 req stOk (diagWords ch s1).1 (diagWords ch s1).2)

/-- Faults of channels, setts and dens (R16 to R18, R102, R117, R120, R121, R124, R126, R134, R555, R556, R588). -/
def Obligations.FrontEndEvents : Prop :=
  (∀ (ch : Chan) (s : State), s.modulating ch = true → exec (.modulatorInstability ch) s = .next
    (channelFault ch 0 1 { s with chans := vmod s.chans ch fun x =>
      { x with recovering := true, replacedTk := some (s.tkN + 32 * s.modTicks (settOf ch)) } })) ∧
  (∀ (ch : Chan) (s : State), (s.chans[ch]).recovering = true → ∃ t, exec (.modulatorRecoveryEnd ch) s = .next t ∧
    let s1 := atTk ((s.chans[ch]).replacedTk.getD 0) s
    t = { s1 with chans := vmod s1.chans ch fun x => { x with recovering := false } }) ∧
  (∀ (ch : Chan) (d : Fin 4) (s : State),
    (s.served = true → (s.chans[ch]).enable = true → (s.chans[ch]).cm.getLsbD d.val = false →
      exec (.commonModeFaultOnset ch d) s = .next (channelFault ch 1 2
        { s with chans := vmod s.chans ch fun x => { x with cm := x.cm ||| BitVec.ofNat 4 (2 ^ d.val) } })) ∧
    ((s.chans[ch]).cm.getLsbD d.val = true → exec (.commonModeFaultClear ch d) s = .next
      { s with chans := vmod s.chans ch fun x => { x with cm := x.cm &&& ~~~BitVec.ofNat 4 (2 ^ d.val) } })) ∧
  (∀ (k : SettId) (s : State), (s.setts[k]).driving = true → ∃ u, exec (.ocTrip k) s = .next (settFault k 2 u) ∧
    let v := forceDriverOff k s
    u = { v with setts := vmod v.setts k fun x => { x with ocTrip := some 0, ocHold := true }
                 health := { v.health with setts := vmod v.health.setts k (bump 0) } }) ∧
  (∀ (k : SettId) (s : State), (s.setts[k]).driving = true → (s.setts[k]).regLost = false →
    ∃ t, exec (.regLost k) s = .next t ∧ (t.setts[k]).regLost = true ∧ (t.setts[k]).driving = true ∧
      (∀ b, (t.setts[k]).burst = some b → b.broken = true) ∧
      (∀ j : SettId, j ≠ k → t.setts[j] = s.setts[j]) ∧
      t = { s with setts := t.setts, health := { s.health with setts := vmod s.health.setts k (bump 2) } }) ∧
  (∀ (k : SettId) (s : State), (s.setts[k]).regLost = true → exec (.regLostClear k) s = .next
    { s with setts := vmod s.setts k fun x => { x with regLost := false, regLostTk := some s.tkN } }) ∧
  (∀ (k : SettId) (s : State),
    (s.served = true → (s.setts[k]).driving = false → (s.setts[k]).contention = false → exec (.contention k) s = .next
      { s with setts := vmod s.setts k fun x => { x with contention := true } }) ∧
    ((s.setts[k]).contention = true → exec (.contentionClear k) s = .next
      { s with setts := vmod s.setts k fun x => { x with contention := false } })) ∧
  (∀ (d : DenId) (s : State), (settsOf d).any (fun k => (s.setts[k]).driving) = true → ∃ u, exec (.denExcCurrentFault d) s = .next
      (denFault d 4 (raiseDenFaultFree u d 2)) ∧
    let v := forEach (settsOf d) (fun s' k => forceDriverOff k s') { s with dens := vmod s.dens d fun x => { x with excOff := true } }
    u = { v with health := { v.health with dens := vmod v.health.dens d (bump 1) } }) ∧
  (∀ (k : SettId) (s : State), s.served = true → (s.setts[k]).run = true → (s.setts[k]).shed = false →
    exec (.filterEngineError k) s = .next (settFault k 3 s)) ∧
  (∀ (ch : Chan) (kind : Nat) (pos : Fin 3) (s : State),
    let u := s.health.chans[ch]
    let n := recentCount u s.lcN
    let s1 := { s with health := { s.health with chans := vmod s.health.chans ch fun x => bump pos (bump 0 x) } }
    let s2 := { s1 with health := { s1.health with chans := vmod s1.health.chans ch fun x => pushTransient x s.lcN } }
    ((s.chans[ch]).retired = true ∨ s.settOut (settOf ch) = true →
      channelFault ch kind pos s = raiseTransient s1 (unitField 0 ch.val) kind n) ∧
    ((s.chans[ch]).retired = false → s.settOut (settOf ch) = false → permanent u s.lcN = false →
      channelFault ch kind pos s = raiseTransient s2 (unitField 0 ch.val) kind (n + 1)) ∧
    ((s.chans[ch]).retired = false → s.settOut (settOf ch) = false → permanent u s.lcN = true →
      channelFault ch kind pos s = retireChannel ch false (raiseTransient s2 (unitField 0 ch.val) kind (n + 1)))) ∧
  ∀ (k : SettId) (kind : Nat) (s : State),
    let u := s.health.setts[k]
    let n := recentCount u s.lcN
    let s1 := { s with
      setts := vmod s.setts k fun x => { x with restart := if x.run then some s.tkN else none }
      health := { s.health with setts := vmod s.health.setts k fun x => pushTransient x s.lcN } }
    (s.settOut k = true → settFault k kind s = raiseTransient s (unitField 1 k.val) kind n) ∧
    (s.settOut k = false → permanent u s.lcN = false → settFault k kind s = raiseTransient s1 (unitField 1 k.val) kind (n + 1)) ∧
    (s.settOut k = false → permanent u s.lcN = true →
      settFault k kind s = isolateSett k (raiseTransient s1 (unitField 1 k.val) kind (n + 1)))

/-- Conversion and calibration commands (R143, R147, R150, R152, R157, R164, R166, R167). -/
def Obligations.ConversionCommands : Prop :=
  (∀ (p : Packet) (s s1 : State) (c : Ctx) (w : Word) (k : SettId), admitted 0x0300 p s = some (c, s1) → p.params = [w] →
    finOf 48 (bits w 5 0) = some k → resv w 31 9 = true →
    let reply : State → List Word := fun u =>
      [w32 (flag 0 (u.setts[k]).burstMode + flag 1 (u.setts[k]).lowPower + flag 2 (u.setts[k]).run)]
    (bit w 6 = false → accAny c = true → exec (.convMode p) s = replied 0x0300 p s1 stOk (reply s1) s1) ∧
    (bit w 6 = true → accEng c = true → presetPermitted (s1.preset k) (bit w 7) (bit w 8) = true →
      (s1.setts[k]).run = false → s1.plan.swap = none →
      let u := clearValid s1
      let t := judgeBounds { u with setts := vmod u.setts k fun x => { x with burstMode := bit w 7, lowPower := bit w 8 } }
      s1.breaksLimits t = false → exec (.convMode p) s = replied 0x0300 p s1 stOk (reply t) t)) ∧
  (∀ (p : Packet) (s s1 : State) (c : Ctx) (w : Word) (ch : Chan), admitted 0x0301 p s = some (c, s1) → p.params = [w] →
    accOp c = true → chanAt (bits w 8 0) = some ch → resv w 31 9 = true →
    ¬ (s1.sup.mode = .startup ∧ s1.plan.active = false) → (s1.setts[settOf ch]).shed = false →
    (s1.chans[ch]).inject = none → s1.injections < 64 → s1.plan.hasInject (settOf ch) = true →
    ((s1.chans[ch]).cal.state = .idle ∨ (s1.chans[ch]).cal.state = .ramping) →
    exec (.convInject p) s = postponed p { s1 with chans := vmod s1.chans ch fun x =>
      { x with inject := some { req := c.replyTo s1, acceptTk := s1.tkN, slot := none } } }) ∧
  (∀ (p : Packet) (s s1 : State) (c : Ctx) (w : Word) (ch : Chan), admitted 0x0302 p s = some (c, s1) → p.params = [w] →
    accEng c = true → chanAt (bits w 8 0) = some ch → resv w 31 13 = true → bits w 12 10 ≤ 4 →
    let cs := namedChans ch (bit w 9)
    (∀ x ∈ cs, s1.safeLocked (s1.usesChan x) = false ∧ s1.slotOf x = none ∧ (s1.chans[x]).cal.inProgress = false) →
    let waits := cs.any fun x => (s1.chans[x]).inject.isSome
    let t := forEach cs (fun u x => u.modCal x fun y =>
      { y with state := if waits then .pending else .opened, range := w.extractLsb' 10 3, startLc := s1.lcN, startTk := s1.tkN
               frameTicks := s1.plan.frameTicks, zero := none, full := none, point := none }) s1
    s1.breaksLimits t = false → exec (.calStart p) s = replied 0x0302 p s1 stOk
      [w32 (fld 0 3 (if waits then 1 else 2) + fld 3 8 (maskOf 8 fun j =>
        cs.contains (chanOf (settOf ch) j) && (s1.chans[chanOf (settOf ch) j]).inject.isSome))] t) ∧
  (∀ (p : Packet) (s s1 : State) (c : Ctx) (w target : Word), admitted 0x0303 p s = some (c, s1) → p.params = [w, target] →
    accEng c = true → calChans w ≠ [] → resv w 31 16 = true → 4 ≤ bits w 15 11 → bits w 15 11 ≤ 16 →
    (bit w 10 = true ∨ target = 0) →
    (∀ x ∈ calChans w, (s1.chans[x]).cal.inProgress = true ∧ (s1.chans[x]).cal.point = none) →
    exec (.calPoint p) s = postponed p (forEach (calChans w) (fun u x => u.modCal x fun y =>
      { y with point := some { req := c.replyTo s1, full := bit w 10, target := target.toInt, left := 2 ^ bits w 15 11
                               count := 0, sum := 0, flagged := false, ranged := false, answered := false }
               outcome := none, state := if y.state = .opened then .measuring else y.state }) s1)) ∧
  (∀ (p : Packet) (s s1 : State) (c : Ctx) (w : Word) (ch : Chan) (r : Fin 5), admitted 0x0305 p s = some (c, s1) → p.params = [w] →
    accAny c = true → chanAt (bits w 8 0) = some ch → finOf 5 (bits w 11 9) = some r → resv w 31 12 = true →
    let x := s1.chans[ch]
    let k := x.coefs[r]
    exec (.calRead p) s = replied 0x0305 p s1 stOk
      [w32 (fld 0 10 k.trim.toNat + fld 10 10 k.trimT.toNat + fld 20 3 (calCode x.cal.state) + flag 23 k.stored), k.offset,
       k.offsetT, k.gain, k.gainT, w32 (min 0xFFFF (k.rampLeft x.tap))] s1) ∧
  (∀ (p : Packet) (s s1 : State) (c : Ctx) (w : Word) (i : Fin 4) (k : SettId), admitted 0x0306 p s = some (c, s1) → p.params = [w] →
    accEng c = true → (s1.sup.mode = .startup ∨ s1.sup.mode = .test ∨ s1.boot.recovery = true) →
    bits w 1 0 = i.val → finOf 48 (bits w 8 3) = some k → resv w 31 20 = true →
    let taps := vset s1.hoard.taps i (if bit w 2 then
      some { sett := k, mask := w.extractLsb' 9 8, sub := w.extractLsb' 17 3, seen := Vector.replicate 8 0 } else none)
    (bit w 2 = true → (taps.toList.map fun x => (x.map s1.tapRate).getD 0).sum ≤ 8000000) →
    let t := { s1 with hoard := { s1.hoard with taps := taps } }
    s1.breaksLimits t = false → exec (.rawTap p) s = replied 0x0306 p s1 stOk
      [w32 ((maskOf 4 fun j => (taps[j]).isSome) + fld 8 24 ((taps.toList.map fun x => (x.map s1.tapRate).getD 0).sum / 1000))] t)

/-- Injection, calibration and raw results (R144, R150, R151, R153, R157 to R159, R161, R163, R166). -/
def Obligations.CalibrationAndInjectionRows : Prop :=
  (∀ (ch : Chan) (input : BurstInput) (i : Injection) (j : InjSlot) (s : State), (s.chans[ch]).inject = some i → i.slot = some j →
    ∃ value fl, exec (.injectionResult ch input) s = .next
      (let s1 := atTk (j.startTk + burstLen j.len.toNat * s.modTicks (settOf ch)) s
       releaseCal ch (answerLater 0x0301 i.req stOk
         (sampleWord value fl :: words64 (nearNs (j.startLc + s1.lcSpan ((burstLen j.len.toNat - 1) * 50 * s1.modTicks (settOf ch) / 2) * 256)) ++
           [w32 (fld 0 3 j.range.toNat + fld 3 2 j.len.toNat)])
         { s1 with chans := vmod s1.chans ch fun x => { x with inject := none } })) ∧
      (let s1 := atTk (j.startTk + burstLen j.len.toNat * s.modTicks (settOf ch)) s
       let v := clamp (-valueLimit) valueLimit (s.burstConv ch j.len.toNat j.range j.startTk input).value
       value = if (s1.slotOf ch).isSome then v else roundDiv (j.coef.gain.toNat * (256 * v + j.coef.offset.toInt)) (2 ^ 38))) ∧
  (∀ (ch : Chan) (i : Injection) (s : State), (s.chans[ch]).cal.state = .pending → (s.chans[ch]).inject = some i → i.slot = none →
    exec (.calPendingFrameEnd ch) s = .next
      (dropInject ch stPreempted (atTk ((s.chans[ch]).cal.startTk + (s.chans[ch]).cal.frameTicks) s))) ∧
  (∀ (ch : Chan) (q : CalPoint) (s : State), (s.chans[ch]).cal.state = .measuring → (s.chans[ch]).cal.point = some q →
    (q.left ≠ 0 → exec (.calPointDone ch) s = .next s) ∧
    (q.left = 0 → exec (.calPointDone ch) s = .next
      (finishPoint ch q (roundDiv (256 * q.sum) q.count) (if q.flagged then 1 else if q.ranged then 2 else 0)
        { s with chans := vmod s.chans ch fun x => { x with cal := { x.cal with state := .opened } } }))) ∧
  (∀ (p : Packet) (s s1 : State) (c : Ctx) (w : Word), admitted 0x0304 p s = some (c, s1) → p.params = [w] → accEng c = true →
    calChans w ≠ [] → resv w 31 19 = true →
    (bit w 10 = true → let t := forEach (calChans w) (fun u x => endCal x u) s1
      s1.breaksLimits t = false → exec (.calCommit p) s = replied 0x0304 p s1 stOk [0] t) ∧
    (bit w 10 = false → (∀ x ∈ calChans w, (s1.chans[x]).cal.zero.isSome = true ∧ (s1.chans[x]).cal.state ≠ .measuring) →
      let r := (calChans w).foldl (fun (a : State × Nat × Nat) x =>
        let y := commitChan x (w.extractLsb' 11 8) a.1
        if y.2 then (y.1, a.2.1 + 2 ^ (x.val % 8), a.2.2) else (y.1, a.2.1, a.2.2 + 2 ^ (x.val % 8))) (s1, 0, 0)
      let left := (((calChans w).filter fun x => r.2.1.testBit (x.val % 8)).map fun x =>
        (r.1.chans[x]).calSet.rampLeft (r.1.chans[x]).tap).foldl max 0
      (r.2.2 = 0 → s1.breaksLimits r.1 = false) → exec (.calCommit p) s =
        replied 0x0304 p s1 (if r.2.2 = 0 then stOk else stCalBounds) [w32 (r.2.1 + fld 8 8 r.2.2 + fld 16 16 (min 0xFFFF left))] r.1)) ∧
  (∀ (ch : Chan) (s : State), (s.chans[ch]).settled = false → ∃ t n, exec (.calAdjustInterval ch) s = .next t ∧
    n = nextInterval (s.chans[ch]).cal.commitLc (s.chans[ch]).cal.intervals (adjNs (s.chans[ch]).cal.adjMs) s.lcN ∧
    (t.chans[ch]).coefs = (s.chans[ch]).coefs.map (fun k =>
      { k with trim := BitVec.ofInt 10 (approach k.trim.toInt k.trimT.toInt 1)
               offset := w32i (approach k.offset.toInt k.offsetT.toInt (256 * (s.chans[ch]).tap))
               gain := w32i (approach k.gain.toNat k.gainT.toNat 65536) }) ∧
    (t.chans[ch]).cal.intervals = n ∧
    t = { atLc ((s.chans[ch]).cal.commitLc + n * adjNs (s.chans[ch]).cal.adjMs) s with chans := t.chans } ∧
    ∀ x : Chan, x ≠ ch → t.chans[x] = s.chans[x]) ∧
  (∀ (ch : Chan) (s : State), (s.chans[ch]).cal.inProgress = true → ∃ t, exec (.calTimeout ch) s = .next t ∧
    t = raise (endCal ch (atLc ((s.chans[ch]).cal.startLc + 600000000000) s)) 0x0204 [w32 (ch.val + fld 9 2 1)]) ∧
  (∀ (ch : Chan) (volts sense : List Int) (s : State), s.modulating ch = true →
    volts.length = (s.rawShape (settOf ch)).cicR → sense.length = (s.rawShape (settOf ch)).cicR →
    exec (.rawResult ch volts sense) s = .next
      (let tk := s.rawTick ch
       let s1 := atTk tk s
       let r := feedChain s1 ch tk (List.zipWith ModSample.mk volts sense)
       useRaw ch r.2 (s1.rawHeld ch tk r.1) tk { s1 with chans := vmod s1.chans ch fun x => { x with dsp := r.1 } })) ∧
  ∀ (ch : Chan) (raw : Int) (held : Bool) (tk : Nat) (s : State),
    let t := useRaw ch raw held tk s
    t = { s with red := t.red, hoard := t.hoard, cmd := t.cmd }

/-- The filter commands (R182 to R185, R187, R189 to R192, R194). The boundary that ALL answers when nothing is to start is the
model's choice (log entry 211). -/
def Obligations.FilterCommands : Prop :=
  (∀ (p : Packet) (s s1 : State) (c : Ctx) (w : Word) (k : SettId), admitted 0x0400 p s = some (c, s1) → p.params = [w] →
    finOf 48 (bits w 5 0) = some k → resv w 31 10 = true →
    let reply : State → List Word := fun u =>
      [w32 (fld 0 3 (u.chains[k]).preset.toNat + flag 3 (u.chains[k]).custom.isSome + flag 4 (u.linear k) + flag 5 (u.setts[k]).run +
        flag 6 (u.chains[k]).shift + fld 16 16 (u.settle k)), w32 (tAnField u k)]
    (bit w 6 = false → accAny c = true → exec (.fltPreset p) s = replied 0x0400 p s1 stOk (reply s1) { s1 with free := s1.free + 1 }) ∧
    (bit w 6 = true → accEng c = true → bits w 9 7 ≤ 5 →
      presetPermitted (bits w 9 7) (s1.setts[k]).burstMode (s1.setts[k]).lowPower = true → s1.health.presets.getLsbD (bits w 9 7) = true →
      (s1.setts[k]).run = false → s1.plan.swap = none →
      let u := clearValid s1
      let v := judgeBounds { u with chains := vmod u.chains k fun x => { x with preset := BitVec.ofNat 3 (bits w 9 7), custom := none, load := [] } }
      let t := { v with free := v.free + 1 }
      s1.breaksLimits t = false → exec (.fltPreset p) s = replied 0x0400 p s1 stOk (reply v) t)) ∧
  (∀ (p : Packet) (s s1 : State) (c : Ctx) (w0 : Word) (k : SettId), admitted 0x0401 p s = some (c, s1) → pw p.params 0 = w0 →
    finOf 48 (bits w0 5 0) = some k → coefLoadLength p.params = true → coefHeaderBad p.params = false →
    (∀ w ∈ p.params.drop 4, resv w 31 24 = true) →
    (bit w0 26 = true → w0 = w32 (k.val + 2 ^ 26) → accEng c = true → (s1.setts[k]).run = false →
      let t := judgeBounds { s1 with chains := vmod s1.chains k fun x => { x with custom := none, load := [] } }
      s1.breaksLimits t = false → exec (.fltCoefLoad p) s = replied 0x0401 p s1 stOk (loadWords k 8 t) t) ∧
    (bit w0 26 = false → bit w0 6 = true → accAny c = true → exec (.fltCoefLoad p) s = replied 0x0401 p s1 stOk
      ([w32 (fld 0 9 (s1.shape k).tapsA + fld 9 9 (s1.shape k).tapsB + flag 18 (s1.linear k) + fld 19 3 (s1.shape k).order +
          flag 22 (s1.chains[k]).custom.isSome), w32 (s1.declaredNs k)] ++
        (List.range (bits w0 24 17)).map fun i => coefWord (coefAt s1 k (bits w0 8 7) (bits w0 16 9 + i))) s1) ∧
    (bit w0 26 = false → bit w0 6 = false → accEng c = true → bits w0 8 7 ≤ 1 → (s1.setts[k]).run = false →
      let load := putAll (256 * bits w0 8 7 + bits w0 16 9) ((p.params.drop 4).map fun w => w.extractLsb' 0 24) (s1.chains[k]).load
      (bit w0 25 = false → let t := { s1 with chains := vmod s1.chains k fun x => { x with load := load } }
        s1.breaksLimits t = false → exec (.fltCoefLoad p) s = replied 0x0401 p s1 stOk (loadWords k 0 t) t) ∧
      (bit w0 25 = true → ∀ st ws t, completeLoad k p.params load s1 = .done st ws t → (st = stOk → s1.breaksLimits t = false) →
        exec (.fltCoefLoad p) s = replied 0x0401 p s1 st ws t))) ∧
  (∀ (p : Packet) (s s1 : State) (c : Ctx) (w : Word), admitted 0x0402 p s = some (c, s1) → p.params = [w] → accEng c = true →
    resv w 31 7 = true → (bit w 6 = true ∨ bits w 5 0 < 48) → s1.plan.active = true →
    (∀ k ∈ startSetts w s1, (s1.setts[k]).shed = false ∧ (s1.chains[k]).stopAt = none) →
    let fresh := (startSetts w s1).filter s1.toStart
    (∀ k ∈ fresh, (s1.chains[k]).custom = none ∨ s1.blockSett k = false) →
    let edge := match startSetts w s1 with
      | k :: _ => if (s1.setts[k]).run then (s1.chains[k]).startLc else s1.boundaryLc (((s1.chains[k]).startAt).getD s1.nextBoundary)
      | [] => s1.boundaryLc s1.nextBoundary
    (fresh = [] → exec (.fltStart p) s = replied 0x0402 p s1 stOk (words64 edge) s1) ∧
    (fresh ≠ [] → s1.startErrors fresh = none →
      let t := forEach fresh (fun u k => { u with chains := vmod u.chains k fun x => { x with startAt := some s1.nextBoundary, load := [] } })
        { s1 with plan := { s1.plan with lastError := 0 } }
      s1.breaksLimits t = false → exec (.fltStart p) s = replied 0x0402 p s1 stOk (words64 (s1.boundaryLc s1.nextBoundary)) t) ∧
    ∀ e k, fresh ≠ [] → s1.startErrors fresh = some (e, k) → exec (.fltStart p) s = replied 0x0402 p s1 stPlanInvalid
      [w32 (fld 0 8 e.code + fld 8 13 e.idx + fld 21 6 k.val), w32 (fld 0 21 e.offset)]
      { s1 with plan := { s1.plan with lastError := BitVec.ofNat 8 e.code } }) ∧
  (∀ (p : Packet) (s s1 : State) (c : Ctx) (w : Word), admitted 0x0403 p s = some (c, s1) → p.params = [w] → accEng c = true →
    resv w 31 7 = true → (bit w 6 = true ∨ bits w 5 0 < 48) →
    let ks := if bit w 6 then allSetts else startSetts w s1
    let live := ks.filter fun k => (s1.setts[k]).run
    (s1.sup.mode = .test ∨ ∀ k ∈ live, s1.blockSett k = false) →
    (∀ k ∈ ks, (s1.chains[k]).startAt = none ∧ ∀ x ∈ chansOf k, (s1.chans[x]).cal.state ≠ .measuring) →
    (live = [] → ∃ a b, exec (.fltStop p) s = replied 0x0403 p s1 stOk [a, b] { s1 with free := s1.free + 2 }) ∧
    (live ≠ [] →
      let t := forEach live (fun u k => { u with chains := vmod u.chains k fun x =>
        { x with stopAt := some (x.stopAt.getD s1.nextBoundary) } }) s1
      s1.breaksLimits t = false → exec (.fltStop p) s = replied 0x0403 p s1 stOk
        (words64 (s1.boundaryLc ((live.head?.bind fun k => (s1.chains[k]).stopAt).getD s1.nextBoundary))) t)) ∧
  (∀ (p : Packet) (s s1 : State) (c : Ctx) (w0 w1 : Word) (k : SettId), admitted 0x0404 p s = some (c, s1) → p.params = [w0, w1] →
    finOf 48 (bits w0 5 0) = some k → resv w0 31 8 = true → resv w1 31 25 = true →
    (bit w0 6 = false → accAny c = true → exec (.fltGrowth p) s = replied 0x0404 p s1 stOk
      [w32 (flag 0 (s1.chains[k]).shift + flag 1 (s1.setts[k]).run), (s1.chains[k]).shifts] s1) ∧
    (bit w0 6 = true → accEng c = true → (bit w0 7 = true ∨ w1 = 0) → shiftsOk (s1.shape k) w1 = true →
      (s1.shape k).load (s1.setts[k]).lowPower ≤ (if bit w0 7 then 1280000000 else 640000000) → (s1.setts[k]).run = false →
      let t := { s1 with chains := vmod s1.chains k fun x => { x with shift := bit w0 7, shifts := w1 } }
      s1.breaksLimits t = false → exec (.fltGrowth p) s = replied 0x0404 p s1 stOk [w32 (flag 0 (bit w0 7)), w1] t))

/-- Starts, stops and tick groups (R12, R174 to R176, R178, R191 to R193, R237). -/
def Obligations.FilterRows : Prop :=
  (∀ (k : SettId) (b : Nat) (s : State), (s.chains[k]).startAt = some b → exec (.fltStartEffect k) s = .next
    (let s1 := atTk b s
     let s2 := { s1 with chains := vmod s1.chains k fun x => { x with startAt := none } }
     let s3 := startChain k b { s2 with setts := vmod s2.setts k fun x => { x with run := true, ocHold := false } }
     let s4 := if s3.plan.active = true ∧ s3.plan.frameCount = 0 ∧ s3.plan.frameTk = b then toCyclic s3.plan.bank.asCycle s3 k else s3
     raise s4 0x0203 (w32 k.val :: words64 (s4.chains[k]).startLc))) ∧
  (∀ (k : SettId) (b : Nat) (s : State), (startChain k b s).chains[k] = { s.chains[k] with
      startTk := b, startLc := nearNs (s.lcOfTick b), words := 0, tap := (s.chains[k]).tapT, tapAt := s.lcN
      nextTick := some (firstWordTick (s.period k) (s.delayNs k / 50) b) } ∧
    (startChain k b s).setts = vmod s.setts k (fun x => { x with lowNow := x.lowPower }) ∧
    (startChain k b s).plan = s.plan ∧
    (∀ x ∈ chansOf k, (startChain k b s).chans[x] = { s.chans[x] with
      dsp := { Dsp.reset with hold := (s.chans[x]).dsp.hold, switches := (s.chans[x]).dsp.switches } }) ∧
    ∀ x : Chan, x ∉ chansOf k → (startChain k b s).chans[x] = s.chans[x]) ∧
  (∀ (k : SettId) (b : Nat) (s : State), (s.chains[k]).stopAt = some b → exec (.fltStopEffect k) s = .next
    (let s1 := atTk b s
     let s2 := { s1 with chains := vmod s1.chains k fun x => { x with stopAt := none } }
     let s3 := if (s.setts[k]).burst.isSome then s2 else driverOut k s2
     let s4 := { s3 with setts := vmod s3.setts k fun x => { x with run := false, planOn := false, lost := false, restart := none }
                         chains := vmod s3.chains k fun x => { x with nextTick := none } }
     raise (endSettWindows k (endRecord (settStream k) s4)) 0x0203 (w32 (k.val + 64) :: words64 (nearNs (s2.lcOfTick b))))) ∧
  (∀ (k : SettId) (beyond : Byte) (n : Nat) (s : State), (s.chains[k]).nextTick = some n →
    let last := n + s.delayNs k / 50
    (s.producing k last = false → exec (.firTickGroup k beyond) s = .next s) ∧
    (s.producing k last = true → ∃ t, exec (.firTickGroup k beyond) s = .next t ∧
      let s1 := atTk last s
      let convs := s.chainConvs k beyond last
      let stamp := s1.wordStamp k last
      let g : TickGroup := { stamp := stamp, delay := s1.recordDelay k, preset := s1.presetField k false, tick := some (n, n + s1.period k)
                             tq := s1.time.tq, gen := s1.fabGen
                             words := correctWords k convs (Vector.ofFn fun j => s1.wordFlags (chanOf k j) last stamp convs[j]) s1 }
      let u := noteResults k convs g.words g.stamp g.delay last { s1 with free := s1.free + 1 }
      let v := { u with chains := vmod u.chains k fun x => { x with words := x.words + 1, nextTick := some (n + s1.period k) } }
      (s1.linear k = true → t = { v with chains := vmod v.chains k fun x => { x with retime := x.retime ++ [g] } }) ∧
      (s1.linear k = false → t = deliverGroup k g v))) ∧
  ∀ (k : SettId) (g : TickGroup) (gs : List TickGroup) (s : State), (s.chains[k]).retime = g :: gs → exec (.bearRetimeRelease k) s = .next
    (let s1 := { atLc g.stamp s with chains := vmod (atLc g.stamp s).chains k fun x => { x with retime := gs } }
     deliverGroup k { g with words := g.words.map (retimeWord (s1.tuAt g.stamp)) } s1)

/-- The entries of the plan (R111, R117, R119, R124, R136, R150, R151, R200 to R202, R204, R212). -/
def Obligations.PlanEntryRows : Prop :=
  (∀ (i : Fin 8192) (e : Word64) (s : State),
    let at_ := atTk (s.plan.frameTk + eOffset e) s
    (s.entryNow 0x1 i.val = some e → exec (.excOn i) s = .next (forEach (eSetts e) excOnSett at_)) ∧
    (s.entryNow 0x2 i.val = some e → exec (.excOff i) s = .next (forEach (eSetts e)
      (fun u k => driverOut k { u with setts := vmod u.setts k fun x => { x with planOn := false } }) at_)) ∧
    (s.entryNow 0x4 i.val = some e → exec (.burst i) s = .next (forEach (eSetts e) (burstSett (eCode e)) at_)) ∧
    (s.entryNow 0x5 i.val = some e → exec (.latch i) s = .next (forEach ((eSetts e).flatMap chansOf)
      (fun u x => { u with chans := vmod u.chans x fun y =>
        { y with latch := (y.recent.find? fun r => decide (r.lastTk + 40 ≤ u.tkN)).orElse fun _ => y.latch } }) at_)) ∧
    (∀ k, s.entryNow 0x6 i.val = some e → finOf 48 (eTarget e) = some k → exec (.range i) s = .next
      (forEach (rangeChans k e) (rangeChan (BitVec.ofNat 3 (eArg e / 2 ^ 8))) at_)) ∧
    (s.entryNow 0x7 i.val = some e → exec (.injectSlot i) s = .next (forEach ((eSetts e).flatMap chansOf) (injectChan (eCode e) (eOffset e)) at_)) ∧
    (∀ d, s.entryNow 0x8 i.val = some e → finOf 4 (eTarget e) = some d → exec (.calStep i) s = .next
      (if (s.dens[d]).isolated ∨ (s.dens[nextDen d]).isolated ∨ s.afeOn d = false ∨ s.afeOn (nextDen d) = false then at_
       else { at_ with dens := vmod at_.dens d fun x => { x with compareTk := some at_.tkN } })) ∧
    (s.entryNow 0x9 i.val = some e → exec (.pulseWin i) s = .next { at_ with plan := { at_.plan with
      windows := at_.plan.windows ++ [(BitVec.ofNat 8 (eArg e), at_.tkN, at_.tkN + eArg e / 2 ^ 8)] } }) ∧
    (s.entryNow 0xA i.val = some e → exec (.mark i) s = .next
      (raise at_ 0x0202 ([w32 (fld 0 16 (eArg e)), at_.plan.frameCount] ++ words64 (nearNs (at_.lcOfTick at_.tkN)))))) ∧
  (∀ (i : Fin 8192) (s : State),
    (s.entryNow 0x1 i.val = none → exec (.excOn i) s = .next s) ∧ (s.entryNow 0x2 i.val = none → exec (.excOff i) s = .next s) ∧
    (s.entryNow 0x4 i.val = none → exec (.burst i) s = .next s) ∧ (s.entryNow 0x7 i.val = none → exec (.injectSlot i) s = .next s)) ∧
  (∀ (k : SettId) (s : State), (s.setts[k]).excMode ≠ 0 → (s.setts[k]).run = true →
    let on := { s with setts := vmod s.setts k fun x => { x with planOn := true } }
    let off := { s with setts := vmod s.setts k fun x =>
      { x with planOn := true, lost := true, burst := x.burst.map fun b => { b with broken := true } } }
    let ma := s.countedMa + (if s.countsIlim k then 0 else s.ilimMa k)
    ((s.setts[k]).driving = true → excOnSett s k = on) ∧
    ((s.setts[k]).driving = false →
      (s.settOut k = true ∨ (s.setts[k]).shed = true ∨ (s.setts[k]).contention = true → excOnSett s k = off) ∧
      (s.settOut k = false → (s.setts[k]).shed = false → (s.setts[k]).contention = false →
        ((s.setts[k]).counted = false → s.plan.bank.budget < ma →
          excOnSett s k = raise { off with plan := { off.plan with budgetHold := true } } 0x1005 (w32 k.val :: words64 s.tkN)) ∧
        ((s.setts[k]).counted = true ∨ ma ≤ s.plan.bank.budget →
          (s.mayDrive k = true → excOnSett s k = switchDriver k true { s with setts := vmod s.setts k fun x =>
            { x with planOn := true, counted := true } }) ∧
          (s.mayDrive k = false → excOnSett s k = { s with setts := vmod s.setts k fun x => { x with
              planOn := true, counted := true, lost := true, burst := x.burst.map fun b => { b with broken := true } } }))))) ∧
  (∀ (code : Nat) (k : SettId) (s : State), (s.setts[k]).run = true → (s.setts[k]).burstMode = true → (s.setts[k]).shed = false →
    (s.setts[k]).burst = none → burstSett code s k = { s with setts := vmod s.setts k fun x =>
      { x with burst := some { startTk := s.tkN, startLc := (s.lcOfTick s.tkN).toNat, len := BitVec.ofNat 2 code, broken := s.offPlan k || x.regLost } } }) ∧
  (∀ (r : BitVec 3) (c : Chan) (s : State), ((s.chans[c]).range = r → rangeChan r s c = s) ∧
    ((s.chans[c]).range ≠ r → rangeChan r s c = { s with chans := vmod s.chans c fun x =>
      { x with range := r, blanking := true, dsp := { x.dsp with switches := x.dsp.switches ++ [(s.tkN, x.range, s.trimOf c)] }
               rangeTk := some (s.tkN + 40 - s.modTicks (settOf c)) } })) ∧
  (∀ (ch : Chan) (s : State), (s.chans[ch]).blanking = true → ∃ t, exec (.rangeBlankingEnd ch) s = .next t ∧
    let s1 := atTk (((s.chans[ch]).rangeTk).getD 0 + s.modTicks (settOf ch)) s
    t = { s1 with chans := vmod s1.chans ch fun x => { x with blanking := false } }) ∧
  ∀ (k : SettId) (inputs : Vector BurstInput 8) (b : Burst) (s : State), (s.setts[k]).burst = some b →
    let convs : Vector Conv 8 := Vector.ofFn fun j =>
      s.burstConv (chanOf k j) b.len.toNat (s.chans[chanOf k j]).range b.startTk inputs[j]
    let n := burstLen b.len.toNat
    let last := b.startTk + (n - 1) * s.modTicks k
    let s1 := atTk last s
    let stamp := nearNs (b.startLc + 256 * s1.lcSpan ((n - 1) * 25 * s1.modTicks k))
    let ws := correctWords k convs (Vector.ofFn fun j => s1.burstFlags (chanOf k j) b stamp convs[j]) s1
    let v := noteResults k convs ws stamp 0 last { s1 with free := s1.free + 1 }
    let w := { v with setts := vmod v.setts k fun x => { x with burst := none } }
    exec (.burstComplete k inputs) s = .next (deliverGroup k
      { stamp := stamp, delay := 0, preset := s1.presetField k true, tick := none, tq := s1.time.tq, gen := s1.fabGen, words := ws }
      (if (w.setts[k]).run then w else driverOut k w))

/-- Boundaries, swaps, restarts and realignment (R16, R117, R196, R198, R206, R213, R217, R229, R237, R588). -/
def Obligations.PlanRows : Prop :=
  (∀ (f : Byte) (s : State), s.served = true → s.time.sclk = true → s.plan.active = true → s.plan.stopped = false →
    (s.plan.firstFrame = true → ∃ t, exec (.planFrameBoundary f) s = .next t ∧
      let s1 := atTk s.plan.frameTk s
      t = { s1 with plan := { s1.plan with firstFrame := false, frameLc := s1.lcN * 256 + f.toNat } }) ∧
    (s.plan.firstFrame = false → (∀ e, s.plan.swap = some e → s.plan.frameTk + s.plan.bank.frameTicks < e) →
      ∃ u, exec (.planFrameBoundary f) s = .next (frameEdge u) ∧
      let n := s.plan.frameTk + s.plan.bank.frameTicks
      let s1 := atTk n s
      u = { s1 with plan := { s1.plan with
        segment := (segmentNext (segmentAt s.plan.bank.entries s.plan.segment)).getD 0, frameTk := n
        frameLc := s1.lcN * 256 + f.toNat, frameCount := s.plan.frameCount + 1 } }) ∧
    (∀ e, s.plan.firstFrame = false → s.plan.swap = some e → e ≤ s.plan.frameTk + s.plan.bank.frameTicks →
      exec (.planFrameBoundary f) s = .next s)) ∧
  (∀ (e : Nat) (s : State), s.plan.swap = some e → s.served = true → s.time.sclk = true → s.plan.stopped = false →
    ∃ t, exec .planSwapEdge s = .next t ∧ t = activatePlan e s ∧ t.plan.active = true ∧ t.plan.swap = none ∧
      t.plan.activeBank = s.plan.shadowId ∧ t.plan.segment = 0 ∧ t.plan.frameTk = e ∧ t.plan.firstFrame = true ∧
      (t.plan.banks[t.plan.activeBank]).words = (s.plan.banks[s.plan.shadowId]).words) ∧
  (∀ (k : SettId) (a : Nat) (s : State), (s.setts[k]).restart = some a → exec (.settRestart k) s = .next
    (let n := s.plan.frameTicks
     let b := if n = 0 then s.tkN else (a / n + 1) * n
     let s1 := atTk b s
     let s2 := startChain k b { s1 with setts := vmod s1.setts k fun x => { x with restart := none, ocHold := false } }
     followPlan k { s2 with health := { s2.health with setts := vmod s2.health.setts k (bump 1) } })) ∧
  (∀ (k : SettId) (u : State), (followPlan k u = switchDriver k true u ∨ followPlan k u = u) ∧
    ((u.setts[k]).planOn = true → u.mayDrive k = true → followPlan k u = switchDriver k true u) ∧
    ((u.setts[k]).planOn = false ∨ u.mayDrive k = false → followPlan k u = u)) ∧
  (∀ (r : Realign) (s : State), s.time.realign = some r → r.stopTk = none → s.served = true → s.time.sclk = true →
    exec .tkAlignStop s = .next
      (let s1 := atTk s.stopBoundary s
       let s2 := withdrawSwap 2 { s1 with plan := { s1.plan with stopped := true, windows := [] } }
       { s2 with time := { s2.time with realign := some { r with stopTk := some s1.time.tk, stopLc := s1.time.lc } } })) ∧
  ∀ (r : Realign) (s : State), s.time.realign = some r → r.stopTk.isSome = true → r.loaded = false → s.converting = false →
    ∃ t u, exec .tkAlignLoad s = .next t ∧ t = realignPrjs s.fabricTk.1 u ∧
      u.time.tk = BitVec.ofNat 64 s.fabricTk.1 ∧ u.time.tkPhase = s.fabricTk.2 ∧
      u.time.realign = some { r with loaded := true, resumeFrom := s.fabricTk.1 + 400 } ∧
      (∀ k : SettId, (u.setts[k]).driving = false ∧ (u.setts[k]).planOn = false ∧ (u.chains[k]).nextTick = none ∧
        ((s.chains[k]).startAt.isSome = true → (u.chains[k]).startAt = some (firstTick s.plan.frameTicks (s.fabricTk.1 + 400)))) ∧
      u.sup = s.sup ∧ u.owl = s.owl ∧ u.pending = s.pending

/-- The plan commands (R208, R213 to R216, R218, R221 to R225). -/
def Obligations.PlanCommands : Prop :=
  (∀ (p : Packet) (s s1 : State) (c : Ctx) (w : Word), admitted 0x0500 p s = some (c, s1) → pw p.params 0 = w → accEng c = true →
    p.params.length = 1 + 2 * bits w 24 17 → resv w 31 26 = true → 1 ≤ bits w 24 17 → bits w 24 17 ≤ 128 →
    bits w 16 0 % 8 = 0 → bits w 16 0 + 8 * bits w 24 17 ≤ 65600 → s1.plan.swap = none →
    let old := s1.plan.shadow
    let ws := pairWords (p.params.drop 1)
    let at_ := bits w 16 0 / 8
    let new : Bank := { old with
      words := putAll at_ ws (if bit w 25 then [] else old.words), state := .written
      upsets := if bit w 25 then [] else old.upsets.filter fun u => decide (u.1 < at_ ∨ at_ + ws.length ≤ u.1) }
    let t := { s1 with plan := { s1.plan with banks := vset s1.plan.banks s1.plan.shadowId new } }
    s1.breaksLimits t = false →
    exec (.planWrite p) s = replied 0x0500 p s1 stOk [w32 (fld 0 17 (8 * new.words.length) + fld 17 2 1)] t ∧
    (t.plan.banks[t.plan.activeBank]) = s1.plan.banks[s1.plan.activeBank]) ∧
  (∀ (p : Packet) (s s1 : State) (c : Ctx), admitted 0x0501 p s = some (c, s1) → p.params = [0] → accEng c = true →
    (∀ e, s1.validate s1.plan.shadow = some e →
      let s0 := readBank s1.plan.shadowId 0 bankWords s1
      let s2 := if s1.plan.shadow.ecc then shadowEcc s0 else s0
      let s3 := modShadow (fun b => { b with state := .failed }) s2
      exec (.planValidate p) s = replied 0x0501 p s1 stPlanInvalid [w32 (fld 0 8 e.code + fld 8 13 e.idx), w32 (fld 0 21 e.offset), 0, 0, 0]
        { s3 with plan := { s3.plan with lastError := BitVec.ofNat 8 e.code } }) ∧
    (s1.validate s1.plan.shadow = none →
      let cyc := s1.plan.shadow.asCycle
      let peak := s1.peakMa cyc s1.carried
      let s3 := modShadow (fun b => { b with state := .valid, peakMa := peak }) (readBank s1.plan.shadowId 0 bankWords s1)
      let t := { s3 with plan := { s3.plan with lastError := 0 } }
      s1.breaksLimits t = false → exec (.planValidate p) s = replied 0x0501 p s1 stOk
        ([0, 0, w32 (fld 0 11 peak + fld 16 14 cyc.frames.length)] ++ words64 (planDigest s1.blockSett s1.plan.shadow)) t)) ∧
  (∀ (p : Packet) (s s1 : State) (c : Ctx) (w lo hi : Word), admitted 0x0502 p s = some (c, s1) → p.params = [w, lo, hi] →
    accEng c = true → s1.sup.mode ≠ .safeCore → resv w 31 2 = true →
    (bit w 1 = true → bit w 0 = false → nat64 lo hi = 0 →
      (∀ e, s1.plan.swap = some e → s1.tkN < e →
        let t := { s1 with plan := { s1.plan with swap := none } }
        s1.breaksLimits t = false → exec (.planSwap p) s = replied 0x0502 p s1 stOk (1 :: words64 e) t) ∧
      (∀ e, s1.plan.swap = some e → e ≤ s1.tkN → exec (.planSwap p) s = replied 0x0502 p s1 stOk (0 :: words64 e) s1) ∧
      (s1.plan.swap = none → exec (.planSwap p) s = replied 0x0502 p s1 stOk [0, 0, 0] s1)) ∧
    (bit w 1 = false → s1.plan.swap = none → s1.plan.shadow.state = .valid → s1.swapLocked = false →
      let e := if bit w 0 then nat64 lo hi else s1.nextEdge
      (bit w 0 = true → nat64 lo hi % s1.swapGrid = 0 ∧ s1.tkN + 20000 ≤ nat64 lo hi ∧ nat64 lo hi ≤ s1.tkN + 200000000) →
      (bit w 0 = false → nat64 lo hi = 0) →
      let t := { s1 with plan := { s1.plan with swap := some e } }
      s1.breaksLimits t = false → exec (.planSwap p) s = replied 0x0502 p s1 stOk (0 :: words64 e) t)) ∧
  (∀ (p : Packet) (s s1 : State) (c : Ctx) (w : Word), admitted 0x0503 p s = some (c, s1) → p.params = [w] → accAny c = true →
    resv w 31 23 = true → (if bit w 22 then bits w 21 14 = 0 else 1 ≤ bits w 21 14 ∧ bits w 21 14 ≤ 128 ∧ bits w 13 1 + bits w 21 14 ≤ 8192) →
    let k := if bit w 0 then s1.plan.shadowId else s1.plan.activeBank
    let b := s1.plan.banks[k]
    let at_ := if bit w 22 then 0 else 8 + bits w 13 1
    let m := if bit w 22 then 8 else bits w 21 14
    let s2 := readBank k at_ m s1
    let t := if b.eccIn at_ m = true ∧ bit w 0 = true then shadowEcc s2 else s2
    s1.breaksLimits t = false → exec (.planRead p) s = replied 0x0503 p s1 stOk
      (if bit w 22 then (List.range 16).map b.header
       else (List.range (bits w 21 14)).flatMap fun i => words64 (b.entry (bits w 13 1 + i)).toNat) t) ∧
  ∀ (p : Packet) (s s1 : State) (c : Ctx), admitted 0x0504 p s = some (c, s1) → p.params = [0] → accAny c = true →
    exec (.planStatus p) s = replied 0x0504 p s1 stOk (planStatusWords s1) s1

/-- The reduction commands (R300, R301, R304, R309 to R316, R429). -/
def Obligations.ReductionCommands : Prop :=
  (∀ (p : Packet) (s s1 : State) (c : Ctx) (j : Fin 64), admitted 0x0800 p s = some (c, s1) → bits (pw p.params 0) 5 0 = j.val →
    resv (pw p.params 0) 31 19 = true →
    (bit (pw p.params 0) 6 = false → accAny c = true → p.params.length = 1 →
      exec (.prjDefine p) s = replied 0x0800 p s1 stOk (prjReply j s1 ++ (s1.prj j).defn.words) s1) ∧
    (bit (pw p.params 0) 6 = true → accEng c = true → p.params.length = 8 + 2 * bits (pw p.params 0) 12 7 →
      resv (pw p.params 1) 31 21 = true → resv (pw p.params 2) 31 21 = true → resv (pw p.params 3) 31 16 = true →
      prjDefOk s1.fab.hubId j.val (prjDefOf p.params) = true → s1.safeLocked (fun b => b.namesPrj j.val) = false →
      (s1.prj j).enabled = false →
      let t := { s1 with red := { s1.red with prjs := vmod s1.red.prjs j fun x => { x with defn := prjDefOf p.params, out := [] } } }
      s1.breaksLimits t = false → exec (.prjDefine p) s = replied 0x0800 p s1 stOk (prjReply j t) t)) ∧
  (∀ (p : Packet) (s s1 : State) (c : Ctx) (lo hi w : Word), admitted 0x0801 p s = some (c, s1) → p.params = [lo, hi, w] →
    accEng c = true → resv w 31 1 = true →
    let mask := nat64 lo hi
    let m : Word64 := hi ++ lo
    let ps := (List.finRange 64).filter fun x => mask.testBit x.val
    let after := s1.enabledAfter (if bit w 0 then mask else 0) (if bit w 0 then 0 else mask)
    let load := (after.map fun x => prjLoad (s1.prj x).defn).sum
    let a0 : Word64 := (s1.red.enableAt.map (·.2.1)).getD 0
    let b0 : Word64 := (s1.red.enableAt.map (·.2.2)).getD 0
    (bit w 0 = true → (∀ x ∈ ps, enableRefusal x s1 = stOk) → load ≤ 640000000 → (s1.remoteInputs after).length ≤ 256 →
      let u := { s1 with red := { s1.red with enableAt := some (s1.nextBoundary, a0 ||| m, b0 &&& ~~~m) } }
      let t := judgeBounds (fixLatency ps (openFeeds ps u))
      s1.breaksLimits t = false →
      exec (.prjEnable p) s = replied 0x0801 p s1 stOk (words64 s1.nextBoundary ++ [w32 (load / 1000)]) t) ∧
    (bit w 0 = false → (∀ x ∈ ps, s1.safeLocked (fun b => b.namesPrj x.val) = false) →
      let t := { s1 with red := { s1.red with enableAt := some (s1.nextBoundary, a0 &&& ~~~m, b0 ||| m) } }
      s1.breaksLimits t = false →
      exec (.prjEnable p) s = replied 0x0801 p s1 stOk (words64 s1.nextBoundary ++ [w32 (load / 1000)]) t)) ∧
  (∀ (p : Packet) (s s1 : State) (c : Ctx) (w : Word) (kind : AccKind) (i : Nat), admitted 0x0802 p s = some (c, s1) → p.params = [w] →
    kindAt w = some (kind, i) → resv w 31 28 = true → (kind ≠ .projection ∨ bit w 11 = false) →
    let reply : State → List Word := fun u =>
      let a := (u.acc kind i).getD Acc.reset
      [w32 (flag 0 a.enable + fld 1 5 a.nLog2.toNat + flag 6 a.emit + fld 7 8 a.oob.toNat), a.windows]
    (bit w 12 = false → accAny c = true → exec (.accConfig p) s = replied 0x0802 p s1 stOk (reply s1) s1) ∧
    (bit w 12 = true → accEng c = true → accOk kind w = true →
      let t := forEach (if bit w 11 then (List.range 8).map fun j => i / 8 * 8 + j else [i])
        (fun u n => modAcc kind n (fun a => { a.clear with
          enable := bit w 13, nLog2 := w.extractLsb' 14 5, emit := bit w 19, oob := w.extractLsb' 20 8
          windows := if a.enable then a.windows else 0 }) (endWindow kind n true u)) s1
      s1.breaksLimits t = false → exec (.accConfig p) s = replied 0x0802 p s1 stOk (reply t) t)) ∧
  ∀ (p : Packet) (s s1 : State) (c : Ctx) (w : Word) (kind : AccKind) (i : Nat), admitted 0x0803 p s = some (c, s1) → p.params = [w] →
    kindAt w = some (kind, i) → resv w 31 12 = true → (if bit w 11 then accOp c else accAny c) = true →
    let m := (s1.minMax kind i).getD MinMax.reset
    let t := if bit w 11 then modMinMax kind i (fun _ => MinMax.reset) s1 else s1
    s1.breaksLimits t = false → exec (.minmaxRead p) s = replied 0x0803 p s1 stOk
      ([w32i m.min, w32i m.max] ++ words64 m.minStamp ++ words64 m.maxStamp ++ [w32 (b2n (m.count == 0)), m.count]) t

/-- The reduction engine's rows (R146, R297, R302, R303, R305 to R309, R311, R314, R430, R431). -/
def Obligations.ReductionRows : Prop :=
  (∀ (kind : AccKind) (i : Chan) (a : Acc) (s : State), s.acc kind i.val = some a → a.full = true →
    exec (.accWindowEnd kind i) s = .next (endWindow kind i.val false s)) ∧
  (∀ (ch : Chan) (s : State), (s.red.accRaw[ch]).full = true → exec (.rawAccWindowEnd ch) s = .next (endWindow .raw ch.val false s)) ∧
  (∀ (kind : AccKind) (i : Nat) (part : Bool) (a : Acc) (s : State), s.acc kind i = some a → a.total ≠ 0 →
    let u := modAcc kind i (fun a => { a.clear with windows := if part then a.windows else a.windows + 1 }) s
    let v := if a.emit then deliver { stream := 49, stamp := a.first, delay := 0, preset := 0, coded := false, count := 1, tick := none
                                      words := a.words kind i part } u else u
    endWindow kind i part s = if part then v else judgeRaw kind i a v) ∧
  (∀ (p : Fin 64) (s : State), s.prjRuns p = true →
    let x := s.prj p
    let due (q : Fin 64) : Int := s.lcOfTick (s.prj q).nextTick + s.lcSpan (s.prj q).latencyNs * 256
    let s1 := atLc (due p / 256).toNat s
    let ins := x.defn.terms.map fun t => (t, termInput s1 p.val x.defn t x.nextTick (due p))
    let u := { s1 with red := { s1.red with prjs := vmod s1.red.prjs p fun y =>
      { y with nextTick := x.nextTick + y.defn.period.toNat, missing := satAdd y.missing (missingInputs ins) } } }
    let stamp := nearNs (s1.lcOfTick x.nextTick)
    let o := prjResult x.defn ins (s1.tuAt stamp)
    ((∀ q, s.prjRuns q = true → due p < due q ∨ (due p = due q ∧ p ≤ q)) →
      exec (.prjCompute p) s = .next (putOutput p x.nextTick stamp o u)) ∧
    (∀ q, s.prjRuns q = true → due q < due p → exec (.prjCompute p) s = .next s)) ∧
  (∀ (d : PrjDef) (ins : List (Word64 × Option InWord)) (tu : Bool),
    let prim := ins.filter fun y => inSet 1 y.1
    let fall := ins.filter fun y => inSet 2 y.1
    let o := prjResult d ins tu
    (setUsable prim = true → o.p = (prjValue prim d.offsetP d.outShift.toNat).1 ∧ o.fallback = false) ∧
    (setUsable prim = false → setUsable fall = true → o.p = (prjValue fall d.offsetF d.outShift.toNat).1 ∧ o.fallback = true) ∧
    (setUsable prim = false → setUsable fall = false →
      o = { p := -2147483648, flags := flagInv ||| whenF tu flagTu, fallback := false })) ∧
  (∀ (e : Nat) (on off : Word64) (s : State), s.red.enableAt = some (e, on, off) → ∃ t u, exec .prjEnableEffect s = .next t ∧
    t = closeFeeds u ∧ u.red.enableAt = none ∧
    ∀ p : Fin 64, (u.prj p).enabled = (if off.getLsbD p.val then false else (s.prj p).enabled || on.getLsbD p.val) ∧
      (on.getLsbD p.val = true → off.getLsbD p.val = false → (s.prj p).enabled = false →
        (u.prj p).nextTick = firstTick (s.prj p).defn.period.toNat e)) ∧
  (∀ (src : BitVec 10) (ws : List Word) (s : State), s.boot.fwRuns = true → resv (pw ws 0) 31 3 = true →
    let waits := s.red.feeds.any fun f => feedNamed src (pw ws 1) f && f.asked
    (bit (pw ws 0) 2 = true → exec (.feedReqRx src ws) s = .next (takeAnswer src true (answerPairs (ws.drop 1)) s)) ∧
    (bit (pw ws 0) 2 = false → waits = true → exec (.feedReqRx src ws) s = .next (takeAnswer src false (answerPairs (ws.drop 1)) s)) ∧
    (bit (pw ws 0) 2 = false → waits = false → exec (.feedReqRx src ws) s = .next (takeRequest src (pw ws 0) (ws.drop 1) s))) ∧
  ∀ (src : BitVec 10) (ws : List Word) (s : State), s.boot.fwRuns = true → exec (.feedRx src ws) s = .next
    (forEach (feedEntries ws) (fun u e =>
      let w : InWord := { tick := e.2.2, flags := sampleFlags e.2.1
                          value := if bit e.1 9 then 256 * sampleValue e.2.1 + bits e.1 31 24 else sampleValue e.2.1 }
      countLate (fun t => (tSrc t == 5 || tSrc t == 6) && tHub t == src && feedInput t == w32 (bits e.1 9 0)) e.2.2
        (u.modRed fun r => { r with feeds := r.feeds.map fun f =>
          (if feedNamed src e.1 f && f.opened then { f with words := keepWords w f.words } else f) })) s)

/-- The health commands (R555, R556, R560, R567 to R571). -/
def Obligations.HealthCommands : Prop :=
  (∀ (p : Packet) (s s1 : State) (c : Ctx), admitted 0x1000 p s = some (c, s1) → p.params = [0] → accAny c = true →
    exec (.healthReport p) s = replied 0x1000 p s1 stOk (healthWords s1) s1) ∧
  (∀ (p : Packet) (s s1 : State) (c : Ctx) (w th li d : Word) (m : Fin 24), admitted 0x1001 p s = some (c, s1) →
    p.params = [w, th, li, d] → bits w 4 0 = m.val → resv w 31 8 = true → resv d 31 16 = true →
    (bit w 5 = false → accAny c = true → exec (.marginPlan p) s = replied 0x1001 p s1 stOk (marginReply m s1) s1) ∧
    (bit w 5 = true → accEng c = true → s1.working = true → 1 ≤ bits d 15 0 → bits d 15 0 ≤ 3650 →
      thresholdWorse m th.toInt li.toInt = false →
      let t := { s1 with health := { s1.health with
        margins := vmod s1.health.margins m fun x => { x with actEn := bit w 6, threshold := th.toInt, limit := li.toInt }
        horizon := BitVec.ofNat 16 (bits d 15 0), vcoreFailed := s1.health.vcoreFailed && !bit w 7 } }
      s1.breaksLimits t = false → exec (.marginPlan p) s = replied 0x1001 p s1 stOk (marginReply m t) t)) ∧
  (∀ (p : Packet) (s s1 : State) (c : Ctx) (w : Word) (ch : Chan), admitted 0x1002 p s = some (c, s1) → p.params = [w] →
    accEng c = true → bits w 1 0 = 0 → bits w 10 2 = ch.val → resv w 31 11 = true →
    let t := retireChannel ch true { s1 with health := { s1.health with
      restores := s1.health.restores.filter fun r => !(r.1.toNat == 0 && r.2.1 == ch.val) } }
    s1.breaksLimits t = false → exec (.chanRetire p) s = replied 0x1002 p s1 stOk (unitReply w t) t ∧ (t.chans[ch]).retired = true) ∧
  (∀ (p : Packet) (s s1 : State) (c : Ctx) (w : Word), admitted 0x1003 p s = some (c, s1) → p.params = [w] → accEng c = true →
    s1.working = true → unitOk w = true → s1.safetyUnit w = false →
    (∀ x ∈ unitChans (bits w 1 0) (bits w 10 2), (s1.chans[x]).cm = 0) →
    let o := s1.unitOut (bits w 1 0) (bits w 10 2)
    let due (u : State) : State := { u with health := { u.health with
      restores := (u.health.restores.filter fun r => !(r.1.toNat == bits w 1 0 && r.2.1 == bits w 10 2)) ++
        [(BitVec.ofNat 2 (bits w 1 0), bits w 10 2, u.nextBoundary)] } }
    (o = (false, false) → exec (.chanRestore p) s = replied 0x1003 p s1 stOk (unitReply w s1) s1) ∧
    (o ≠ (false, false) → bits w 1 0 ≠ 2 →
      s1.breaksLimits (due s1) = false → exec (.chanRestore p) s = replied 0x1003 p s1 stOk [0] (due s1)) ∧
    (o.2 = true → bits w 1 0 = 2 →
      let u := { s1 with free := s1.free + 1 }
      (bit (Config.freeWord s1.free) 0 = true → exec (.chanRestore p) s = replied 0x1003 p s1 stBusy [] u) ∧
      (bit (Config.freeWord s1.free) 0 = false → s1.breaksLimits (due u) = false →
        exec (.chanRestore p) s = replied 0x1003 p s1 stOk [0] (due u)))) ∧
  (∀ (p : Packet) (s s1 : State) (c : Ctx) (w : Word), admitted 0x1004 p s = some (c, s1) → p.params = [w] → accAny c = true →
    resv w 31 21 = true →
    let all := unitCounts s1 (bits w 15 0 / 4096) (bits w 15 0 / 32 % 128)
    bits w 15 0 % 32 + (bits w 20 16 + 1) ≤ all.length →
    let got := (all.drop (bits w 15 0 % 32)).take (bits w 20 16 + 1)
    exec (.countersRead p) s = replied 0x1004 p s1 stOk
      (w32 (maskOf 32 fun i => (got[i.val]?.map (·.sat)).getD false) :: got.flatMap countWords) s1) ∧
  ∀ (p : Packet) (s s1 : State) (c : Ctx) (w : Word), admitted 0x1005 p s = some (c, s1) → p.params = [w] → accOp c = true →
    resv w 31 13 = true →
    (bit w 12 = true → let t := forEach (List.range 16) clearUnitAll s1
      s1.breaksLimits t = false → exec (.countersClear p) s = replied 0x1005 p s1 stOk [] t) ∧
    (bit w 12 = false → bit w 11 = true → unitSize (bits w 3 0) ≠ 0 → let t := clearUnitAll s1 (bits w 3 0)
      s1.breaksLimits t = false → exec (.countersClear p) s = replied 0x1005 p s1 stOk [] t) ∧
    (bit w 12 = false → bit w 11 = false → bits w 10 4 < unitSize (bits w 3 0) → let t := clearCounts s1 (bits w 3 0) (bits w 10 4)
      s1.breaksLimits t = false → exec (.countersClear p) s = replied 0x1005 p s1 stOk [] t)

/-- The rows of the health unit (R19, R205, R375, R555, R557, R561 to R564, R566, R567). -/
def Obligations.HealthRows : Prop :=
  (∀ (m : Fin 24) (v : Int) (s : State), s.served = true → ¬ (8 ≤ m.val ∧ m.val < 12) → ¬ (16 ≤ m.val ∧ m.val < 20) →
    let every (ns : Nat) : State :=
      let s1 := atLc (s.health.margins[m]).nextAt s
      { s1 with health := { s1.health with margins := vmod s1.health.margins m fun x =>
        { x with nextAt := s1.lcN + ns, samples := x.samples + 1, sum := x.sum + v } } }
    (m.val < 8 → s.marginRuns m = true → exec (.marginSample m v) s = .next (every 60000000000)) ∧
    (m.val = 20 ∨ m.val = 21 → exec (.marginSample m v) s = .next (every 3600000000000)) ∧
    (8 ≤ m.val → m.val ≠ 20 → m.val ≠ 21 → s.marginRuns m = true →
      exec (.marginSample m v) s = .next { s with health := { s.health with margins := vmod s.health.margins m fun x =>
        { x with samples := x.samples + 1, sum := x.sum + s.heldValue m v } } }) ∧
    (s.marginRuns m = false → exec (.marginSample m v) s = .next s)) ∧
  (∀ (m : Fin 24) (s : State), s.marginRuns m = (decide (16 ≤ m.val) ||
    (!(s.dens[m.val % 4]'(Nat.mod_lt _ (by decide))).isolated && s.afeOn ⟨m.val % 4, Nat.mod_lt _ (by decide)⟩))) ∧
  (∀ (m : Fin 24) (v : Int) (s : State), s.heldValue m v = if m.val = 22 then ((s.tdc.worstUnits : Nat) : Int)
    else if m.val = 23 then s.owl.sos.toList.foldl (fun (a : Int) o => max a (max o.tFall.toNat o.tRise.toNat : Nat)) 0 else v) ∧
  (∀ (p : Port) (scan : EyeScan) (s : State), s.served = true → s.sup.mode ≠ .safeCore → (s.lane p).rx = .up → (s.lane p).scan = none →
    let s0 := atLc s.health.eyeNext[p] s
    let s1 := { s0 with health := { s0.health with
      eyes := vset s0.health.eyes p (some ((eyeOf scan).2, (eyeOf scan).1)), eyeNext := vset s0.health.eyeNext p (s0.lcN + 86400000000000) } }
    let group := s1.eyesOf (p.val / 16)
    let height := group.foldl (fun a x => min a x.2.1) (eyeOf scan).2
    let width := group.foldl (fun a x => min a x.2.2) (eyeOf scan).1
    let sample (m : Fin 24) (v : Nat) (u : State) : State := { u with health := { u.health with
      margins := vmod u.health.margins m fun x => { x with samples := x.samples + 1, sum := x.sum + (v : Int) } } }
    (p.val < 16 → exec (.ageingEyeScan p scan) s = .next (sample 17 width (sample 16 height s1))) ∧
    (16 ≤ p.val → exec (.ageingEyeScan p scan) s = .next (sample 19 width (sample 18 height s1)))) ∧
  (∀ s : State, s.served = true → s.time.tclk = true → ∃ u, exec .marginDailyFold s = .next (forEach (List.finRange 24) judgeMargin u) ∧
    let s1 := atLc s.foldDue s
    u = { s1 with health := { s1.health with foldAt := s.foldDue, margins := s1.health.margins.map fun x =>
      if x.samples = 0 then x
      else { x with daily := ((x.sum : Rat) / x.samples :: x.daily).take 30, dailyCount := x.dailyCount + 1, samples := 0, sum := 0 } } }) ∧
  (∀ s : State, s.served = true → s.time.tclk = true → s.health.baseline = true → ∃ t, exec .baselineEnd s = .next t ∧
    let s1 := atLc (s.health.baselineH * hourNs) s
    t = raise { s1 with health := { s1.health with baseline := false } } 0x1014 []) ∧
  (∀ (d : DenId) (ppm : Int) (a : Nat) (s : State), (s.dens[d]).compareTk = some a →
    let s0 := atTk (a + 400) s
    let s1 := { s0 with dens := vmod s0.dens d fun x => { x with compareTk := none } }
    let s2 := sampleMargin ⟨8 + d.val, by omega⟩ ppm.natAbs
      { s1 with dens := vmod s1.dens d fun x => { x with compareFailed := some (decide (500 < ppm.natAbs)) } }
    (((s.dens[d]).isolated = true ∨ (s.dens[nextDen d]).isolated = true) → exec (.refCompareDone d ppm) s = .next s1) ∧
    ((s.dens[d]).isolated = false → (s.dens[nextDen d]).isolated = false → ppm.natAbs ≤ 500 →
      exec (.refCompareDone d ppm) s = .next s2) ∧
    ((s.dens[d]).isolated = false → (s.dens[nextDen d]).isolated = false → 500 < ppm.natAbs →
      exec (.refCompareDone d ppm) s = .next (judgeDens d (reportCompare d (w32 ppm.natAbs) s2)))) ∧
  ∀ (r : BitVec 2 × Nat × Nat) (rs : List (BitVec 2 × Nat × Nat)) (s : State), s.health.restores = r :: rs →
    exec .chanRestoreEffect s = .next
      (let b := rs.foldl (fun a x => min a x.2.2) r.2.2
       let s1 := atTk b s
       forEach ((r :: rs).filter fun x => x.2.2 == b) restoreUnit
         { s1 with health := { s1.health with restores := (r :: rs).filter fun x => x.2.2 != b } })

/-- The time commands and the delay taps (R249, R251 to R255). -/
def Obligations.TimeCommands : Prop :=
  (∀ (p : Packet) (s s1 : State) (c : Ctx), admitted 0x0600 p s = some (c, s1) → p.params = [0] → accAny c = true →
    exec (.timeRead p) s = replied 0x0600 p s1 stOk (timeReadWords s1) s1) ∧
  (∀ (p : Packet) (s s1 : State) (c : Ctx) (w0 w1 : Word) (k : Port), admitted 0x0601 p s = some (c, s1) → p.params = [w0, w1] →
    resv w0 31 7 = true → bits w0 6 2 = k.val →
    let port : State → List Word := fun u => [timePortWord u.time.cfg k, w32 (b2n u.time.iSat)]
    let all : State → List Word := fun u => [servoWord u.time.cfg, w32 (b2n u.time.iSat)]
    (bit w0 0 = false → accAny c = true →
      (bit w0 1 = true → resv w1 15 1 = true → exec (.timeServoConfig p) s = replied 0x0601 p s1 stOk (port s1) s1) ∧
      (bit w0 1 = false → k.val = 0 → resv w1 31 16 = true → exec (.timeServoConfig p) s = replied 0x0601 p s1 stOk (all s1) s1)) ∧
    (bit w0 0 = true → accEng c = true →
      (bit w0 1 = true → resv w1 15 1 = true →
        let t := { s1 with time := { s1.time with cfg := { s1.time.cfg with
          timeEn := vset s1.time.cfg.timeEn k (bit w1 0), asymPs := vset s1.time.cfg.asymPs k (w1.extractLsb' 16 16) } } }
        s1.breaksLimits t = false → exec (.timeServoConfig p) s = replied 0x0601 p s1 stOk (port t) t) ∧
      (bit w0 1 = false → k.val = 0 → resv w1 31 16 = true → bits w1 2 0 ≤ 6 → 2 ≤ bits w1 6 3 → bits w1 6 3 ≤ 8 →
        6 ≤ bits w1 11 7 → bits w1 11 7 ≤ 20 → 1 ≤ bits w1 15 12 → bits w1 15 12 ≤ 10 →
        let t := { s1 with time := { s1.time with cfg := { s1.time.cfg with
          syncLog2 := w1.extractLsb' 0 3, kp := w1.extractLsb' 3 4, ki := w1.extractLsb' 7 5, holdover := w1.extractLsb' 12 4 } } }
        s1.breaksLimits t = false → exec (.timeServoConfig p) s = replied 0x0601 p s1 stOk (all t) t))) ∧
  (∀ (p : Packet) (s s1 : State) (c : Ctx) (w0 w1 w2 w3 : Word), admitted 0x0602 p s = some (c, s1) → p.params = [w0, w1, w2, w3] →
    accEng c = true → resv w0 31 15 = true → resv w3 31 16 = true → bits w0 1 0 ≠ 3 → bits w1 31 16 ≠ 0 →
    (∃ q : Port, q.val = bits w0 5 3 ∧ s1.isEth q = true) →
    let changed := s1.fab.leads && sourceOf (bits w0 1 0) != s1.time.cfg.source
    let u := { s1 with time := { s1.time with
      cfg := { s1.time.cfg with
        source := sourceOf (bits w0 1 0), srcRequired := bit w0 2, ptpPort := w0.extractLsb' 3 3, ptpUdp := bit w0 6
        ptpDomain := w0.extractLsb' 7 7, ppsSec := (if bit w0 14 then some (nat64 w2 w3) else none)
        ppsDelay := w1.extractLsb' 0 16, srcLock := w1.extractLsb' 16 16 }
      srcState := if changed then { SourceState.reset with utcOffset := s1.time.srcState.utcOffset } else s1.time.srcState } }
    let v := if changed && (s1.sourceJudges || u.sourceJudges) then parentGone u else u
    let w := if v.fab.leads && v.time.cfg.source == .none then
      setRate 0 { v with time := { v.time with rI := 0, rP := 0, iSat := false } } else v
    let t := if w.fab.leads && w.time.tq == 0 && !w.sourceJudges then setTq 1 w else w
    s1.breaksLimits t = false → exec (.timeRole p) s = replied 0x0602 p s1 stOk
      [w32 (fld 0 2 (sourceCode t.time.cfg.source) + flag 2 t.time.cfg.srcRequired + flag 3 t.time.srcState.locked +
        flag 4 t.time.srcState.lost + flag 5 t.fab.leads)] t) ∧
  (∀ (p : Packet) (s s1 : State) (c : Ctx) (w : Word), admitted 0x0603 p s = some (c, s1) → p.params = [w] → resv w 31 22 = true →
    (bit w 0 = false → accAny c = true → exec (.timeStepPolicy p) s = replied 0x0603 p s1 stOk
      [w32 (fld 0 14 s1.time.cfg.stepLimit.toNat + fld 14 7 s1.time.cfg.slewMax.toNat)] s1) ∧
    (bit w 0 = true → accEng c = true → 1 ≤ bits w 14 1 → bits w 14 1 ≤ 10000 → 1 ≤ bits w 21 15 → bits w 21 15 ≤ 100 →
      let t := { s1 with time := { s1.time with cfg := { s1.time.cfg with
        stepLimit := BitVec.ofNat 14 (bits w 14 1), slewMax := BitVec.ofNat 7 (bits w 21 15) } } }
      s1.breaksLimits t = false →
      exec (.timeStepPolicy p) s = replied 0x0603 p s1 stOk [w32 (fld 0 14 (bits w 14 1) + fld 14 7 (bits w 21 15))] t)) ∧
  (∀ (p : Packet) (s s1 : State) (c : Ctx) (w trim : Word) (k : SettId), admitted 0x0604 p s = some (c, s1) → p.params = [w, trim] →
    bits w 5 0 = k.val → resv w 31 15 = true →
    let reply : State → List Word := fun u =>
      let x := u.chains[k]
      [w32 (fld 0 8 (x.tap / 128) + fld 8 7 x.tap + fld 15 8 (x.tapT / 128) + fld 23 7 x.tapT + flag 30 (x.tap == x.tapT)),
       w32 u.factory.tAnPs[k]]
    (bit w 6 = false → accAny c = true → exec (.delayTapSet p) s = replied 0x0604 p s1 stOk (reply s1) s1) ∧
    (bit w 6 = true → accEng c = true → 0 ≤ s1.factory.tAnPs[k] + trim.toInt → s1.factory.tAnPs[k] + trim.toInt ≤ 255992 →
      let t := { s1 with chains := vmod s1.chains k fun x =>
        { x with tapT := tapOfPs (s1.factory.tAnPs[k] + trim.toInt), trimPs := trim, adjMs := w.extractLsb' 7 8, tapAt := s1.lcN } }
      s1.breaksLimits t = false → exec (.delayTapSet p) s = replied 0x0604 p s1 stOk (reply t) t)) ∧
  ∀ (k : SettId) (s : State), (s.chains[k]).tap ≠ (s.chains[k]).tapT → exec (.delayTapAdjust k) s = .next
    (let x := s.chains[k]
     let s1 := atLc (x.tapAt + (if x.adjMs = 0 then 10 else x.adjMs.toNat) * 1000000) s
     { s1 with chains := vmod s1.chains k fun y =>
       { y with tap := if y.tap < y.tapT then y.tap + 1 else y.tap - 1, tapAt := s1.lcN } })

/-- The sync exchange (R231 to R238, R241, R242). -/
def Obligations.SyncExchange : Prop :=
  (∀ (k : Port) (s : State), s.timePort k = true → s.time.parent ≠ some k → (s.fab.leads = true ∨ s.time.parent.isSome = true) →
    exec (.syncInterval k) s = .next
      (let s1 := atLc (s.time.sentAt[k] + 2 ^ s.time.cfg.syncLog2.toNat * 1000000) s
       sendOn k (mkFrame s1 1 0x11 true false (s.neighbourId k) none (syncFuPayload s1.nt s1))
         (sendOn k (mkFrame s1 1 0x10 true false (s.neighbourId k) none [])
           { s1 with time := { s1.time with sentAt := vset s1.time.sentAt k s1.lcN } }))) ∧
  (∀ (k : Port) (t2 t3 : Nat) (s : State), s.time.parent = some k → s.timePort k = true →
    let n := s.ntOfStamp t2
    let taken (gap : Option Int) (interval : Nat) : State := { s with time := { s.time with
      exch := { Exchange.none with t2 := some n, t3 := some (s.ntOfStamp t3), gap := gap }, lastSync := some n, parentNs := interval } }
    let answer (u : State) : State := sendOn k (mkFrame s 1 0x12 true false (s.neighbourId k) none []) u
    (∀ q, s.time.lastSync = some q → 0 < n - q →
      exec (.syncRx k t2 t3) s = .next (answer (taken (some (n - q)) (intervalOf (n - q))))) ∧
    ((∀ q, s.time.lastSync = some q → n - q ≤ 0) → exec (.syncRx k t2 t3) s = .next (answer (taken none s.time.parentNs)))) ∧
  (∀ (k : Port) (fu : SyncFu) (s : State), s.timePort k = true →
    let u := seekParent (noteOffer k fu s)
    (u.time.parent = some k → fu.hops = 15 → exec (.syncFuRx k fu) s = .next (loseParent k u)) ∧
    (u.time.parent = some k → fu.hops ≠ 15 → exec (.syncFuRx k fu) s = .next { u with time := { u.time with
      hops := fu.hops + 1, exch := { u.time.exch with t1 := some fu.t1, tshift := fu.tshift, stepSeq := fu.stepSeq } } }) ∧
    (u.time.parent ≠ some k → exec (.syncFuRx k fu) s = .next u)) ∧
  (∀ (k : Port) (t4 : Nat) (s : State), s.timePort k = true → exec (.delayReqRx k t4) s = .next
    (sendOn k (mkFrame s 1 0x13 true false (s.neighbourId k) none (ntFrame (s.ntOfStamp t4))) s)) ∧
  (∀ (k : Port) (t1 t2 t3 t4 : Int) (s : State), s.time.parent = some k → s.timePort k = true → s.time.exch.t1 = some t1 →
    s.time.exch.t2 = some t2 → s.time.exch.t3 = some t3 → exec (.delayRespRx k t4) s = .next
      (let e := nsOf ((t2 - t1) - (t4 - t3)) / 2 - (s.time.cfg.asymPs[k].toInt : Rat) / 1000
       let u := { s with time := { s.time with
         d := nsOf ((t2 - t1) + (t4 - t3)) / 2, tshift := s.time.exch.tshift, stepSeq := s.time.exch.stepSeq
         exchAt := s.lcN, exch := Exchange.none } }
       let ts : Rat := match s.time.exch.gap with
         | some g => nsOf g
         | none => (s.time.parentNs : Rat)
       let up := match s.time.offers[k] with
         | some o => o.tq == 3 || o.tq == 4
         | none => false
       servo false e ts (5 / 100) (1 / 10) up (s.time.exch.stepSeq != s.time.stepSeq) true u)) ∧
  (∀ (e ts good bad : Rat) (up new : Bool) (s : State),
    (e ≠ 0 → (s.time.tq = 1 ∨ (s.time.cfg.stepLimit.toNat : Rat) * 100 < absR e ∨ new = true) →
      servo false e ts good bad up new true s = steer ts (timeStep false e { s with time := { s.time with e := e } })) ∧
    ((e = 0 ∨ s.time.tq ≠ 1 ∧ absR e ≤ (s.time.cfg.stepLimit.toNat : Rat) * 100 ∧ new = false) →
      servo false e ts good bad up new true s = judgeTq e bad up (countLock e good bad (steer ts (slew e ts s))))) ∧
  (∀ (e : Rat) (s : State), (timeStep false e s).time.epoch = s.time.epoch + 1 ∧ (timeStep false e s).time.rP = 0 ∧
    (timeStep false e s).time.tshift = s.time.tshift ∧ (timeStep false e s).time.tq = 2 ∧ (timeStep false e s).time.lc = s.time.lc) ∧
  (∀ (k : Port) (s : State), s.time.parent = some k → exec .parentLoss s = .next
    (loseParent k (if s.linkUp k then atLc (s.time.exchAt + 3 * s.time.parentNs) s else s))) ∧
  (∀ (k : Port) (s : State),
    let u := { s with time := { s.time with
      parent := none, offers := vset s.time.offers k none, exch := Exchange.none, lastSync := none } }
    (u.bestParent = none → loseParent k s = parentGone u) ∧
    (∀ b, u.bestParent = some b → loseParent k s =
      (let v := if u.time.tq = 3 then parentGone u else u
       takeParent b (if v.time.tq = 2 then setTq 1 v else v)))) ∧
  ∀ (k b : Port) (o x : TimeOffer) (s : State), s.time.parent = some k → s.time.offers[k] = some o → s.time.offers[b] = some x → k ≠ b →
    s.parentFit b = true → x.hops.toNat < o.hops.toNat → exec (.parentReselect b) s = .next (takeParent b (atLc (x.since + 1000000000) s))

/-- The rows of a leader's time, the time map and the wrap of LC (R226, R230, R236, R238, R244 to R247). -/
def Obligations.LeaderTime : Prop :=
  (∀ s : State, s.fab.leads = true → exec .leaderServoUpdate s = .next
    (let s1 := atLc (s.time.exchAt + 1000000) s
     let u := { s1 with time := { s1.time with exchAt := s1.lcN } }
     let s2 := steer 1000000 (if u.fab.leads && u.time.cfg.source == .none then
       setRate 0 { u with time := { u.time with rI := 0, rP := 0, iSat := false } } else u)
     if s2.sourceJudges || (s2.time.tq == 4 && s2.time.srcState.lost) then s2
     else judgeTq 0 (1 / 10) true (countLock 0 (5 / 100) (1 / 10) s2))) ∧
  (∀ (t : Nat) (s : State), s.time.holdAt = some t → s.time.tq = 4 → exec .holdoverExpiry s = .next
    (let s1 := atLc (t + s.time.cfg.holdover.toNat * 1000000000) s
     if s1.fab.leads && !s1.sourceJudges then setTq 3 s1 else if s1.time.parent.isSome then setTq 1 s1 else setTq 0 s1)) ∧
  (∀ s : State, s.time.tclk = true → s.boot.fwRuns = true → exec .timeMapInterval s = .next
    (let s1 := atLc (s.time.mapAt + 1000000000) s
     raiseTimeMap { s1 with time := { s1.time with mapAt := s1.lcN } })) ∧
  (∀ (q : BitVec 4) (s : State), s.time.tq ≠ q → (setTq q s).time.tq = q ∧ (setTq q s).time.epoch = s.time.epoch) ∧
  (∀ (stamp : Nat) (s : State), s.fab.leads = true → s.time.cfg.source = .pps →
    let st : Int := (stamp : Int) - s.time.cfg.ppsDelay.toNat * 256
    let near (l : Int) : Prop := (st - l - 1000000000 * 256).natAbs ≤ 100000 * 256
    (∀ l, s.time.srcState.lastEdge = some l → ¬ near l → exec (.ppsEdge stamp) s = .next { s with time := { s.time with
      srcState := { s.time.srcState with ignored := s.time.srcState.ignored + 1 } } }) ∧
    ((∀ l, s.time.srcState.lastEdge = some l → near l) → exec (.ppsEdge stamp) s = .next
      (let sec : Nat := match s.time.cfg.ppsSec, s.time.srcState.lastEdge with
         | some n, _ => n
         | none, some _ => s.time.srcState.second + 1
         | none, none => (roundDiv (s.ntOfStamp st) (65536 * 1000000000)).toNat
       sourceUpdate (nsOf (s.ntOfStamp st) - (sec : Rat) * 1000000000) 1000000000 { s with time := { s.time with
         cfg := { s.time.cfg with ppsSec := none }
         srcState := { s.time.srcState with second := sec, lastEdge := some st, syncAt := s.lcN } } }))) ∧
  (∀ (a : Announce) (s : State), s.ptpOn a.port = true → a.domain = s.time.cfg.ptpDomain →
    let taken := { s with time := { s.time with srcState :=
      { s.time.srcState with master := some a, announceAt := s.lcN, utcOffset := a.utcOffset } } }
    (s.time.srcState.master = none → exec (.ptpAnnounceRx a) s = .next taken) ∧
    (∀ m, s.time.srcState.master = some m → (m.clockId = a.clockId ∨ keyBefore (announceKey a) (announceKey m) = true) →
      exec (.ptpAnnounceRx a) s = .next taken) ∧
    (∀ m, s.time.srcState.master = some m → m.clockId ≠ a.clockId → keyBefore (announceKey a) (announceKey m) = false →
      exec (.ptpAnnounceRx a) s = .next s)) ∧
  (∀ (k : Fin 8) (id : Word64) (seq : BitVec 16) (s : State), s.fromMaster k id = true →
    let x := s.time.srcState
    (∀ stamp, exec (.ptpSyncRx k id seq stamp) s = .next { s with time := { s.time with
      srcState := { x with syncSeq := some (seq, s.ntOfStamp stamp), syncAt := s.lcN } } }) ∧
    (∀ t2 origin, x.syncSeq = some (seq, t2) → exec (.ptpFollowUpRx k id seq origin) s = .next { s with time := { s.time with
      srcState := { x with syncSeq := none, t12 := some (origin, t2), reqSeq := x.reqSeq + 1, reqOut := some (x.reqSeq, s.time.cfg.ptpUdp) } } }) ∧
    (∀ t1 t2 sent receive udp, x.t12 = some (t1, t2) → x.reqOut = some (seq, udp) → exec (.ptpDelayRespRx k id seq sent receive) s = .next
      (sourceUpdate (nsOf ((t2 - t1) - (receive - s.ntOfStamp sent)) / 2)
        (if x.received && s.lcN - x.updAt ≠ 0 then ((s.lcN - x.updAt : Nat) : Rat) else 1000000000)
        { s with time := { s.time with srcState := { x with t12 := none, reqOut := none } } })) ∧
    ∀ sent receive, (∀ udp, x.reqOut ≠ some (seq, udp)) → exec (.ptpDelayRespRx k id seq sent receive) s = .next s) ∧
  (∀ s : State, s.fab.leads = true → s.time.cfg.source ≠ .none → s.time.srcState.received = true → s.time.srcState.lost = false →
    exec .sourceLost s = .next
      (let x := s.time.srcState
       let s1 := atLc ((if s.time.cfg.source == .ptp then min x.announceAt x.syncAt else x.syncAt) + 3000000000) s
       let u := { s1 with time := { s1.time with srcState := { s1.time.srcState with
         lost := true, locked := false, lastEdge := none, master := none, syncSeq := none, t12 := none, reqOut := none } } }
       if u.time.cfg.srcRequired || u.time.tq == 3 then parentGone u
       else setRate u.time.rI { u with time := { u.time with rP := 0 } })) ∧
  ∀ s : State, s.time.tclk = true → exec .lcWrap s = .next (elapse (2 ^ 64 - s.lcN) s)

/-- The edge timing commands (R256, R264, R272, R274 to R277). -/
def Obligations.EdgeCommands : Prop :=
  (∀ (p : Packet) (s s1 : State) (c : Ctx) (w0 w1 w2 : Word) (i : Fin 16), admitted 0x0700 p s = some (c, s1) →
    p.params = [w0, w1, w2] → bits w0 3 0 = i.val → resv w0 31 5 = true → resv w1 31 4 = true →
    let reply : State → List Word := fun u =>
      [w32 (edgeSettings u.tdc.inputs[i] + flag 4 (u.tdc.inputs[i]).calDeg + flag 5 (u.sup.bankLevel[3] == some true)),
       (u.tdc.inputs[i]).delayPs, w32i u.factory.tInPs[i]]
    (bit w0 4 = false → accAny c = true → exec (.tdcConfig p) s = replied 0x0700 p s1 stOk (reply s1) s1) ∧
    (bit w0 4 = true → accEng c = true → -1000000 ≤ w2.toInt → w2.toInt ≤ 1000000 →
      let t := { s1 with tdc := { s1.tdc with inputs := vmod s1.tdc.inputs i fun e =>
        { e with sel := w1.extractLsb' 0 2, stampEn := bit w1 2, cmos := bit w1 3, delayPs := w2
                 changeEnd := if e.cmos = bit w1 3 then e.changeEnd else some (s1.lcN + 10000) } } }
      s1.breaksLimits t = false → exec (.tdcConfig p) s = replied 0x0700 p s1 stOk (reply t) t)) ∧
  (∀ (p : Packet) (s s1 : State) (c : Ctx) (w0 w1 w2 : Word) (m : Fin 8), admitted 0x0701 p s = some (c, s1) →
    p.params = [w0, w1, w2] → bits w0 2 0 = m.val → resv w0 31 16 = true → resv w1 31 20 = true → resv w2 31 30 = true →
    (bit w0 3 = false → accAny c = true → exec (.tdcWindow p) s = replied 0x0701 p s1 stOk (unitWords m s1.tdc.units[m]) s1) ∧
    (bit w0 3 = true → accEng c = true → 4 ≤ bits w2 29 0 → bits w2 29 0 ≤ 1000000000 →
      (bits w0 9 6 ≠ bits w0 14 11 ∨ bit w0 10 ≠ bit w0 15) →
      let f := flushTie m s1
      let t := { f with tdc := { f.tdc with units := vmod f.tdc.units m fun u =>
        { u with start := none, stop := none
                 startOrphan := if u.start.isSome then u.startOrphan + 1 else u.startOrphan
                 stopLate := if u.stop.isSome then u.stopLate + 1 else u.stopLate
                 enable := bit w0 4, bipolar := bit w0 5, startIn := w0.extractLsb' 6 4, startFall := bit w0 10
                 stopIn := w0.extractLsb' 11 4, stopFall := bit w0 15, wPre := w1.extractLsb' 0 20, wPost := w2.extractLsb' 0 30 } } }
      s1.breaksLimits t = false → exec (.tdcWindow p) s = replied 0x0701 p s1 stOk (unitWords m t.tdc.units[m]) t)) ∧
  (∀ (p : Packet) (s s1 : State) (c : Ctx) (w : Word), admitted 0x0702 p s = some (c, s1) → p.params = [w] → resv w 31 6 = true →
    (if bit w 5 then accOp c else accAny c) = true →
    (∀ i : Fin 16, bits w 4 0 = i.val →
      let e := s1.tdc.inputs[i]
      let t := if bit w 5 then { s1 with tdc := { s1.tdc with inputs := vmod s1.tdc.inputs i fun e => { e with edges := 0, lost := 0, deadtime := 0 } } } else s1
      s1.breaksLimits t = false → exec (.tdcRead p) s = replied 0x0702 p s1 stOk
        ([e.edges, e.lost, e.deadtime].flatMap wrapWords ++ words64 (lowBits 64 (e.lastStamp / 256)) ++ [w32 (lowBits 8 e.lastStamp)]) t) ∧
    (∀ m : Fin 8, bits w 4 0 = 16 + m.val →
      let t := if bit w 5 then { s1 with tdc := { s1.tdc with units := vmod s1.tdc.units m clearUnit } } else s1
      s1.breaksLimits t = false → exec (.tdcRead p) s = replied 0x0702 p s1 stOk ((unitCounters s1.tdc.units[m]).flatMap wrapWords) t)) ∧
  ∀ (p : Packet) (s s1 : State) (c : Ctx) (w : Word), admitted 0x0703 p s = some (c, s1) → p.params = [w] → resv w 31 17 = true →
    (bit w 16 = false → accAny c = true → bits w 15 0 = 0 → exec (.tdcCal p) s = replied 0x0703 p s1 stOk (tdcCalWords s1.tdc) s1) ∧
    (bit w 16 = true → accEng c = true → (∀ i ∈ maskFins 16 (bits w 15 0), (s1.tdc.inputs[i]).calibrating = none) →
      ∃ t, (∀ i : Fin 16, t.tdc.inputs[i] = if (bits w 15 0).testBit i.val then { s1.tdc.inputs[i] with calibrating := some s1.lcN } else s1.tdc.inputs[i]) ∧
        t = { s1 with tdc := { s1.tdc with inputs := t.tdc.inputs } } ∧
        (s1.breaksLimits t = false → exec (.tdcCal p) s = replied 0x0703 p s1 stOk (tdcCalWords t.tdc) t))

/-- Edges, measurement units and interpolators (R256 to R258, R262 to R264, R267, R269 to R271). -/
def Obligations.EdgeRows : Prop :=
  (∀ (i : Fin 16) (rising : Bool) (n : Nat) (s : State), s.time.tclk = true →
    let s1 := atLc (n / 256) s
    let e := s1.tdc.inputs[i]
    let stamp := roundDiv ((n : Int) * 125 - (s1.factory.tInPs[i] + e.delayPs.toInt) * 32) 125
    let s2 := { s1 with tdc := { s1.tdc with inputs := vmod s1.tdc.inputs i (noteEdge n rising) } }
    ((∃ t, e.changeEnd = some t ∧ n < 256 * t) → exec (.edgeInput i rising n) s = .next s1) ∧
    ((∀ t, e.changeEnd = some t → 256 * t ≤ n) →
      ((∃ r, e.lastRaw = some r ∧ (n : Int) - r < 1024) → exec (.edgeInput i rising n) s = .next { s1 with tdc := { s1.tdc with
        inputs := vmod s1.tdc.inputs i fun e => { e with deadtime := e.deadtime + 1 } } }) ∧
      ((∀ r, e.lastRaw = some r → 1024 ≤ (n : Int) - r) →
        (e.calibrating.isSome = true → exec (.edgeInput i rising n) s = .next (loseEdge i stamp true s2)) ∧
        (e.calibrating = none → exec (.edgeInput i rising n) s = .next (acceptEdge i rising stamp s2))))) ∧
  (∀ (t : Stamp) (u : MeasUnit),
    (u.start = none → u.stop = none → muStart t u = ({ u with start := some t }, none) ∧ muStop t u = ({ u with stop := some t }, none)) ∧
    (∀ a, u.start = some a → muStart t u = ({ u with start := some t, startOrphan := u.startOrphan + 1 }, none) ∧
      (a ≤ t → muStop t u = ({ u with start := none, stop := none, results := u.results + 1
                                      coincident := if a = t then u.coincident + 1 else u.coincident }, some ⟨a, t - a⟩))) ∧
    (∀ b, u.start = none → u.stop = some b → b < t →
      muStop t u = ({ u with stop := some t, stopLate := u.stopLate + 1 }, none) ∧
      (u.bipolar = true → muStart t u = ({ u with stop := none, results := u.results + 1 }, some ⟨t, b - t⟩)) ∧
      (u.bipolar = false → muStart t u = ({ u with start := some t, stop := none, stopEarly := u.stopEarly + 1 }, none))) ∧
    (u.start = none → u.stop = some t → muStart t u =
      ({ u with stop := none, results := u.results + 1, coincident := u.coincident + 1 }, some ⟨t, 0⟩))) ∧
  (∀ (i : Fin 16) (rising : Bool) (t : Stamp) (m : Fin 8) (s : State),
    let u := s.tdc.units[m]
    (isStart u i rising = false → isStop u i rising = false → unitTake i rising t s m = s) ∧
    (∀ x, u.tie = some x → x.stamp = t → x.byStop = isStart u i rising → (isStart u i rising = true ∨ isStop u i rising = true) →
      unitTake i rising t s m = emitInterval m { start := t, value := 0 } { s with tdc := { s.tdc with
        units := vmod s.tdc.units m fun y => { y with
          tie := none, coincident := y.coincident + 1
          startOrphan := if x.byStop then y.startOrphan + 1 else y.startOrphan
          stopLate := if x.byStop then y.stopLate else y.stopLate + 1 } } })) ∧
  (∀ (t a : Stamp) (u : MeasUnit), u.start = some a → u.stop = none →
    muExpire t u = if a + u.wPost.toNat * 256 < t then { u with start := none, winEmpty := u.winEmpty + 1 } else u) ∧
  (∀ (m : Fin 8) (x : Stamp) (s : State),
    ((s.tdc.units[m]).start = some x → exec (.muWindowClose m) s = .next
      (let s1 := atLc ((x + (s.tdc.units[m]).wPost.toNat * 256) / 256).toNat s
       { s1 with tdc := { s1.tdc with units := vmod s1.tdc.units m fun u => { u with start := none, winEmpty := u.winEmpty + 1 } } })) ∧
    ((s.tdc.units[m]).stop = some x → exec (.muHeldStopExpiry m) s = .next
      (let s1 := atLc ((x + (s.tdc.units[m]).wPre.toNat * 256) / 256).toNat s
       { s1 with tdc := { s1.tdc with units := vmod s1.tdc.units m fun u => { u with stop := none, stopLate := u.stopLate + 1 } } }))) ∧
  (∀ (i : Fin 16) (t : Nat) (s : State), (s.tdc.inputs[i]).changeEnd = some t → exec (.elecChangeEnd i) s = .next
    (let s1 := atLc t s
     { s1 with tdc := { s1.tdc with inputs := vmod s1.tdc.inputs i fun e => { e with changeEnd := none } } })) ∧
  (∀ (i : Fin 16) (hits : List (List Nat)) (t : Nat) (s : State), (s.tdc.inputs[i]).calibrating = some t →
    let s1 := atLc (t + 50000000) s
    let done (e : EdgeIn) : EdgeIn :=
      { e with calibrating := none, losses := e.losses.map fun x => { x with closed := x.closed || x.cal } }
    let ended (f : EdgeIn → EdgeIn) (g : Tdc → Tdc) : State :=
      { s1 with tdc := g { s1.tdc with inputs := vmod s1.tdc.inputs i fun e => f (done e) } }
    ((hits.length ≠ 2 ∨ ∃ h ∈ hits, histBad h = true) → exec (.tdcCalDone i hits) s = .next (emitLoss i
      (ended (fun e => { e with calDeg := true }) fun x => { x with lastFailed := true }))) ∧
    (∀ a b, hits = [a, b] → histBad a = false → histBad b = false →
      let first : Fin 66 := ⟨i.val, by omega⟩
      let second : Fin 66 := ⟨50 + i.val, by omega⟩
      exec (.tdcCalDone i hits) s = .next (emitLoss i (judgeChannel (inputChannel i)
        (ended id fun x => { x with
          lastFailed := false, maps := vset (vset x.maps first (histMap a)) second (histMap b)
          inl := vset (vset x.inl first (mapInl (histMap a))) second (mapInl (histMap b)) }))))) ∧
  (∀ (id : Fin 66) (hits : List Nat) (lc : Nat) (s : State), s.time.tclk = true → hits.sum = 2 ^ 22 →
    (∀ i : Fin 16, (id.val = i.val ∨ id.val = 50 + i.val) → (s.tdc.inputs[i]).calibrating = none ∧
      ∀ r, (s.tdc.inputs[i]).lastRaw = some r → r + 25600 ≤ 256 * lc) →
    ∃ u, exec (.tdcTrackUpdate id hits lc) s = .next (judgeChannel (interpChannel id) u) ∧
      let s1 := atLc (lc + 4) s
      let m := stepMap s1.tdc.maps[id] (histMap hits)
      u = { s1 with tdc := { s1.tdc with
        inputs := u.tdc.inputs, maps := vset s1.tdc.maps id m, inl := vset s1.tdc.inl id (mapInl m), updates := s1.tdc.updates + 1 } } ∧
      ∀ i : Fin 16, u.tdc.inputs[i] = if id.val = i.val ∨ id.val = 50 + i.val then
        { s1.tdc.inputs[i] with starved := false, busySince := none } else s1.tdc.inputs[i]) ∧
  (∀ old new : List Rat, (stepMap old new).length = new.length ∧ ∀ (n : Nat) (a b : Rat), old[n]? = some a → new[n]? = some b →
    ∃ c, (stepMap old new)[n]? = some c ∧ c ≤ a + 1 / 4 ∧ a ≤ c + 1 / 4 ∧ (a ≤ b + 1 / 4 → b ≤ a + 1 / 4 → c = b)) ∧
  (∀ (i : Fin 16) (t : Nat) (r : Stamp) (s : State), (s.tdc.inputs[i]).busySince = some t → (s.tdc.inputs[i]).starved = false →
    (s.tdc.inputs[i]).lastRaw = some r → 256 * (((t + 60000000000 : Nat)) : Int) < r + 25600 →
    exec (.trackStarved i) s = .next
      (let s1 := atLc (t + 60000000000) s
       raise { s1 with tdc := { s1.tdc with inputs := vmod s1.tdc.inputs i fun e => { e with starved := true } } } 0x1009 [w32 i.val])) ∧
  ∀ (i : Fin 16) (s : State), (s.tdc.inputs[i]).losses ≠ [] →
    exec (.edgeLossEntry i) s = .next (if 256 ≤ (s.tdc.inputs[i]).queue.length then drainEdge i s else emitLoss i s)

/-- Quadrature pairs (R279, R284 to R286, R290 to R292, R294 to R296). -/
def Obligations.Quadrature : Prop :=
  (∀ (p : Packet) (s s1 : State) (c : Ctx) (q : Fin 24), admitted 0x0810 p s = some (c, s1) → p.params.length = 8 →
    bits (pw p.params 0) 4 0 = q.val → resv (pw p.params 1) 31 24 = true →
    let w0 := pw p.params 0
    let w1 := pw p.params 1
    let reply : State → List Word := fun u =>
      let x := u.quad[q]
      [w32 (flag 6 x.enable + flag 7 x.adapt + flag 8 x.invert + flag 9 x.refRequired + fld 12 4 x.winLog2.toNat + fld 16 8 x.pairBase.toNat)]
    (bit w0 5 = false → accAny c = true → exec (.quadConfig p) s = replied 0x0810 p s1 stOk (reply s1) s1) ∧
    (bit w0 5 = true → accEng c = true → 10 ≤ bits w0 15 12 → bits w0 23 16 ≤ 191 → bits w1 15 0 ≠ 0 → bits w1 23 16 ≠ 0 →
      bits w1 23 16 ≤ 0xF3 → (bit w0 6 = true → quadEnableOk q (bits w0 23 16) s1 = true) →
      s1.safeLocked (fun b => b.namesSlot q.val) = false →
      let t := applyQuad q p.params s1
      let u := judgeBounds t
      (s1.breaksLimits u = false → exec (.quadConfig p) s = replied 0x0810 p s1 stOk (reply u) u) ∧
      t = { s1 with quad := t.quad } ∧ (∀ r : Fin 24, r ≠ q → t.quad[r] = s1.quad[r]) ∧
      (t.quad[q]).enable = bit w0 6 ∧ (t.quad[q]).adapt = bit w0 7 ∧ (t.quad[q]).invert = bit w0 8 ∧ (t.quad[q]).refRequired = bit w0 9 ∧
      (t.quad[q]).pairBase.toNat = bits w0 23 16 ∧
      (bit w0 6 = true → (s1.quad[q]).enable = false → (t.quad[q]).intervals = 0 ∧ (t.quad[q]).pos = 0 ∧ (bit w0 10 = false → (t.quad[q]).posLost = true)) ∧
      (bit w0 10 = true → (t.quad[q]).posSet = some (pw p.params 3 ++ pw p.params 2)) ∧
      (bit w0 11 = true →
        (t.quad[q]).coef = { ox := pw p.params 4, oy := pw p.params 5, k := pw p.params 6, phi := pw p.params 7 } ∧
        (t.quad[q]).target = (t.quad[q]).coef ∧ (t.quad[q]).stored = some (t.quad[q]).coef) ∧
      (bit w0 11 = false → (t.quad[q]).coef = (s1.quad[q]).coef ∧ (t.quad[q]).target = (s1.quad[q]).target))) ∧
  (∀ (p : Packet) (s s1 : State) (c : Ctx) (w : Word) (q : Fin 24), admitted 0x0811 p s = some (c, s1) → p.params = [w] →
    bits w 4 0 = q.val → resv w 31 5 = true → accAny c = true → exec (.quadStatus p) s = replied 0x0811 p s1 stOk
      (let x := s1.quad[q]
       let tx := (s1.chans[x.memberX]).tap
       let ty := (s1.chans[x.memberY]).tap
       [w32 (flag 0 x.enable + flag 1 (x.freeze != 0) + fld 2 3 x.freeze.toNat + flag 5 x.qualified + flag 6 x.posLost +
          flag 7 x.signalLow + flag 8 (x.atTarget tx ty) + flag 9 x.stored.isSome), x.winOk, x.winRejected] ++
        coefWords x.coef ++ coefWords x.target ++ [w32 x.amplitude.toNat, x.phase] ++ words64 x.pos.toNat ++
        [w32 (min 0xFFFF (x.rampLeft tx ty))]) s1) ∧
  (∀ (q : Fin 24) (lc : Nat) (s : State), (s.quad[q]).enable = true → (s.setts[(s.quad[q]).sett]).shed = false →
    (s.quad[q]).adapt = true → 2 ^ (s.quad[q]).winLog2.toNat = (s.quad[q]).win.n →
    exec (.quadWindowEnd q lc) s = .next (let s1 := atLc lc s
      { s1 with quad := vmod s1.quad q endQuadWindow })) ∧
  (∀ y : Slot,
    let r := freezeReason y y.win.fit
    (∀ f, y.win.fit = some f → r = 0 → endQuadWindow y =
      (let e := f.estimate y.coef
       { y with win := QuadWin.empty, freeze := 0, qualified := true, everQualified := true, winOk := satInc y.winOk
                amplitude := BitVec.ofNat 24 f.amplitude
                target := { ox := w32i e.1, oy := w32i e.2.1, k := w32i e.2.2.1, phi := w32i e.2.2.2 } })) ∧
    (r ≠ 0 → endQuadWindow y = { y with win := QuadWin.empty, freeze := r, winRejected := satInc y.winRejected })) ∧
  (∀ (q : Fin 24) (s : State), (s.quad[q]).enable = true → (s.setts[(s.quad[q]).sett]).shed = false → (s.quad[q]).freeze = 0 → ∃ t y, exec (.quadAdjustInterval q) s = .next t ∧
    let x := s.quad[q]
    let n := nextInterval x.enableLc x.intervals (adjNs x.adjMs) s.lcN
    let s1 := atLc (x.enableLc + n * adjNs x.adjMs) s
    let z := s1.quad[q]
    t = { s1 with quad := vset s1.quad q y } ∧ y.intervals = n ∧ y.target = z.target ∧ y.pos = z.pos ∧
    y.coef.k = w32i (approach z.coef.k.toNat z.target.k.toNat 65536) ∧ y.coef.phi = w32i (approach z.coef.phi.toInt z.target.phi.toInt 65536) ∧
    (y.trimX.toInt - z.trimX.toInt).natAbs ≤ 1 ∧ (y.trimY.toInt - z.trimY.toInt).natAbs ≤ 1) ∧
  (∀ (v g : Int) (n : Nat), (approach v g n - v).natAbs ≤ n ∧ ((g - v).natAbs ≤ n → approach v g n = g) ∧ ((approach v g n - g).natAbs ≤ (v - g).natAbs)) ∧
  ∀ (q : Fin 24) (tick lc : Nat) (wx wy : Word) (s : State), hasF (sampleFlags wx ||| sampleFlags wy) (flagInv ||| flagRet) = true →
    let t := quadTick q tick lc wx wy s
    (t.quad[q]).pos = (s.quad[q]).posSet.getD (s.quad[q]).pos ∧ (t.quad[q]).posSet = none ∧ (t.quad[q]).phase = (s.quad[q]).phase ∧
    (t.quad[q]).havePhase = false ∧ (t.quad[q]).posLost = true ∧ (t.quad[q]).coef = (s.quad[q]).coef

/-- The commands of the Hoard (R331, R335, R337, R341, R343, R344, R347 to R353). -/
def Obligations.HoardCommands : Prop :=
  (∀ (p : Packet) (s s1 : State) (c : Ctx) (w0 w1 w2 w3 w4 : Word) (i : Fin 64), admitted 0x0900 p s = some (c, s1) →
    p.params = [w0, w1, w2, w3, w4] → accOp c = true → s1.pair.syncing = false → bits w0 5 0 = i.val → resv w0 31 27 = true →
    resv w2 31 22 = true → resv w3 31 17 = true → resv w4 31 20 = true → bits w0 7 6 < 2 → (bit w0 16 = true → bits w0 26 17 ≤ 15) →
    1 ≤ bits w3 12 0 → bits w3 12 0 ≤ 4096 → bits w3 16 13 ≠ 0 → 100 ≤ bits w4 19 0 → bits w4 19 0 ≤ 1000000 →
    s1.hoard.subs[i] = none →
    let curs := (((maskStreams w1 w2).filter fun k : Fin 54 => k.val != 53) ++ [53]).map fun k : Fin 54 =>
      newCursor k.val (if bits w0 7 6 = 1 then (s1.hoard.streams[k]).oldest else (s1.hoard.streams[k]).nextSeq)
    let t := { s1 with hoard := { s1.hoard with subs := vset s1.hoard.subs i (some
      { uplink := bit w0 16, dest := w0.extractLsb' 17 10, window := w3.extractLsb' 0 13, maxResends := w3.extractLsb' 13 4
        ackUs := w4.extractLsb' 0 20, run := 0, cursors := curs, hold := none }) } }
    s1.breaksLimits t = false → exec (.subOpen p) s = replied 0x0900 p s1 stOk
      (w32 (fld 8 6 curs.length) :: curs.flatMap fun k => seqWords k.nextSend k.stream) t) ∧
  (∀ (p : Packet) (s s1 : State) (c : Ctx) (i : Fin 64) (u : Sub), admitted 0x0901 p s = some (c, s1) → accOp c = true →
    bits (pw p.params 0) 5 0 = i.val → resv (pw p.params 0) 31 12 = true → 1 ≤ bits (pw p.params 0) 11 6 → bits (pw p.params 0) 11 6 ≤ 54 →
    p.params.length = 1 + 2 * bits (pw p.params 0) 11 6 → s1.hoard.subs[i] = some u →
    let es := (List.range (bits (pw p.params 0) 11 6)).map (ackEntry p.params)
    (∀ e ∈ es, ackBad u e = false) →
    let r := ackAll es (u, 0, 0)
    let t := { s1 with hoard := { s1.hoard with subs := vset s1.hoard.subs i (some { r.1 with cursors := r.1.cursors.map resumeCursor }) } }
    s1.breaksLimits t = false → exec (.subAck p) s = replied 0x0901 p s1 stOk [w32 (fld 0 6 r.2.1 + fld 6 6 r.2.2)] t) ∧
  (∀ (p : Packet) (s s1 : State) (c : Ctx) (w : Word) (i : Fin 64), admitted 0x0902 p s = some (c, s1) → p.params = [w] →
    accOp c = true → resv w 31 7 = true → bits w 5 0 = i.val →
    let t := { s1 with hoard := { s1.hoard with subs := if bit w 6 then Vector.replicate 64 none else vset s1.hoard.subs i none } }
    s1.breaksLimits t = false → exec (.subClose p) s = replied 0x0902 p s1 stOk [] t) ∧
  (∀ (p : Packet) (s s1 : State) (c : Ctx) (w0 w1 w2 w3 w4 : Word) (i : Fin 256), admitted 0x0903 p s = some (c, s1) →
    p.params = [w0, w1, w2, w3, w4] → accOp c = true → resv w0 31 23 = true → resv w2 31 22 = true → bits w0 7 0 = i.val →
    (if bit w0 10 then bits w0 22 11 ≠ 0 ∧ bits w0 22 11 ≤ 4064 else bits w0 22 11 = 0) →
    (bits w0 9 8 = 0 →
      let parts := (maskStreams w1 w2).map fun k => (k, (s1.hoard.streams[k]).nextSeq)
      let t := { s1 with hoard := { s1.hoard with marks := vset s1.hoard.marks i (some
        { parts := parts.map fun x => (x.1.val, x.2, true), guardMib := if bit w0 10 then some (bits w0 22 11) else none, risked := [] }) } }
      s1.breaksLimits t = false → exec (.markSet p) s = replied 0x0903 p s1 stOk (markReply parts) t) ∧
    (bits w0 9 8 = 2 → w1 = 0 → w2 = 0 → w3 = 0 → w4 = 0 →
      let t := { s1 with hoard := { s1.hoard with marks := vset s1.hoard.marks i none } }
      s1.breaksLimits t = false → exec (.markSet p) s = replied 0x0903 p s1 stOk (markReply []) t)) ∧
  (∀ (p : Packet) (s s1 : State) (c : Ctx) (w0 w1 w2 : Word) (i : Fin 64) (u : Sub), admitted 0x0904 p s = some (c, s1) →
    p.params = [w0, w1, w2] → accOp c = true → resv w0 31 15 = true → resv w2 31 22 = true → bits w0 5 0 = i.val → bit w0 14 = true →
    s1.hoard.subs[i] = some u →
    let names := rewindNames w1 w2 u none
    (∀ k ∈ names, (u.cursor k.val).isSome = true) →
    let v := names.foldl (fun x k => x.modCursor k.val (rewindCursor (s1.hoard.streams[k]).oldest))
      { u with run := u.run + 1, cursors := u.cursors.map fun k => { k with runSent := none } }
    let t := { s1 with hoard := { s1.hoard with subs := vset s1.hoard.subs i (some v) } }
    s1.breaksLimits t = false → exec (.rewind p) s = replied 0x0904 p s1 stOk
      (w32 ((u.run + 1).toNat + fld 8 6 names.length) :: names.flatMap fun k => seqPair k (s1.hoard.streams[k]).oldest) t) ∧
  (∀ (p : Packet) (s s1 : State) (c : Ctx) (w : Word) (k : Fin 54) (r : Record), admitted 0x0905 p s = some (c, s1) → p.params = [w] →
    accAny c = true → resv w 31 15 = true → bits w 7 0 = k.val → (s1.hoard.streams[k]).held.head? = some r →
    let st := s1.hoard.streams[k]
    let ring := [w32 st.sizeMib.toNat] ++ seqWords st.oldest 0 ++ seqWords st.nextSeq 0 ++ words64 r.lc.toNat ++ [st.overwrites]
    (bit w 8 = false → exec (.hoardStatus p) s = replied 0x0905 p s1 stOk ring s1) ∧
    ∀ (i : Fin 64) (u : Sub) (x : Cursor), bit w 8 = true → bits w 14 9 = i.val → s1.hoard.subs[i] = some u → u.cursor k.val = some x →
      exec (.hoardStatus p) s = replied 0x0905 p s1 stOk (ring ++ cursorWords u x s1) s1) ∧
  ∀ (p : Packet) (s s1 : State) (c : Ctx) (w0 w1 : Word), admitted 0x0906 p s = some (c, s1) → p.params = [w0, w1] → resv w0 31 11 = true →
    (∀ q : Fin 76, bits w0 8 7 = 0 → bits w0 6 0 = q.val → resv w1 31 28 = true → bit w0 9 = true → accEng c = true →
      bits w1 11 6 < bits w1 5 0 → (bits w1 27 12 = 0 → q.val ≠ 56 ∧ q.val ≠ 57) → (bits w1 27 12 ≠ 0 → 10 ≤ bits w1 27 12) →
      let set : Queue → Queue := fun u => { u with hwm := w1.extractLsb' 0 6, lwm := w1.extractLsb' 6 6, tailUs := w1.extractLsb' 12 16 }
      let t := { s1 with hoard := { s1.hoard with queues := vmod s1.hoard.queues q fun u => (if bit w0 10 then ackWatermark (set u) else set u) } }
      let x := t.hoard.queues[q]
      s1.breaksLimits t = false → exec (.queueConfig p) s = replied 0x0906 p s1 stOk
        [queueSettings x, w32 (fld 0 19 x.level + flag 19 x.hiLatch + flag 20 x.loLatch + fld 21 8 x.hiCount.toNat),
         w32 x.loCount.toNat, x.ecc, 0] t) ∧
    (∀ k : Fin 54, bits w0 8 7 = 1 → bits w0 6 0 = k.val → resv w1 31 18 = true → bit w0 9 = true → bit w0 10 = false → accEng c = true →
      bits w1 11 0 ≤ 4064 → (bits w1 11 0 = 0 → k.val < 48) → recMaxOk k (bits w1 17 12) s1 = true →
      spaceMib s1 (some (k, bits w1 11 0)) s1.hoard.spillMib.toNat ≤ 4096 → bits w1 11 0 ≠ (s1.hoard.streams[k]).sizeMib.toNat →
      s1.produces k = false → s1.subscribed k = false →
      let u := resizeRing k (BitVec.ofNat 12 (bits w1 11 0)) s1
      let t := { u with hoard := { u.hoard with streams := vmod u.hoard.streams k fun x => { x with recMax := w1.extractLsb' 12 6 } } }
      let x := t.hoard.streams[k]
      s1.breaksLimits t = false → x.ring = [] ∧ exec (.queueConfig p) s = replied 0x0906 p s1 stOk
        [w32 (fld 0 12 x.sizeMib.toNat + fld 12 6 x.recMax.toNat), w32 (fld 0 19 ((x.held.map Record.units).sum / 16384)), 0, 0, 0] t) ∧
    (bits w0 8 7 = 2 → bits w0 6 0 = 0 → resv w1 31 27 = true → bit w0 9 = true → bit w0 10 = false → accEng c = true →
      64 ≤ bits w1 10 0 → bits w1 10 0 ≤ 1024 → bits w1 26 11 ≠ 0 → bits w1 26 11 ≤ 1000 → spaceMib s1 none (bits w1 10 0) ≤ 4096 →
      s1.hoard.spilled = [] →
      let t := { s1 with hoard := { s1.hoard with spillMib := BitVec.ofNat 11 (bits w1 10 0), spillAge := BitVec.ofNat 16 (bits w1 26 11) } }
      s1.breaksLimits t = false → exec (.queueConfig p) s = replied 0x0906 p s1 stOk
        [w32 (fld 0 11 (bits w1 10 0) + fld 11 16 (bits w1 26 11)), w32 (fld 0 19 (t.spillBytes / 1048576)), 0, t.hoard.spillRefused,
         t.hoard.spillAged] t)

/-- The rows of the Hoard (R318, R327, R329, R332, R334, R336 to R338, R346, R369). -/
def Obligations.HoardRows : Prop :=
  (∀ (k : Fin 54) (s : State), ((s.hoard.streams[k]).openRec.isSome = true ∨ ∃ j : SettId, j.val = k.val ∧ (s.coders[j]).staging ≠ []) → (s.hoard.queues[ingress k]).tailUs.toNat ≠ 0 →
    exec (.tailTimeout k) s =
      .next (endRecord k (atLc ((s.hoard.streams[k]).tailAt + (s.hoard.queues[ingress k]).tailUs.toNat * 1000) s))) ∧
  (∀ (i : Fin 64) (k : Fin 54) (u : Sub) (x : Cursor) (s : State), s.hoard.subs[i] = some u → u.cursor k.val = some x →
    let st := s.hoard.streams[k]
    let room := s.delivers = true ∧ x.suspended = false ∧ (k = 53 ∨ u.gapsFirst = false) ∧ (x.nextSend - x.acked - 1).toNat < u.window.toNat
    let put : (Cursor → Cursor) → State := fun f =>
      { s with hoard := { s.hoard with subs := vset s.hoard.subs i (some (u.modCursor k.val f)) } }
    (¬ room → ∀ ok, exec (.subSend i k ok) s = .next s) ∧
    (∀ r, room → sendable st x = some r →
      let replay := r.seq + 1 != st.nextSeq
      let f := recordFrame s i u x r replay
      let p := passReplay replay r s
      (s.localBytes f.clsFin + f.bytes ≤ localReserve f.clsFin →
        (p.2 = true → exec (.subSend i k true) s = .next (maybeSuspend i k (sendFrame f { p.1 with hoard := { p.1.hoard with
          subs := vset p.1.hoard.subs i (some (u.modCursor k.val (takeRecord r.seq (some s.lcN))).settleHold) } }))) ∧
        (p.2 = false → exec (.subSend i k true) s = .next (maybeSuspend i k (passUnreadable i k u r.seq p.1)))) ∧
      (localReserve f.clsFin < s.localBytes f.clsFin + f.bytes → exec (.subSend i k true) s = .next s) ∧
      exec (.subSend i k false) s = .next (maybeSuspend i k (passUnreadable i k u r.seq s))) ∧
    (room → sendable st x = none → ∀ ok,
      (seqOlder x.nextSend (sendOldest st x) = true → exec (.subSend i k ok) s = .next (declareLost i k u (sendOldest st x) s)) ∧
      (seqOlder x.nextSend (sendOldest st x) = false → exec (.subSend i k ok) s = .next s)) ∧
    (∀ q n, s.delivers = true → x.suspended = false → x.oldestSent = some (q, n) →
      exec (.ackTimeoutResend i k) s = .next
        (let s1 := atLc (n + u.ackUs.toNat * 1000) s
         { s1 with hoard := { s1.hoard with subs := vset s1.hoard.subs i (some (u.modCursor k.val fun y =>
           { y with nextSend := y.acked + 1, consecutive := y.consecutive + 1, resends := satInc y.resends
                    sentAt := y.sentAt.map fun z => if z.1 = q then (z.1, s1.lcN) else z })) } })) ∧
    (x.suspended = false → x.nextSend = x.sentEnd → u.maxResends.toNat ≤ x.consecutive →
      maybeSuspend i k s = raiseSuspended (put fun y => { y with suspended := true }) i.val k.val (x.acked + 1)) ∧
    (x.consecutive < u.maxResends.toNat → maybeSuspend i k s = s)) ∧
  (∀ (r : Record) (s : State), passReplay false r s = (s, true)) ∧
  (∀ (u : Sub), u.settleHold = (if u.gapsFirst then u else { u with hold := none }) ∧
    (u.hold = none → u.gapsFirst = false) ∧
    ∀ q x, u.hold = some q → u.cursor 53 = some x → (u.gapsFirst = true ↔ x.suspended = false ∧ seqOlder q x.nextSend = false)) ∧
  (∀ (q : BitVec 48) (lc : Nat) (x : Cursor), x.nextSend = q →
    let y := takeRecord q (some lc) x
    y.nextSend = q + 1 ∧ y.acked = x.acked ∧ y.skip = false ∧ (q, lc) ∈ y.sentAt ∧ (takeRecord q none x).skip = true) ∧
  ∀ (k : Port) (replay : Bool) (x : Spilled) (s : State), (s.hoard.spilled.find? fun y => y.port == k && y.replay == replay) = some x →
    exec (.spillAgeExpiry k replay) s = .next
      (let s1 := atLc (x.since + s.hoard.spillAge.toNat * 1000000) s
       { s1 with hoard := { s1.hoard with spilled := s1.hoard.spilled.erase x, spillAged := satInc s1.hoard.spillAged } })

/-- The fabric commands (R421, R432 to R438). -/
def Obligations.FabricCommands : Prop :=
  (∀ (p : Packet) (s s1 : State) (c : Ctx) (w0 w1 w2 : Word), admitted 0x0C01 p s = some (c, s1) → p.params = [w0, w1, w2] →
    resv w0 31 12 = true →
    (bit w0 11 = false → resv w1 31 12 = true → w2 = 0 →
      let d : Fin 1024 := (w0.extractLsb' 0 10 : BitVec 10).toFin
      let up : BitVec 6 → State → Bool := fun x u => match routePort x with
        | some q => u.linkUp q
        | none => false
      let reply : State → List Word := fun u =>
        let e := u.fab.routes[d]
        [w32 (flag 0 (!up e.1 u && up e.2 u) + flag 1 (!up e.1 u && !up e.2 u)), w32 (fld 0 6 e.1.toNat + fld 6 6 e.2.toNat), 0]
      (bit w0 10 = false → accAny c = true → exec (.fabRoute p) s = replied 0x0C01 p s1 stOk (reply s1) s1) ∧
      (bit w0 10 = true → accEng c = true → (bits w1 5 0 < 32 ∨ bits w1 5 0 = 63) → (bits w1 11 6 < 32 ∨ bits w1 11 6 = 63) →
        let t := { s1 with fab := { s1.fab with routes := vset s1.fab.routes d (w1.extractLsb' 0 6, w1.extractLsb' 6 6) } }
        s1.breaksLimits t = false → exec (.fabRoute p) s = replied 0x0C01 p s1 stOk (reply t) t)) ∧
    (∀ k : Port, bit w0 11 = true → bits w0 4 0 = k.val → bits w0 9 5 = 0 → resv w1 31 24 = true → resv w2 31 16 = true →
      (bit w0 10 = false → accAny c = true → exec (.fabRoute p) s = replied 0x0C01 p s1 stOk (0 :: portSettings (s1.port k)) s1) ∧
      (bit w0 10 = true → accEng c = true → (∀ i < 6, bits w1 (4 * i + 3) (4 * i) ≠ 0) → 10 ≤ bits w2 7 0 → 8 ≤ bits w2 15 8 →
        let t := { s1 with fab := { s1.fab with ports := vmod s1.fab.ports k fun x =>
          { x with weights := w1.extractLsb' 0 24, ackWait := w2.extractLsb' 0 8, spillThresh := w2.extractLsb' 8 8 } } }
        s1.breaksLimits t = false → exec (.fabRoute p) s = replied 0x0C01 p s1 stOk (0 :: portSettings (t.port k)) t))) ∧
  (∀ (p : Packet) (s s1 : State) (c : Ctx) (w : Word), admitted 0x0C02 p s = some (c, s1) → p.params = [w] → resv w 31 7 = true →
    (if bit w 6 then accOp c else accAny c) = true →
    (∀ k : Port, bits w 5 0 = k.val →
      let t := if bit w 6 then { s1 with fab := { s1.fab with ports := vmod s1.fab.ports k clearPortCounters } } else s1
      s1.breaksLimits t = false → exec (.fabStatus p) s = replied 0x0C02 p s1 stOk
        (let q := s1.port k
         w32 (fld 0 10 (s1.neighbourId k).toNat + flag 10 (s1.linkUp k) + fld 11 3 q.nbState.toNat + fld 14 4 q.nbMode.toNat +
           flag 18 q.verDiff) :: portCounters q) t) ∧
    (∀ l, bits w 5 0 = 32 → s1.leaderMember = some l →
      let t := if bit w 6 then { s1 with fab := { s1.fab with elections := 0 } } else s1
      s1.breaksLimits t = false → exec (.fabStatus p) s = replied 0x0C02 p s1 stOk
        ([w32 (fld 0 3 s1.fab.state.toNat + flag 3 s1.fab.leads + fld 4 10 s1.fab.leader.toNat + fld 14 7 (s1.fab.members.length + 1)),
          s1.fab.term, s1.fabGen, l.fabGen] ++ words64 s1.fabDigest.toNat ++ words64 l.digest.toNat ++ [s1.fab.elections, 0, 0, 0]) t)) ∧
  (∀ (p : Packet) (s s1 : State) (c : Ctx), admitted 0x0C03 p s = some (c, s1) → accEng c = true →
    let w0 := pw p.params 0
    let n := bits w0 24 17
    p.params.length = 3 + n → resv w0 31 28 = true → bits w0 16 0 % 4 = 0 → n ≤ 128 → bits w0 16 0 / 4 + n ≤ 16 + 2 * 64 + 16384 →
    let words := putAll (bits w0 16 0 / 4) ((p.params.drop 3).take n)
      (if bit w0 25 then [] else (s1.fab.staged.map (·.words)).getD [])
    (bit w0 26 = false →
      let t := { s1 with fab := { s1.fab with staged := some { words := words, applyTk := none } } }
      s1.breaksLimits t = false → exec (.fabConfigPublish p) s = replied 0x0C03 p s1 stOk [w32 (fld 0 17 (4 * words.length)), 0, 0] t) ∧
    (bit w0 26 = true → (s1.fab.leads = true ∨ bit w0 27 = true) →
      let tk := nat64 (pw p.params 1) (pw p.params 2)
      (tk = 0 ∨ s1.tkN + 200000 ≤ tk) → (contiguous 0 words).length = words.length →
      imageResult (contiguous 0 words) s1.fabGen = 1 →
      let at_ := if tk = 0 then (s1.tkN + 400000 + 1999999) / 2000000 * 2000000 else tk
      let u := { s1 with fab := { s1.fab with staged := none, next := some (contiguous 0 words, at_) } }
      let t := if bit w0 27 then u else distribute (contiguous 0 words) at_ u
      s1.breaksLimits t = false → exec (.fabConfigPublish p) s = replied 0x0C03 p s1 stOk
        (w32 (fld 0 17 (4 * words.length) + fld 17 3 1) :: words64 at_) t)) ∧
  ∀ (p : Packet) (s s1 : State) (c : Ctx) (k : Fin 8) (e : Fin 16), admitted 0x0C04 p s = some (c, s1) → p.params.length = 5 →
    let w0 := pw p.params 0
    bits w0 2 0 = k.val → bits w0 8 5 = e.val → ethReserved (bit w0 4) p.params = true →
    let reply : State → List Word := fun u =>
      let x := u.fab.uplinks[k]
      w32 (fld 0 3 k.val + flag 4 (bit w0 4) + fld 5 4 e.val + flag 9 ((u.lane (uplinkPort k)).rx == .up)) ::
        ((if bit w0 4 then endpointWords x.eps[e] else interfaceWords x) ++
          [w32 (maskOf 16 (fun i => (x.eps[i].mac).isSome) + flag 16 x.gwMac.isSome)])
    (bit w0 3 = false → accAny c = true → exec (.ethConfig p) s = replied 0x0C04 p s1 stOk (reply s1) s1) ∧
    (bit w0 3 = true → accEng c = true → s1.isEth (uplinkPort k) = true →
      (bit w0 4 = true →
        let t := { s1 with fab := { s1.fab with uplinks := vmod s1.fab.uplinks k fun x => { x with eps := vmod x.eps e fun y =>
          { ip := pw p.params 1, udp := (pw p.params 2).extractLsb' 0 16, enable := bit (pw p.params 2) 16
            mac := if y.ip = pw p.params 1 then y.mac else none } } } }
        s1.breaksLimits t = false → exec (.ethConfig p) s = replied 0x0C04 p s1 stOk (reply t) t) ∧
      (bit w0 4 = false → 2100 ≤ bits (pw p.params 2) 29 16 → bits (pw p.params 2) 29 16 ≤ 9000 → 8 ≤ bits (pw p.params 4) 21 16 →
        bits (pw p.params 4) 21 16 ≤ 30 →
        let t := { s1 with fab := { s1.fab with uplinks := vmod s1.fab.uplinks k (setInterface p.params) } }
        s1.breaksLimits t = false → exec (.ethConfig p) s = replied 0x0C04 p s1 stOk (reply t) t))

/-- Links and the switch (R405 to R420, R428). -/
def Obligations.LinkRows : Prop :=
  (∀ (k : Port) (f : Frame) (s : State), s.served = true → (s.lane k).upForLink = true → (s.lane k).testUse = false →
    s.isEth k = false →
    (∀ t, acceptFrame k f s = .dropped t → exec (.frameForward k f) s = .next (cutShort k f s t)) ∧
    (∀ t, acceptFrame k f s = .taken t →
      let drop := returnCredits k f.clsFin f t
      let other := (t.port k).verDiff = true ∧ crossesVersions f = false
      let shed := t.sup.mode = .safeCore ∧ safeCoreTakes t f = false
      (other → exec (.frameForward k f) s = .next drop) ∧
      (¬ other → shed → exec (.frameForward k f) s = .next (noRoute k drop)) ∧
      (¬ other → ¬ shed → f.type = 0x20 → exec (.frameForward k f) s = .next (takeBeacon k f drop)) ∧
      (¬ other → ¬ shed → f.type ≠ 0x20 → f.dst = t.fab.hubId → exec (.frameForward k f) s = .next (deliverLocal (some k) f t)) ∧
      (¬ other → ¬ shed → f.type ≠ 0x20 → f.dst ≠ t.fab.hubId → f.isLocal = true → exec (.frameForward k f) s = .next (noRoute k drop)) ∧
      (¬ other → ¬ shed → f.type ≠ 0x20 → f.dst ≠ t.fab.hubId → f.isLocal = false →
        (f.hopsLeft = 0 ∨ t.route f.dst f.clsFin = none → exec (.frameForward k f) s = .next (noRoute k drop)) ∧
        (∀ q, f.hopsLeft ≠ 0 → t.route f.dst f.clsFin = some q →
          exec (.frameForward k f) s = .next (enqueueOut q f.clsFin (some k) (lessHop f) t))))) ∧
  (∀ (k : Port) (f : Frame) (s : State), f.headerOk = true → sequenced f = true →
    let u := { s with fab := { s.fab with ports := vmod s.fab.ports k fun q => { q with framesRx := satInc q.framesRx } } }
    let x := (s.port k).classes[f.clsFin]
    (f.crcOk = false → f.stomped = false → acceptFrame k f s = .dropped (sendNak k f.clsFin u)) ∧
    (f.crcOk = true → f.lseq ≠ x.rxSeq → acceptFrame k f s = .dropped (sendNak k f.clsFin u)) ∧
    (f.crcOk = true → f.stomped = false → f.lseq = x.rxSeq → f.typeOk = true → ∃ t, acceptFrame k f s = .taken t ∧
      (t.port k).classes[f.clsFin] = { x with rxSeq := x.rxSeq + 1, held := if f.isLocal then x.held else x.held + f.bytes } ∧
      (t.port k).linkCtl = linkCtlBlock f.clsFin.val false false x.rxSeq 0 :: (s.port k).linkCtl)) ∧
  (∀ (k : Port) (s : State),
    (∀ c r q, ((List.finRange 6).findSome? fun i => (s.nextFrame k i).map fun y => (i, y)) = some (c, q, r) →
      exec (.portFrameStart k) s = .next (if q.isSync then stampSync k (startFrame k c q r s) else startFrame k c q r s)) ∧
    (((List.finRange 6).findSome? fun i => (s.nextFrame k i).map fun y => (i, y)) = none → exec (.portFrameStart k) s = .next s)) ∧
  (∀ (k : Port) (b : BitVec 56) (c : Fin 6) (s : State), (s.lane k).upForLink = true → s.isEth k = false → b.toNat % 8 = c.val →
    let put : (PortClass → PortClass) → State := fun f => s.modClass k c f
    let n := b.toNat / 2 ^ 21 % 2 ^ 16
    let seq : BitVec 16 := b.extractLsb' 5 16
    (b.getLsbD 4 = true → exec (.linkCtlRx k b) s = .next (put fun x => { x with initRx := true, credits := n })) ∧
    (b.getLsbD 4 = false → b.getLsbD 3 = false →
      exec (.linkCtlRx k b) s = .next (put fun x => ackClass seq { x with credits := x.credits + n })) ∧
    (b.getLsbD 4 = false → b.getLsbD 3 = true →
      exec (.linkCtlRx k b) s = .next (replayClass k c (put fun x => ackClass (seq - 1) { x with credits := x.credits + n })))) ∧
  (∀ (k : Port) (c : Fin 6) (f : Frame) (a : Nat) (l : List (Frame × Nat)) (s : State), (s.port k).classes[c].unacked = (f, a) :: l →
    exec (.ackWaitExpiry k c) s = .next (replayClass k c (atLc (a + (s.port k).ackWait.toNat * 1000) s))) ∧
  (∀ (k : Port) (c : Fin 6) (s : State), (s.port k).classes[c].unacked ≠ [] →
    (8 ≤ (s.port k).classes[c].replays → replayClass k c s = retrain k s) ∧
    ((s.port k).classes[c].replays < 8 → ((replayClass k c s).port k).classes[c].replays = (s.port k).classes[c].replays + 1)) ∧
  (∀ (k : Port) (c : Fin 6) (ns : Nat) (x : Queued) (l : List Queued) (s : State), ageLimit c = some ns →
    (s.port k).classes[c].queue = x :: l → exec (.frameAgeDiscard k c) s = .next
      (let u := (atLc (x.since + ns) s).modClass k c fun y => { y with queue := y.queue.erase x, aged := satInc y.aged }
       let v := if c = 0 then u.modPort k fun y => { y with safetyStale := satInc y.safetyStale } else u
       match x.input with
       | some i => returnCredits i c x.frame v
       | none => v)) ∧
  (ageLimit 0 = some 50000 ∧ ageLimit 1 = some 500000 ∧ ageLimit 2 = some 10000000 ∧ ageLimit 3 = none ∧ ageLimit 4 = none ∧
    ageLimit 5 = some 10000000) ∧
  ∀ (k : Port) (replay : Bool) (x : Spilled) (s : State), (s.hoard.spilled.find? fun y => y.port == k && y.replay == replay) = some x →
    let c : Fin 6 := if replay then 4 else 3
    let free := (s.port k).classes[c].queue = [] ∧ s.noCredits k c = false ∧ s.mayStart k c x.frame = true ∧ s.spillBacklog = 0
    (free → exec (.spillDrain k replay) s = .next
      (useSpillRate x.frame.bytes ((s.modHoard fun h => { h with spilled := h.spilled.erase x }).modClass k c fun y =>
        { y with queue := [{ input := none, since := s.lcN, frame := x.frame }] }))) ∧
    (¬ free → exec (.spillDrain k replay) s = .next s)

/-- Beacons, membership, leadership and the configuration image (R424 to R428, R432, R433). -/
def Obligations.MembershipRows : Prop :=
  (∀ s : State, s.served = true → s.fabricPorts ≠ [] → exec .beaconTx s = .next
    (let s1 := atLc (s.fab.beaconAt + 1000000) s
     let s2 := { s1 with fab := { s1.fab with beaconAt := s1.lcN, bseq := s1.fab.bseq + 1 } }
     flood none (mkFrame s2 1 0x20 false true 0 none (beaconWords s2.selfMember)) s2)) ∧
  (∀ (k : Port) (f : Frame) (s : State), s.served = true → s.linkUp k = true → s.fab.portMask.getLsbD k.val = true → f.type = 0x20 →
    (∀ t, acceptFrame k f s = .dropped t → exec (.beaconRx k f) s = .next t) ∧
    (∀ t, acceptFrame k f s = .taken t → exec (.beaconRx k f) s = .next (takeBeacon k f (returnCredits k f.clsFin f t)))) ∧
  (∀ (k : Port) (f : Frame) (s : State),
    let m := memberOf f s.lcN
    let u := if f.hopsLeft = 15 then noteNeighbour k m s else s
    let v := judgeMember (judgeAlone (noteMember m u))
    ((f.src = s.fab.hubId ∨ m.verMajor ≠ 1) → takeBeacon k f s = u) ∧
    (∀ o, u.fab.members.find? (fun x => x.hub == m.hub) = some o → serialOlder o.bseq m.bseq = false → takeBeacon k f s = u) ∧
    (f.src ≠ s.fab.hubId → m.verMajor = 1 →
      (∀ o, u.fab.members.find? (fun x => x.hub == m.hub) = some o → serialOlder o.bseq m.bseq = true) →
      takeBeacon k f s = if f.hopsLeft = 0 then v else flood (some k) (lessHop f) v)) ∧
  (∀ (h : BitVec 10) (m : Member) (s : State), s.fab.members.find? (fun x => x.hub == h) = some m → exec (.memberTimeout h) s = .next
    (let s1 := atLc (m.seenAt + 3000000) s
     judgeMember (judgeAlone { s1 with fab := { s1.fab with members := s1.fab.members.filter fun x => x.hub != h } }))) ∧
  (∀ s : State, s.served = true → s.fab.join = true →
    let all := s.selfMember :: s.fab.members
    let top := all.foldl (fun n m => max n m.term.toNat) 0
    exec .electionTick s = .next (elect s) ∧
    (bestMember (candidates all) = none → elect s = followTerm s.fab.term s.fab.hubId true s) ∧
    (∀ w, bestMember (candidates all) = some w → w.hub = s.fab.hubId → (s.fab.leads = false ∨ s.fab.term.toNat ≠ top) →
      elect s = followTerm (w32 (top + 1)) s.fab.hubId true s)) ∧
  (∀ (term : Word) (l : BitVec 10) (me : Bool) (s : State),
    let t := followTerm term l me s
    t.fab.term = term ∧ t.fab.leader = l ∧ t.fab.leads = me ∧ t.fab.image = s.fab.image ∧ t.fab.members = s.fab.members) ∧
  (∀ s : State, s.fab.state = 1 → exec .joinSettle s = .next
    (let s1 := atLc (s.fab.followSince + 3000000) s
     judgeMember { s1 with fab := { s1.fab with state := 2 } })) ∧
  (∀ s : State, (judgeMember s).fab.state = if s.fab.state = 2 ∨ s.fab.state = 3 then (if s.mismatched then 3 else 2) else s.fab.state) ∧
  (∀ (off : Nat) (ws : List Word) (tk : Word64) (s : State), s.served = true → s.sup.mode ≠ .safeCore → s.fab.join = true →
    let old := match s.fab.staged with
      | some c => if c.applyTk = some tk.toNat then c.words else []
      | none => []
    let all := putAll (off / 4) ws old
    let done := (contiguous 0 all).length = all.length ∧ imageResult (contiguous 0 all) s.fabGen = 1
    (done → exec (.configImgRx off ws tk) s = .next { s with fab := { s.fab with staged := none, next := some (contiguous 0 all, tk.toNat) } }) ∧
    (¬ done → exec (.configImgRx off ws tk) s = .next { s with fab := { s.fab with staged := some { words := all, applyTk := some tk.toNat } } })) ∧
  ∀ s : State,
    (∀ img tk, s.fab.next = some (img, tk) → exec .fabConfigApply s = .next
      (let s1 := atTk tk s
       judgeMember { s1 with fab := { s1.fab with image := img, next := none, staged := none } })) ∧
    (∀ x tk, s.fab.next = none → s.fab.staged = some x → x.applyTk = some tk → exec .fabConfigApply s = .next
      (let s1 := atTk tk s
       judgeMember { s1 with fab := { s1.fab with staged := none } }))

/-- Ethernet uplinks (R421 to R423). -/
def Obligations.EthernetRows : Prop :=
  (∀ (k : Fin 8) (d : Datagram) (s : State), s.uplinkLive k = true →
    let u := s.fab.uplinks[k]
    let lost := { s with fab := { s.fab with uplinks := vmod s.fab.uplinks k fun x => { x with discards := satInc x.discards } } }
    let odd := (d.fragment || d.options || d.tagged || d.pause) = true
    let mine := d.dstIp = u.ip ∧ d.dstUdp = u.udpPort
    (odd → exec (.udpDatagramRx k d) s = .next lost) ∧ (¬ odd → ¬ mine → exec (.udpDatagramRx k d) s = .next s) ∧
    (¬ odd → mine → (d.checksumOk = false ∨ d.frame = none) → exec (.udpDatagramRx k d) s = .next lost) ∧
    (∀ f, ¬ odd → mine → d.checksumOk = true → d.frame = some f →
      let got := { s with fab := { s.fab with ports := vmod s.fab.ports (uplinkPort k) fun q => { q with framesRx := satInc q.framesRx } } }
      (f.headerOk = false → exec (.udpDatagramRx k d) s = .next (uplinkDiscard k (badFrame (uplinkPort k) got))) ∧
      (f.headerOk = true → f.crcOk = false → exec (.udpDatagramRx k d) s = .next (uplinkDiscard k got)) ∧
      (f.headerOk = true → f.crcOk = true → exec (.udpDatagramRx k d) s = .next (uplinkFrame k d f got)))) ∧
  (∀ (k : Fin 8) (d : Datagram) (f : Frame) (s : State),
    (f.cls < 2 → uplinkFrame k d f s = s) ∧
    (2 ≤ f.cls → f.typeOk = true → f.dst ≠ s.fab.hubId → s.sup.mode ≠ .safeCore →
      (∀ e, (s.fab.uplinks[k]).sourceEndpoint d.srcIp d.srcUdp = some e →
        uplinkFrame k d f s = forwardFrame (uplinkPort k) (fromEndpoint s e f) s) ∧
      ((s.fab.uplinks[k]).sourceEndpoint d.srcIp d.srcUdp = none → uplinkFrame k d f s = s)) ∧
    (2 ≤ f.cls → f.typeOk = true → f.dst ≠ s.fab.hubId → s.sup.mode = .safeCore → uplinkFrame k d f s = s) ∧
    (2 ≤ f.cls → f.typeOk = true → f.dst = s.fab.hubId → f.type = 0x04 → f.cls ≠ 5 →
      uplinkFrame k d f s = framePacket (.uplink k d.srcIp d.srcUdp) none f.dst (bytesOfWords f.payload) s)) ∧
  (∀ (k : Fin 8) (a : Arp) (s : State), s.uplinkLive k = true →
    (a.isRequest = true → a.targetIp = (s.fab.uplinks[k]).ip → exec (.arpRx k a) s = .next { s with fab := { s.fab with
      uplinks := vmod s.fab.uplinks k fun x => { x with sentOut := .arpReply a.senderIp a.senderMac :: x.sentOut } } }) ∧
    (a.isRequest = true → a.targetIp ≠ (s.fab.uplinks[k]).ip → exec (.arpRx k a) s = .next s) ∧
    (a.isRequest = false → exec (.arpRx k a) s = .next { s with fab := { s.fab with uplinks := vmod s.fab.uplinks k fun x =>
      { x with eps := x.eps.map fun e => (if e.enable && e.ip == a.senderIp then { e with mac := some a.senderMac } else e)
               gwMac := if x.gateway != 0 && x.gateway == a.senderIp then some a.senderMac else x.gwMac } } })) ∧
  (∀ s : State, s.served = true → (∃ k, s.uplinkLive k = true) → exec .arpRefresh s = .next
    (let live := (List.finRange 8).filter s.uplinkLive
     let s1 := atLc (live.foldl (fun m k => min m (s.fab.uplinks[k]).arpAt) (2 ^ 64) + 60000000000) s
     forEach live (fun u k => forEach (u.fab.uplinks[k]).asked (fun v ip => sendOut k (.arpRequest ip) v)
       { u with fab := { u.fab with uplinks := vmod u.fab.uplinks k fun x => { x with arpAt := s1.lcN } } }) s1)) ∧
  (∀ (k : Fin 8) (src dst : Word) (a b : BitVec 16) (l : List Byte) (s : State), s.uplinkLive k = true → dst = (s.fab.uplinks[k]).ip →
    exec (.icmpEchoRx k src dst a b l) s = .next { s with fab := { s.fab with
      uplinks := vmod s.fab.uplinks k fun x => { x with sentOut := .echoReply src a b l :: x.sentOut } } }) ∧
  ∀ (k : Fin 8) (s : State), s.uplinkLive k = false → (∀ d, exec (.udpDatagramRx k d) s = .next s) ∧ (∀ a, exec (.arpRx k a) s = .next s) ∧
    ∀ src dst a b l, exec (.icmpEchoRx k src dst a b l) s = .next s

/-- The lane commands (R376, R383, R384, R389 to R392, R395, R398, R400 to R404). -/
def Obligations.LaneCommands : Prop :=
  (∀ (p : Packet) (s s1 : State) (c : Ctx) (w : Word) (k : Port) (g : Fin 2), admitted 0x0B00 p s = some (c, s1) → p.params = [w] →
    bits w 4 0 = k.val → k.val / 16 = g.val → resv w 31 14 = true → s1.lanes.refPresent[g] = true →
    let l := s1.lane k
    (bit w 5 = false → accAny c = true → exec (.laneConfig p) s = replied 0x0B00 p s1 stOk (laneConfigWords l) s1) ∧
    (bit w 5 = true → accEng c = true → s1.sup.mode ≠ .safeCore → (bit w 13 = true → s1.sup.mode = .test) →
      (bit w 8 = true → k.val < 8) → bits w 10 9 ≠ 3 → (bits w 10 9 ≠ 0 → bit w 8 = true) → (bits w 10 9 = 2 → bit w 7 = true) →
      (w.extractLsb' 6 8 = l.settings → exec (.laneConfig p) s = replied 0x0B00 p s1 stOk (laneConfigWords l) s1) ∧
      (w.extractLsb' 6 8 ≠ l.settings → (s1.sup.mode = .test ∨ k ∉ s1.safetyPorts) →
        let u := trimPlls ((laneStop k s1).modLane k fun x => ratedTaps x.rate (bit w 7) { x with settings := w.extractLsb' 6 8 })
        let t := if bit w 6 then laneStart k u else u
        s1.breaksLimits t = false → exec (.laneConfig p) s = replied 0x0B00 p s1 stOk (laneConfigWords (t.lane k)) t))) ∧
  (∀ (p : Packet) (s s1 : State) (c : Ctx) (w0 w1 w2 w3 : Word) (k : Port) (n : RxCoef), admitted 0x0B01 p s = some (c, s1) →
    p.params = [w0, w1, w2, w3] → bits w0 4 0 = k.val → resv w0 31 9 = true → resv w1 31 15 = true → resv w2 31 29 = true →
    resv w3 31 6 = true → (s1.lane k).snapshot = some n → (if bit w0 5 || bit w0 6 then accEng c else accAny c) = true →
    (bit w0 5 = true ∨ bit w0 6 = true → s1.sup.mode ≠ .safeCore) →
    (bit w0 5 = true → bits w1 3 0 + bits w1 9 4 + bits w1 14 10 ≤ 63 ∧ bits w1 3 0 + bits w1 14 10 + 16 ≤ bits w1 9 4) →
    let u := if bit w0 5 then s1.modLane k fun l => { l with
      tapsT := { pre := w1.extractLsb' 0 4, main := w1.extractLsb' 4 6, post := w1.extractLsb' 10 5 }, tapAt := s1.lcN } else s1
    let t := if bit w0 6 then u.modLane k (writeRx w0 w2 w3) else u
    let l := t.lane k
    s1.breaksLimits t = false → exec (.laneEq p) s = replied 0x0B01 p s1 stOk
      (w32 (tapsWord l.tapsNow + flag 15 (l.tapsNow == l.tapsT) + flag 16 l.clamped + flag 17 l.snapQualified + flag 18 l.adaptCtle +
        flag 19 l.adaptDfe) :: (rxWords l.rxNow ++ rxWords n ++ [l.clampHits])) t) ∧
  (∀ (p : Packet) (s s1 : State) (c : Ctx) (w0 w1 : Word) (k : Port), admitted 0x0B02 p s = some (c, s1) → p.params = [w0, w1] →
    bits w0 4 0 = k.val → resv w0 31 14 = true → resv w1 31 22 = true → (bit w1 0 = false → w1 = 0) →
    (bit w1 0 = true → bits w1 15 8 ≠ 0 ∧ 10 ≤ bits w1 21 16 ∧ bits w1 21 16 ≤ 40 ∧ (bit w1 1 = true → s1.isEth k = false)) →
    (if bit w0 5 then accEng c && s1.sup.mode == .test else if bit w0 13 then accOp c else accAny c) = true →
    let u := if bit w0 5 then applyPrbs k (w0.extractLsb' 6 7) s1 else s1
    let v := if bit w0 5 && bit w1 0 then u.modLane k (startInjection w1) else u
    let x := v.modLane k (accountBits v.lcN)
    let t := if bit w0 13 then x.modLane k (fun l => { l with errBits := 0, bits := 0, syncLosses := 0 }) else x
    s1.breaksLimits t = false → exec (.lanePrbs p) s = replied 0x0B02 p s1 stOk (lanePrbsWords (x.lane k)) t) ∧
  (∀ (p : Packet) (s s1 : State) (c : Ctx) (w : Word) (k : Port), admitted 0x0B03 p s = some (c, s1) → p.params = [w] →
    bits w 4 0 = k.val → resv w 31 11 = true → accEng c = true → s1.sup.mode ≠ .safeCore →
    ((s1.lane k).rx = .up ∨ (s1.lane k).rx = .test) → 20 ≤ bits w 10 5 → bits w 10 5 ≤ 32 → (s1.lane k).scan = none →
    exec (.laneMargin p) s =
      postponed p (s1.modLane k fun l => { l with scan := some (bits w 10 5, s1.lcN, c.replyTo s1) })) ∧
  ∀ (p : Packet) (s s1 : State) (c : Ctx) (w : Word) (k : Port), admitted 0x0B04 p s = some (c, s1) → p.params = [w] →
    bits w 4 0 = k.val → resv w 31 16 = true →
    let l := s1.lane k
    let tx := bit w 6 && !l.txQuiet
    let rx := bit w 7 && !l.rxQuiet
    (bit w 5 = false → accAny c = true → exec (.laneSleep p) s = replied 0x0B04 p s1 stOk (laneSleepWords l) s1) ∧
    (bit w 5 = true → accEng c = true → s1.sup.mode ≠ .safeCore → 2 ≤ bits w 15 9 → bits w 15 9 ≤ 100 →
      (tx = true ∨ rx = true → s1.isEth k = false ∧ s1.time.cfg.timeEn[k] = false ∧ (s1.sup.mode = .test ∨ k ∉ s1.safetyPorts)) →
      (tx = true → l.tx = .on) → (rx = true → l.rx = .up) →
      let a := s1.modLane k fun l => { l with autoWake := bit w 8, wakeUs := BitVec.ofNat 7 (bits w 15 9) }
      let b := if tx then a.modLane k (fun l => { l with txQuiet := true }) else if !bit w 6 && l.txQuiet then startWake k a else a
      let t := if rx then enterRxQuiet false k b else if !bit w 7 && l.rxQuiet then b.modLane k (wakeRx b.lcN) else b
      s1.breaksLimits t = false → exec (.laneSleep p) s = replied 0x0B04 p s1 stOk (laneSleepWords (t.lane k)) t)

/-- The rows of the lanes (R376, R379, R382 to R391, R394, R395, R397). -/
def Obligations.LaneRows : Prop :=
  (∀ (g : Fin 2) (rate : Bool) (s : State), s.served = true → s.lanes.refPresent[g] = true → s.pllPowered (pllIndex g.val rate) = true → exec (.lanePllLock g rate) s = .next
    (forEach allPorts (fun u k =>
      (if (u.lane k).rx == .pll && k.val / 16 == g.val && (u.lane k).rate == rate then
        u.modLane k fun l => { l with rx := rxRunning l, tx := txRunning l } else u))
      { s with lanes := { s.lanes with pll := vset s.lanes.pll (pllIndex g.val rate) true } })) ∧
  (∀ (k : Port) (s : State),
    let l := s.lane k
    let put : (Lane → Lane) → State := fun f => s.modLane k f
    let down : (Lane → Lane) → State := fun f => (linkDown k s).modLane k f
    (∀ x, l.rx = .acquire → exec (.laneAcquireDone k x) s = .next (put fun y => { y with rx := .locking, signal := true, rxNow := adapted y x })) ∧
    (l.rx = .locking →
      (let u := put fun y => { y with rx := .up, idleRun := 0, rxWakeAt := none, retraining := false
                                      snapshot := if y.retraining then some y.rxNow else y.snapshot
                                      snapQualified := y.snapQualified && !y.retraining }
       (l.rxWakeAt.isSome = true ∨ s.isEth k = true → exec (.blockLock k) s = .next u) ∧
       (l.rxWakeAt = none → s.isEth k = false → exec (.blockLock k) s = .next (sendInits k u))) ∧
      exec (.lockingTimeout k) s = .next (retrain k s)) ∧
    (∀ n, l.rx = .up ∨ l.rx = .hiBer → exec (.blockLockLoss k n) s = .next (down fun y =>
      { y with rx := .locking, invalidHdr := satAdd y.invalidHdr n, lockLosses := satInc y.lockLosses })) ∧
    (l.rx = .up →
      (∀ n, exec (.hiBer k n) s = .next (down fun y => { y with rx := .hiBer, invalidHdr := satAdd y.invalidHdr n })) ∧
      exec (.lossOfSignal k) s = .next (down fun y => { y with rx := .acquire, signal := false, losCount := satInc y.losCount }) ∧
      (∀ n b x, exec (.laneIntervalEnd k n b x) s = .next (put (endInterval n b x))) ∧
      (s.isEth k = false → exec (.rxQuietEntry k) s = .next ((abortScan k s).modLane k fun y =>
        { y with rx := .quiet, rxQuiet := false, rxqByPeer := true }))) ∧
    (l.rx = .hiBer → exec (.hiBerClear k) s = .next
      (if s.isEth k then put fun y => { y with rx := .up, idleRun := 0 } else sendInits k (put fun y => { y with rx := .up, idleRun := 0 }))) ∧
    (l.txQuiet = true → l.tx = .on → exec (.txQuietEntry k) s = .next (put fun y => { y with tx := .quiet })) ∧
    (l.wake = .pattern → exec (.wakePatternEnd k) s = .next (put fun y => { y with wake := .idles })) ∧
    (l.wake = .idles → exec (.wakeIdleEnd k) s = .next (put fun y => { y with wake := .none })) ∧
    (l.rx = .quiet → l.rxqByPeer = true → exec (.wakeDetect k) s = .next (put fun y =>
      { y with rx := .locking, rxQuiet := false, rxqByPeer := false, rxWakeAt := some s.lcN, rxNow := y.snapshot.getD y.rxNow })) ∧
    (l.rxWakeAt.isSome = true → l.rx ≠ .up → exec (.wakeTimeout k) s = .next (retrain k s)) ∧
    (l.tapsNow ≠ l.tapsT → exec (.txTapStep k) s = .next
      (let s1 := atLc (l.tapAt + 100000) s
       s1.modLane k fun y => { y with tapAt := s1.lcN, tapsNow :=
         { pre := stepTap y.tapsNow.pre y.tapsT.pre, main := stepTap y.tapsNow.main y.tapsT.main, post := stepTap y.tapsNow.post y.tapsT.post } })) ∧
    (l.prbs.getLsbD 4 = true → l.rx = .test → l.prbsLocked = false →
      exec (.prbsCheckerLock k) s = .next (put fun y => { y with prbsLocked := true, prbsAt := s.lcN })) ∧
    (∀ n e, l.prbsLocked = true → exec (.prbsCheckerLoss k n e) s = .next (put fun y =>
      { y with prbsLocked := false, bits := y.bits + BitVec.ofNat 64 n, errBits := satAdd y.errBits e, syncLosses := satInc y.syncLosses })) ∧
    (∀ j, l.inj = some j → exec (.errorInjection k) s = .next (put fun y =>
      { y with injDone := y.injDone + 1, inj := if j.left ≤ 1 then none else some { j with left := j.left - 1 } })) ∧
    (∀ d a r e, l.scan = some (d, a, r) → exec (.laneMarginDone k e) s = .next
      (let s1 := atLc (a + 192 * 2 ^ d * 64 / (if l.rate then 1650 else 660)) s
       let x := runMiddle (centreRun 32 e.horizontal) s1
       let y := runMiddle (centreRun 63 e.vertical) x.2
       answerLater 0x0B03 r stOk [w32 (fld 0 7 (eyeOf e).1 + fld 7 9 (eyeOf e).2), w32 (fld 0 8 x.1 + fld 8 8 y.1)]
         (y.2.modLane k fun z => { z with scan := none })))) ∧
  (∀ (n b : Nat) (x : RxCoef) (l : Lane),
    (256 ≤ n → b = 0 → (endInterval n b x l).snapshot = some (endInterval n b x l).rxNow ∧ (endInterval n b x l).clamped = false ∧
      (endInterval n b x l).idleRun = 0 ∧ (endInterval n b x l).snapQualified = true) ∧
    ((n < 256 ∨ b ≠ 0) → (endInterval n b x l).snapshot = l.snapshot ∧ (endInterval n b x l).idleRun = l.idleRun + 1 ∧
      (endInterval n b x l).clamped = (l.clamped || decide (10 ≤ l.idleRun + 1)))) ∧
  ∀ (k : Port) (s : State), (s.lane k).rx ≠ .off → (s.lane k).rx ≠ .pll → (s.lane k).scan = none →
    ((retrain k s).lane k).rx = .acquire ∧ ((retrain k s).lane k).retrains = satInc (s.lane k).retrains ∧
    ((retrain k s).lane k).clamped = false ∧ ((retrain k s).lane k).rxNow = (s.lane k).snapshot.getD (s.lane k).rxNow ∧
    ((retrain k s).port k).initTx = false ∧ ∀ j : Port, j ≠ k → (retrain k s).lane j = s.lane j

/-- The block coder (R354, R367, R368, R372 to R374). -/
def Obligations.BlockCoder : Prop :=
  (∀ (p : Packet) (s s1 : State) (c : Ctx) (w : Word) (k : SettId), admitted 0x0A00 p s = some (c, s1) → p.params = [w] →
    bits w 5 0 = k.val → resv w 31 15 = true →
    let reply : State → List Word := fun u =>
      let x := u.coders[k]
      [w32 (flag 0 x.enable + fld 1 2 x.ratio.toNat + flag 3 x.alertEn + fld 4 4 x.depthAlert.toNat + flag 8 (u.setts[k]).run +
        flag 9 (u.coding k))]
    (bit w 6 = false → accAny c = true → exec (.coderConfig p) s = replied 0x0A00 p s1 stOk (reply s1) s1) ∧
    (bit w 6 = true → accEng c = true → bits w 9 8 ≠ 3 → coderFloor (bits w 9 8) ≤ (s1.hoard.streams[settStream k]).recMax.toNat →
      (s1.setts[k]).run = false →
      let t := { s1 with coders := vmod s1.coders k fun x =>
        { x with enable := bit w 7, ratio := w.extractLsb' 8 2, alertEn := bit w 10, depthAlert := w.extractLsb' 11 4 } }
      s1.breaksLimits t = false → exec (.coderConfig p) s = replied 0x0A00 p s1 stOk (reply t) t)) ∧
  (∀ (p : Packet) (s s1 : State) (c : Ctx) (w : Word) (k : SettId), admitted 0x0A01 p s = some (c, s1) → p.params = [w] →
    accAny c = true → bits w 5 0 = k.val → resv w 31 6 = true → exec (.coderStatus p) s = replied 0x0A01 p s1 stOk
      (let x := s1.coders[k]
       w32 (flag 0 x.enable + fld 1 2 x.ratio.toNat + flag 3 (s1.coding k) + fld 4 4 x.maxDepth.toNat + fld 8 4 x.lastDepth.toNat) ::
         coderCounters x) s1) ∧
  (∀ (p : Packet) (s s1 : State) (c : Ctx) (w h1 h2 : Word) (data : List Word), admitted 0x0A02 p s = some (c, s1) →
    p.params = w :: h1 :: h2 :: data → accAny c = true → s1.sup.mode ≠ .safeCore → resv w 31 9 = true → resv h1 31 24 = true →
    resv h2 31 24 = true →
    let ratio : BitVec 2 := w.extractLsb' 1 2
    let h := (sbits h1 23 0, sbits h2 23 0)
    ratio ≠ 3 →
    (bit w 0 = false → data.length = bits w 7 3 + 1 →
      let b := encodeBlock ratio (if bit w 8 then none else some h) (data.map testSample)
        (data.foldl (fun (f : Byte) x => f ||| x.extractLsb' 0 8) 0)
      exec (.decodeTest p) s = replied 0x0A02 p s1 stOk
        (w32 (fld 2 5 b.exp + fld 7 4 b.depth + fld 11 2 b.order) :: wordsOfBytes b.bytes) s1) ∧
    (bit w 0 = true → data.length = blockBytes ratio / 4 →
      let d := decodeBlock ratio h (bits w 7 3 + 1) (bytesOfWords data)
      exec (.decodeTest p) s = replied 0x0A02 p s1 stOk
        (w32 (fld 0 2 d.check + fld 2 5 d.exp + fld 7 4 d.depth + fld 11 2 d.order) :: d.words) s1)) ∧
  ∀ (k : SettId) (s : State), (s.coders[k]).stalled = true → coderFull k s = false → exec (.coderResume k) s = .next
    (let a := writeSets 2 k { s with coders := vmod s.coders k fun x => { x with stalled := false } }
     let b := endRefusal k a.1
     pushAll pushLimit (a.2 ++ b.2) b.1)

/-- The safety commands (R478, R481, R499, R501 to R506, R512). -/
def Obligations.SafetyCommands : Prop :=
  (∀ (p : Packet) (s s1 : State) (c : Ctx), admitted 0x0D00 p s = some (c, s1) → accSaf c = true →
    let w := pw p.params 0
    let n := bits w 21 14
    p.params.length = 1 + n → resv w 31 23 = true → bits w 13 0 % 4 = 0 → 1 ≤ n → n ≤ 128 → bits w 13 0 + 4 * n ≤ 8192 →
    let u := withdrawProposals isCommission s1
    let t := { u with owl := { u.owl with staged := putAll (bits w 13 0 / 4) ((p.params.drop 1).take n) (if bit w 22 then [] else u.owl.staged) } }
    s1.breaksLimits t = false → exec (.safeParamWrite p) s = replied 0x0D00 p s1 stOk
      [w32 (fld 0 14 (4 * t.owl.staged.length) + flag 14 (s1.holdsProposal isCommission))] t) ∧
  (∀ (p : Packet) (s s1 : State) (c : Ctx) (w scv : Word) (k i : Fin 8), admitted 0x0D01 p s = some (c, s1) → p.params = [w, scv] →
    accParty 0x0D01 0 c = true → c.slot = some k → resv w 31 1 = true → s1.owl.commEn = true → s1.sup.mode = .test →
    s1.breaksLimits (commissionApply (bit w 0) s1) = false →
    (∀ j q, s1.proposalAt j = some q → q.object ≠ (0x0D01, 0)) → ((List.finRange 8).find? fun j => (s1.proposalAt j).isNone) = some i →
    let d := commissionDigest [w, scv] s1
    let x : Proposal := { action := 0, opcode := 0x0D01, params := [w, scv], digest := d, slot := k, since := s1.lcN }
    let told := replied 0x0D01 p s1 stSecondParty (w32 i.val :: wordsOfBytes d)
      (let e := endProposal i 0 s1
       { e with prot := { e.prot with proposals := vset e.prot.proposals i (some x) } })
    (bit w 0 = true → scv = 0 → exec (.safeCommission p) s = told) ∧
    (∀ b, bit w 0 = false → s1.stagedBlock = some b → scv = scvOf b.words → s1.matchesBlock b = true → s1.plan.active = true →
      planDigest (fun j => b.settMask.getLsbD j.val) s1.plan.bank = b.planDigest.toNat →
      (∀ e ∈ b.outputs, s1.plan.bank.asCycle.coversOutput e.1.val e.2.widthMax = true) → exec (.safeCommission p) s = told)) ∧
  (∀ (s : State),
    ((commissionApply true s).owl.block = none ∧ ∀ n : Fin 8, ((commissionApply true s).owl.sos[n]).on = false) ∧
    (commissionApply false s).owl.block = s.stagedBlock ∧ (∀ w, (commissionApply w s).owl.ready = false ∧ latchedBits (commissionApply w s).owl = 0)) ∧
  (∀ (p : Packet) (s s1 : State) (c : Ctx), admitted 0x0D02 p s = some (c, s1) → p.params = [0] → accAny c = true →
    exec (.safeStatus p) s = replied 0x0D02 p s1 stOk (safeStatusWords s1) s1) ∧
  (∀ (p : Packet) (s s1 : State) (c : Ctx) (w : Word) (n : Fin 8) (e : SoEntry), admitted 0x0D03 p s = some (c, s1) → p.params = [w] →
    bits w 2 0 = n.val → resv w 31 24 = true → s1.soAt n = some e →
    let reply : State → List Word := fun u =>
      let o := u.owl.sos[n]
      [w32 (fld 0 10 o.width.toNat + fld 10 10 o.period.toNat), w32 (fld 0 8 o.tFall.toNat + fld 8 8 o.tRise.toNat + fld 16 16 o.skipped.toNat)]
    (bit w 3 = false → accAny c = true → exec (.safePulseConfig p) s = replied 0x0D03 p s1 stOk (reply s1) s1) ∧
    (bit w 3 = true → accSaf c = true → 50 ≤ bits w 13 4 → bits w 13 4 ≤ e.widthMax → 1 ≤ bits w 23 14 → bits w 23 14 ≤ e.periodMax →
      s1.widthFits n (bits w 13 4) = true →
      let t := { s1 with owl := { s1.owl with sos := vmod s1.owl.sos n fun o =>
        { o with width := BitVec.ofNat 10 (bits w 13 4), period := BitVec.ofNat 10 (bits w 23 14)
                 dueCount := (s1.lcN - o.dueFrom) / (bits w 23 14 * 100000000) } } }
      s1.breaksLimits t = false → exec (.safePulseConfig p) s = replied 0x0D03 p s1 stOk (reply t) t)) ∧
  ∀ (p : Packet) (s s1 : State) (c : Ctx) (w : Word), admitted 0x0D04 p s = some (c, s1) → p.params = [w] → accOp c = true →
    (s1.working = true ∨ s1.sup.mode = .safeCore) → resv w 31 17 = true → (bit w 16 = true → s1.readbackClearable = true) →
    let rel := w.extractLsb' 0 16 &&& latchedBits s1.owl &&& ~~~stuckBits s1.lcN s1.owl
    let u := (if bit w 16 then clearReadback s1 else s1).modOwl (Owl.release rel)
    let r := resetOutputs { u with owl := { u.owl with demand := demandBits s1.lcN u.owl } }
    let v := { r with owl := { r.owl with demand := s1.owl.demand } }
    let t := raise v 0x0602 [w32 (fld 0 16 rel.toNat + flag 16 (bit w 16)), w32 ((c.session.map fun i => i.val + 1).getD 0)]
    s1.breaksLimits t = false → exec (.safeResetReq p) s = replied 0x0D04 p s1 stOk
      [w32 (fld 0 16 rel.toNat + fld 16 16 (latchedBits v.owl).toNat)] t

/-- The rows of Owl (R470 to R478, R480 to R482, R485 to R487). -/
def Obligations.OwlRows : Prop :=
  (∀ (si : BitVec 4) (sofb : Byte) (s : State), s.served = true → s.owl.running = true → s.owl.fail = false →
    let s1 := atLc (s.owl.cycleAt + 50000) s
    let u := { s1 with owl := { s1.owl with cycleAt := s1.lcN, cycles := s1.owl.cycles + 1, alive := !s1.owl.alive } }
    exec (.owlCycle si sofb false) s = .next (owlFailure u) ∧ exec .owlWatchdogExpiry s = .next (owlFailure (atLc (s.owl.cycleAt + 122000) s)) ∧
    (u.owl.block = none → exec (.owlCycle si sofb true) s = .next (commandOutputs u)) ∧
    (∀ b, u.owl.block = some b → exec (.owlCycle si sofb true) s = .next (commandOutputs (judgeReady b (forEach b.monitors evalMon
      (forEach (List.finRange 2) (judgePair b) (forEach b.outputs (readSo sofb) (forEach b.inputs (readSi b si) u)))))))) ∧
  (∀ s : State, (owlFailure s).owl.fail = true ∧ ∀ n : Fin 8, ((owlFailure s).owl.sos[n]).on = false) ∧
  (∀ (i : Fin 16) (m : MonEntry) (s : State), s.monAt i = some m → (s.owl.mons[i]).tripped = false →
    (m.invTol < (s.owl.mons[i]).invalidRun → exec (.monitorInvalidTrip i) s = .next (commandOutputs (tripMon i m 1 s))) ∧
    (m.check.isSome = true → (m.plausCyc ≤ (s.owl.mons[i]).plausRun ∨ 20000 ≤ (s.owl.mons[i]).chkInvalid) →
      exec (.monitorPlausTrip i) s = .next (commandOutputs (tripMon i m 2 s)))) ∧
  (∀ (i : Fin 16) (m : MonEntry) (cause : Nat) (s : State), ((tripMon i m cause s).owl.mons[i]).tripped = true ∧
    ((tripMon i m cause s).owl.mons[i]).held = m.demandMask ∧ ∀ j : Fin 16, j ≠ i → (tripMon i m cause s).owl.mons[j] = s.owl.mons[j]) ∧
  (∀ (i : Fin 4) (b : Block) (e : SiEntry) (s : State), s.owl.block = some b → (b.inputs.find? fun x => x.1 == i) = some (i, e) →
    let x := s.owl.sis[i]
    (x.run < e.filterCyc → exec (.siFilterChange i) s = .next s) ∧
    (e.filterCyc ≤ x.run → x.filtered = true → exec (.siFilterChange i) s = .next (commandOutputs (raiseTrip 1 i.val 0 (b.siMask i.val) 0
      (forEach (List.finRange 2) (judgePair b) (s.modSi i fun y =>
        { y with filtered := false, run := 0, held := if e.latch then b.siMask i.val else y.held }))))) ∧
    (e.filterCyc ≤ x.run → x.filtered = false →
      exec (.siFilterChange i) s = .next (commandOutputs (forEach (List.finRange 2) (judgePair b)
        (s.modSi i fun y => { y with filtered := true, run := 0 }))))) ∧
  (∀ (d : Fin 2) (b : Block) (i j : Fin 4) (a : Nat) (s : State), s.owl.block = some b → b.pairOf d = some (i, j) →
    s.owl.discSince[d] = some a → s.owl.siDisc.getLsbD d.val = false → exec (.siDisc d) s = .next
      (let s1 := atLc (a + b.discMs * 1000000) s
       commandOutputs (raiseTrip 2 d.val 0 (b.siMask i.val) 0 { s1 with owl := { s1.owl with
         siDisc := s1.owl.siDisc ||| BitVec.ofNat 2 (2 ^ d.val), discHeld := vset s1.owl.discHeld d (b.siMask i.val) } }))) ∧
  (∀ (n : Fin 8) (e : SoEntry) (s : State), s.served = true → s.owl.running = true → s.soAt n = some e →
    let o := s.owl.sos[n]
    (s.owl.soFault = false → exec (.soReadbackFailure n) s = .next
      (let u := outputsOff s
       enterSafe 3 (raiseTrip 4 n.val 0 0 0 { u with owl := { u.owl with soFault := true, pulseFail := satInc u.owl.pulseFail } }))) ∧
    exec (.offPulseDue n) s = .next ((atLc (o.dueFrom + (o.dueCount + 1) * o.period.toNat * 100000000) s).modSo n fun o =>
      (if o.on then { o with dueCount := o.dueCount + 1, due := true, dueWidth := o.width }
       else { o with dueCount := o.dueCount + 1, skipped := satInc o.skipped })) ∧
    (s.pulseFits n = true → (∀ m : Fin 8, (s.owl.sos[m]).idle s.lcN = true ∧ (m < n → s.pulseFits m = false)) →
      exec (.offPulseStart n) s = .next (s.modSo n fun o => { o with pulse := some s.lcN, due := false, pulseTaken := false, pulseWidth := o.dueWidth }))) ∧
  (∀ (n : Fin 8) (a : Nat) (fall rise : Byte) (s : State), (s.owl.sos[n]).pulse = some a → exec (.offPulseEnd n fall rise) s = .next
    (let z := a + 1000 * (s.owl.sos[n]).pulseWidth.toNat
     let u := (atLc z s).modSo n fun o =>
       { o with pulse := none, tFall := fall, tRise := if o.pulseTaken then o.tRise else rise
                readUntil := if o.pulseTaken then o.readUntil else z + 100 * rise.toNat }
     match u.soAt n with
     | some e => commandOutput u (n, e)
     | none => u)) ∧
  (∀ (i : Fin 8) (b : Block) (e : ConnEntry) (s : State), s.connAt i = some (b, e) →
    let c := s.owl.conns[i]
    (e.send = true → exec (.safetyDataTx i) s = .next
      (let s1 := atLc (c.sentAt + 100000) s
       sendSafety i b e (s1.modConn i fun c => { c with sentAt := s1.lcN, extraSent := false }))) ∧
    (e.send = true → c.extraSent = false → c.sentBits ≠ s.owl.demand &&& e.sendMask →
      exec (.safetyDataExtraTx i) s = .next (sendSafety i b e (s.modConn i fun c => { c with extraSent := true }))) ∧
    (e.recv = true → c.synced = true → exec (.safetyConnLoss i) s = .next
      (let s1 := atLc (s.cycleFrom (c.acceptAt + 300000)) s
       commandOutputs (raiseTrip 3 i.val 0 e.lossMask 0 (s1.modConn i fun c =>
         { c with synced := false, resync := false, lost := true, held := e.lossMask })))) ∧
    (e.recv = true → c.synced = false → c.resync = true → exec (.safetyConnLoss i) s = .next
      ((atLc (s.cycleFrom (c.acceptAt + 300000)) s).modConn i fun c => { c with resync := false }))) ∧
  (∀ (i : Fin 8) (b : Block) (e : ConnEntry) (w0 w1 w2 w3 : Word) (s : State), s.connAt i = some (b, e) → e.recv = true →
    e.partner = w2.extractLsb' 0 10 → (∀ j b' e', j < i → s.connAt j = some (b', e') → e'.recv = true → e'.partner ≠ w2.extractLsb' 0 10) →
    exec (.safetyDataRx w0 w1 w2 w3) s = .next (takeSafety i b e w0 w1 w2 w3 s)) ∧
  ∀ (i : Fin 8) (b : Block) (e : ConnEntry) (w0 w1 w2 w3 : Word) (s : State),
    let c := s.owl.conns[i]
    let seq : BitVec 16 := w1.extractLsb' 0 16
    let good := w0 = b.safetyId ∧ w3 = crcIeee (bytesOfWords [w0, w1, w2])
    let next := 1 ≤ (seq - c.lastSeq).toNat ∧ (seq - c.lastSeq).toNat ≤ 3
    let missed : Nat → State → State := fun n u => { u with owl := { u.owl with missed := satAdd u.owl.missed n } }
    (good → (c.synced = true ∨ c.resync = true) → next → takeSafety i b e w0 w1 w2 w3 s =
      missed ((seq - c.lastSeq).toNat - 1) (s.modConn i fun c =>
        { c with synced := true, resync := false, lost := false, lastSeq := seq, acceptAt := s.lcN
                 demand := w1.extractLsb' 16 16 &&& e.acceptMask, okSince := if c.synced then c.okSince else s.lcN })) ∧
    (good → c.synced = false → c.resync = false → takeSafety i b e w0 w1 w2 w3 s =
      s.modConn i fun c => { c with resync := true, lastSeq := seq, acceptAt := s.lcN }) ∧
    (good → (c.synced = true ∨ c.resync = true) → ¬ next → takeSafety i b e w0 w1 w2 w3 s = missed 1 s) ∧
    (¬ good → takeSafety i b e w0 w1 w2 w3 s = missed 1 s)

/-- The agreement of two parties (R434, R510 to R520, R525, R550). -/
def Obligations.TwoPartyChanges : Prop :=
  (∀ (p : Packet) (s s1 : State) (c : Ctx) (w0 w1 : Word), admitted 0x0C00 p s = some (c, s1) → p.params = [w0, w1] → resv w0 31 20 = true →
    (bit w0 10 = false → accAny c = true → exec (.fabJoin p) s = replied 0x0C00 p s1 stOk (fabJoinWords s1) s1) ∧
    (bit w0 10 = true → accEng c = true → w0.extractLsb' 12 8 = s1.fab.leadPriority →
      (∀ k : Port, w1.getLsbD k.val = true → s1.isEth k = false) →
      (w0.extractLsb' 0 10 = s1.fab.hubId ∨ ∀ i : Fin 64, s1.hoard.subs[i] = none) →
      let t := judgeAlone { s1 with fab := { s1.fab with
        hubId := w0.extractLsb' 0 10, hubIdSet := true, 
        leader := if s1.fab.leads then w0.extractLsb' 0 10 else s1.fab.leader, join := bit w0 11, leadPriority := w0.extractLsb' 12 8, portMask := w1 } }
      s1.breaksLimits t = false → exec (.fabJoin p) s = replied 0x0C00 p s1 stOk (fabJoinWords t) t)) ∧
  (∀ (p : Packet) (s s1 : State) (c : Ctx) (k i : Fin 8), c.slot = some k → c.replay = false →
    ((List.finRange 8).find? fun j => (s1.proposalAt j).isNone) = some i →
    let told (code action : Nat) (ws : List Word) (d : List Byte) (op : Nat) : Out :=
      let e := endProposal i 0 s1
      replied op p s1 stSecondParty (w32 i.val :: wordsOfBytes d) { e with prot := { e.prot with proposals := vset e.prot.proposals i (some
        { action := BitVec.ofNat 2 action, opcode := BitVec.ofNat 16 code, params := ws, digest := d, slot := k, since := s1.lcN }) } }
    (∀ w0 w1, admitted 0x0C00 p s = some (c, s1) → p.params = [w0, w1] → accParty 0x0C00 0 c = true → resv w0 31 20 = true → bit w0 10 = true →
      w0.extractLsb' 12 8 ≠ s1.fab.leadPriority → fabJoinCheck [w0, w1] s1 = stOk → (∀ j q, s1.proposalAt j = some q → q.object ≠ (0x0C00, 0)) →
      exec (.fabJoin p) s = told 0x0C00 0 [w0, w1] (genericDigest s1 0x0C00 0 (bytesOfWords [w0, w1])) 0x0C00) ∧
    (∀ w0 w1, admitted 0x0F00 p s = some (c, s1) → p.params = [w0, w1] → accParty 0x0F00 0 c = true → bit w0 0 = true → s1.pairConfigurable = true →
      pairWordsOk [w0, w1] s1 = true → (bit w0 1 = true → s1.overLimits = false) → (∀ j q, s1.proposalAt j = some q → q.object ≠ (0x0F00, 0)) →
      exec (.pairConfig p) s = told 0x0F00 0 [w0, w1] (genericDigest s1 0x0F00 0 (bytesOfWords [w0, w1])) 0x0F00) ∧
    (∀ d w, admitted 0x0E00 p s = some (c, s1) → p.params = 1 :: (d ++ [w]) → d.length = 8 → accParty 0x0E00 1 c = true →
      bytesOfWords d = genericDigest s1 0x0E00 1 (bytesOfWords [w]) → cfgCheck [w] s1 = stOk → (∀ j q, s1.proposalAt j = some q → q.object ≠ (0x0E00, 1)) →
      exec (.protPropose p) s = told 0x0E00 1 [w] (bytesOfWords d) 0x0E00)) ∧
  (∀ (p : Packet) (s s1 : State) (c : Ctx) (w0 w1 : Word), admitted 0x0F00 p s = some (c, s1) → p.params = [w0, w1] → accAny c = true →
    bit w0 0 = false → resv w0 31 9 = true → resv w1 31 24 = true →
    exec (.pairConfig p) s = replied 0x0F00 p s1 stOk [s1.pair.word0, s1.pair.word1] s1) ∧
  (∀ (p : Packet) (s s1 : State) (c : Ctx) (w : Word) (d : List Word) (i k : Fin 8) (x : Proposal), admitted 0x0E01 p s = some (c, s1) →
    p.params = w :: d → d.length = 8 → bits w 2 0 = i.val → resv w 31 3 = true → s1.proposalAt i = some x → c.slot = some k → confirmRoles x c s1 = true →
    (k = x.slot → exec (.protConfirm p) s = replied 0x0E01 p s1 stSecondParty (w32 i.val :: wordsOfBytes x.digest) s1) ∧
    (∀ r s2, k ≠ x.slot → bytesOfWords d = x.digest → changeJudge x.opcode.toNat x.action.toNat x.params s1 = (stOk, r, s2) →
      let u := { s2 with prot := { s2.prot with proposals := vset s2.prot.proposals i none } }
      let a := changeApply x.opcode.toNat x.action.toNat x.params u
      let t := raise a.2 0x0700 (protBody x k.val 0)
      u.breaksLimits a.2 = false → s1.breaksLimits t = false → exec (.protConfirm p) s = replied 0x0E01 p s1 stOk a.1 t)) ∧
  (∀ (ws : List Word) (s : State),
    changeApply 0x0D01 0 ws s = ([0], commissionApply (bit (pw ws 0) 0) s) ∧ (changeApply 0x0E03 0 ws s).2 = keyApply ws s ∧
    changeApply 0x0E05 0 ws s = ([], { s with prot := { s.prot with switching := true } }) ∧
    changeApply 0x0F00 0 ws s = ([pw ws 0 &&& 0xFFFFFFFE, pw ws 1], { s with pair := { s.pair with word0 := pw ws 0 &&& 0xFFFFFFFE, word1 := pw ws 1 } }) ∧
    (changeApply 0x0C00 0 ws s).2 = applyFabJoin ws s ∧ (changeApply 0x1003 0 ws s).2 = restoreApply (pw ws 0) s ∧
    changeApply 0x0E00 1 ws s = ([], { s with prot := { s.prot with cfg := pw ws 0 } }) ∧
    changeApply 0x0E00 2 ws s = ([], { s with prot := { s.prot with debugUntil := some (s.lcN + bits (pw ws 0) 7 0 * 60000000000) } })) ∧
  (∀ (p : Packet) (s s1 : State) (c : Ctx) (w : Word) (i : Fin 8) (x : Proposal), admitted 0x0E02 p s = some (c, s1) → p.params = [w] →
    resv w 31 4 = true → bit w 3 = false → bits w 2 0 = i.val → s1.proposalAt i = some x → mayAbort c x = true →
    let t := raise { s1 with prot := { s1.prot with proposals := vset s1.prot.proposals i none } } 0x0701 (protBody x 0 1)
    s1.breaksLimits t = false → exec (.protAbort p) s = replied 0x0E02 p s1 stOk
      [w32 (2 ^ i.val + fld 8 8 (maskOf 8 fun j => (t.proposalAt j).isSome))] t) ∧
  (∀ (i : Fin 8) (x : Proposal) (s : State), s.prot.proposals[i] = some x → exec (.proposalExpiry i) s = .next
    (endProposal i 0 (atLc (x.since + 300000000000) s))) ∧
  (∀ (k : Fin 8) (a : Nat) (s : State), (s.prot.slots[k]).lockedUntil = some a → exec (.lockoutEnd k) s = .next
    (let s1 := atAon a s
     raise { s1 with prot := { s1.prot with slots := vmod s1.prot.slots k fun y => { y with fails := 0, lockedUntil := none } } } 0x0703
       [w32 (k.val + 8)])) ∧
  ∀ (a : Nat) (s : State), s.prot.debugUntil = some a → exec .debugAccessEnd s = .next
    (let s1 := atLc a s
     { s1 with prot := { s1.prot with debugUntil := none } })

/-- Keys and firmware (R507, R509, R511, R512, R515, R517, R521 to R523). -/
def Obligations.KeysAndFirmware : Prop :=
  (∀ (p : Packet) (s s1 : State) (c : Ctx), admitted 0x0E03 p s = some (c, s1) → p.params.length = 9 → keyWordsOk p.params = true →
    (s1.keyedCount < 2 → c.session = none → c.packet.origin = .controlPort → s1.owl.commEn = true → keyCheck p.params s1 = stOk →
      let t := keyApply p.params s1
      s1.breaksLimits t = false → exec (.keyInstall p) s = replied 0x0E03 p s1 stOk (keyReply (keySlot p.params) t) t) ∧
    (∀ k i : Fin 8, 2 ≤ s1.keyedCount → accParty 0x0E03 0 c = true → c.slot = some k →
      let u := unwrapKey c p.params s1
      keyCheck u s1 = stOk → (∀ j q, s1.proposalAt j = some q → q.object ≠ (0x0E03, (keySlot u).val)) →
      ((List.finRange 8).find? fun j => (s1.proposalAt j).isNone) = some i →
      exec (.keyInstall p) s = replied 0x0E03 p s1 stSecondParty (w32 i.val :: wordsOfBytes (keyDigest u s1))
        (let e := endProposal i 0 s1
         { e with prot := { e.prot with proposals := vset e.prot.proposals i (some
          { action := 0, opcode := 0x0E03, params := u, digest := keyDigest u s1, slot := k, since := s1.lcN }) } }))) ∧
  (∀ (ws : List Word) (s : State),
    let k := keySlot ws
    let v := (keyApply ws s).prot.slots
    (bits (pw ws 0) 4 3 = 0 → (v[k]).key = some (bytesOfWords ((ws.drop 1).take 8)) ∧ (v[k]).roles = (pw ws 0).extractLsb' 5 4) ∧
    (bits (pw ws 0) 4 3 = 1 → (v[k]).key = none ∧ (v[k]).roles = 0) ∧
    (bits (pw ws 0) 4 3 = 2 → (v[k]).key = (s.prot.slots[k]).key ∧ (v[k]).roles = (pw ws 0).extractLsb' 5 4) ∧
    (∀ j : Fin 8, j ≠ k → v[j] = s.prot.slots[j]) ∧
    ∀ (i : Fin 8) (x : Session), (keyApply ws s).cmd.sessions[i] = some x → x.slot ≠ k) ∧
  (∀ (p : Packet) (s s1 : State) (c : Ctx), admitted 0x0E04 p s = some (c, s1) → accSvc c = true → s1.sup.mode ≠ .safeCore →
    let w := pw p.params 0
    let n := bits w 28 21
    p.params.length = 1 + n → bit w 31 = false → bits w 20 0 % 4 = 0 → 1 ≤ n → n ≤ 128 →
    let u := if bit w 29 then withdrawProposals isActivation s1 else s1
    let v := { u with prot := storeChunk (bit w 29) (bits w 20 0 / 4) (p.params.drop 1) u.prot }
    let t := if bit w 30 && v.prot.stage != .verified then checkStaged v else v
    s1.breaksLimits t = false → exec (.fwStage p) s = replied 0x0E04 p s1 stOk
      [w32 (fld 0 21 (4 * t.prot.staged.length) + fld 21 2 t.prot.stage.code + fld 23 4 t.prot.result.toNat)] t) ∧
  (∀ s : State, let r := fwCheck s.secFloor (stagedWhole s.prot.staged) (stagedImage s.prot.staged)
    (checkStaged s).prot.result = BitVec.ofNat 4 r ∧ (checkStaged s).prot.stage = (if r = 0 then .verified else .rejected) ∧
    (checkStaged s).prot.staged = s.prot.staged ∧ (checkStaged s).prot.slots = s.prot.slots) ∧
  (∀ (p : Packet) (s s1 : State) (c : Ctx) (w : Word) (k i : Fin 8), admitted 0x0E05 p s = some (c, s1) → p.params = [w] →
    accParty 0x0E05 0 c = true → c.slot = some k → s1.working = true → resv w 31 24 = true → s1.stagedVersion = some (bits w 23 0) →
    (∀ j q, s1.proposalAt j = some q → q.object ≠ (0x0E05, 0)) → ((List.finRange 8).find? fun j => (s1.proposalAt j).isNone) = some i →
    let d := sha256 (bytesOfWords (stagedImage s1.prot.staged))
    exec (.fwActivate p) s = replied 0x0E05 p s1 stSecondParty (w32 i.val :: wordsOfBytes d)
      (let e := endProposal i 0 s1
       { e with prot := { e.prot with proposals := vset e.prot.proposals i (some
        { action := 0, opcode := 0x0E05, params := [w], digest := d, slot := k, since := s1.lcN }) } })) ∧
  ∀ s : State, s.served = true → s.prot.switching = true → s.cmd.running = [] → exec .firmwareSwitch s = .next
    { s with
      cmd := { s.cmd with sessions := Vector.replicate 8 none, caches := [], nonces := [] }
      prot := { s.prot with proposals := Vector.replicate 8 none, switching := false, fwVersion := BitVec.ofNat 24 (s.stagedVersion.getD 0) } }

/-- R358, for the coder's quantisation and the decoder's reconstruction. -/
def Obligations.CodedValueOfASample : Prop :=
  (∀ (d : Nat) (u : Int), restore d u = u * 2 ^ d) ∧
  (∀ v : Int, quantise 0 v = v) ∧
  ∀ (d : Nat) (v : Int), 1 ≤ d → d ≤ 23 → -(2 ^ 23) ≤ v → v < 2 ^ 23 →
    let floor := (v + 2 ^ (d - 1)) / 2 ^ d
    let low : Int := -(2 ^ (23 - d))
    let high : Int := 2 ^ (23 - d) - 1
    quantise d v = max low (min high floor) ∧
    (floor ≤ high → (v - restore d (quantise d v)).natAbs ≤ 2 ^ (d - 1)) ∧
    (high < floor → (v - restore d (quantise d v)).natAbs ≤ 2 ^ d - 1)

/-- Reset values stated by the spec (R68, R77, R252, R254, R353, R384, R435, R438, R466, R504, R550, R571). -/
def Obligations.ResetValues : Prop :=
  let s := State.reset
  s.sup.mode = .off ∧ s.sup.causes = 0 ∧ s.sup.resetCauses = 0x01 ∧ s.sup.longReset = false ∧ s.sup.startCount = 0 ∧ s.sup.vcoreReq = 0x0A ∧
  s.time.cfg.kp = 4 ∧ s.time.cfg.ki = 10 ∧ s.time.cfg.holdover = 10 ∧ s.time.cfg.stepLimit = 10 ∧ s.time.cfg.slewMax = 100 ∧
  (∀ q : Fin 76, (s.hoard.queues[q]).hwm = 48 ∧ (s.hoard.queues[q]).lwm = 16 ∧ (s.hoard.queues[q]).tailUs = 200) ∧
  s.hoard.spillMib = 128 ∧ s.hoard.spillAge = 100 ∧
  (∀ p : Port, (s.lane p).tapsT = { pre := 4, main := 51, post := 8 } ∧ (s.lane p).tapsNow = (s.lane p).tapsT ∧
    (s.port p).weights = 0x444444 ∧ (s.port p).ackWait = 80 ∧ (s.port p).spillThresh = 64) ∧
  (∀ u : Fin 8, (s.fab.uplinks[u]).mtu = 9000 ∧ (s.fab.uplinks[u]).udpPort = 40384 ∧ (s.fab.uplinks[u]).pfx = 24) ∧
  s.cmd.nqFilter = 0x000101E1 ∧ (∀ n : Fin 8, (s.owl.sos[n]).width = 200 ∧ (s.owl.sos[n]).period = 20) ∧
  bits s.pair.word0 8 3 = 48 ∧ bit s.pair.word0 1 = false ∧ bits s.pair.word1 15 10 = 2 ∧ bits s.pair.word1 23 16 = 24 ∧ s.health.horizon = 90
end

