-- ==== Sys2Proof/Laws/Frames.lean ====
section
/-! SUPPORT. What the shared operations leave as it was: notices, records, time passing, frames and replies. -/

namespace Sys2Proof.Machine

/-- The state with the Hoard and the command unit set aside. -/
def State.quiet (s : State) : State :=
  { s with hoard := Hoard.reset, cmd := Cmd.reset }

@[simp] theorem forEach_quiet {α : Type} (l : List α) (f : State → α → State) (h : ∀ s a, (f s a).quiet = s.quiet) (s : State) :
    (forEach l f s).quiet = s.quiet := by
  unfold forEach
  induction l generalizing s with
  | nil => rfl
  | cons a t ih => simp [List.foldl, ih, h]

@[simp] theorem foldl_quiet {α : Type} (l : List α) (f : State → α → State) (h : ∀ s a, (f s a).quiet = s.quiet) (s : State) :
    (l.foldl f s).quiet = s.quiet := forEach_quiet l f h s

@[simp] theorem foldl_fst_quiet {α β : Type} (l : List α) (f : State × β → α → State × β)
    (h : ∀ s a, (f s a).1.quiet = s.1.quiet) (s : State × β) : (l.foldl f s).1.quiet = s.1.quiet := by
  induction l generalizing s with
  | nil => rfl
  | cons a t ih => simp [List.foldl, ih, h]

@[simp] theorem ite_quiet (c : Prop) [Decidable c] (s t : State) :
    (if c then s else t).quiet = if c then s.quiet else t.quiet := by split <;> rfl

@[simp] theorem ite_fst_quiet {β : Type} (c : Prop) [Decidable c] (s t : State × β) :
    (if c then s else t).1.quiet = if c then s.1.quiet else t.1.quiet := by split <;> rfl

@[simp] theorem State.modHoard_quiet (s : State) (f : Hoard → Hoard) :
    (State.modHoard s f).quiet = s.quiet := id rfl

@[simp] theorem State.modStream_quiet (s : State) (t : Fin 54) (f : Stream → Stream) :
    (State.modStream s t f).quiet = s.quiet := id rfl

@[simp] theorem State.modQueue_quiet (s : State) (q : Fin 76) (f : Queue → Queue) :
    (State.modQueue s q f).quiet = s.quiet := id rfl

@[simp] theorem State.modCmd_quiet (s : State) (f : Cmd → Cmd) :
    (State.modCmd s f).quiet = s.quiet := id rfl

@[simp] theorem setLevel_quiet (q : Fin 76) (level : Nat) (s : State) :
    (setLevel q level s).1.quiet = s.quiet := by
  simp [setLevel]

@[simp] theorem overrunSubs_quiet (stream : Nat) (old : List (BitVec 48 × Nat × Nat)) (oldest : BitVec 48) (s : State) :
    (overrunSubs stream old oldest s).1.quiet = s.quiet := by
  unfold overrunSubs; rw [foldl_fst_quiet _ _ (fun s a => by split <;> simp)]

@[simp] theorem passRecord_quiet (stream : Nat) (gone : List (BitVec 48 × Nat × Nat)) (s : State) :
    (passRecord stream gone s).quiet = s.quiet := by
  simp [passRecord]

@[simp] theorem judgeMarks_quiet (stream : Nat) (old ring : List Record) (s : State) :
    (judgeMarks stream old ring s).1.quiet = s.quiet := by
  unfold judgeMarks; rw [foldl_fst_quiet _ _ (fun s a => by split <;> simp)]

@[simp] theorem ringPut_quiet (t : Fin 54) (r : Record) (s : State) :
    (ringPut t r s).1.quiet = s.quiet := by
  simp [ringPut]

@[simp] theorem readQueue_quiet (q : Fin 76) (n : Nat) (s : State) : ((readQueue q n s).1).quiet = s.quiet := by
  simp [readQueue]

@[simp] theorem passQueue_quiet (q : Fin 76) (bytes : Nat) (s : State) : ((passQueue q bytes s).1).quiet = s.quiet := by
  simp [passQueue]

@[simp] theorem putRecord_quiet (t : Fin 54) (o : OpenRec) (s : State) : ((putRecord t o s).1).quiet = s.quiet := by
  simp [putRecord]

@[simp] theorem closeRecord_quiet (t : Fin 54) (s : State) :
    (closeRecord t s).1.quiet = s.quiet := by
  unfold closeRecord
  split
  · rfl
  · simp only [setLevel_quiet]
    split <;> simp

@[simp] theorem noteShed_quiet (e : Entry) (s : State) :
    (noteShed e s).quiet = s.quiet := by
  simp [noteShed]

@[simp] theorem addEntry_quiet (e : Entry) (s : State) :
    (addEntry e s).1.quiet = s.quiet := by
  simp [addEntry]

@[simp] theorem refuseEntry_quiet (e : Entry) (s : State) : ((refuseEntry e s).1).quiet = s.quiet := by
  simp [refuseEntry]

@[simp] theorem appendEntry_quiet (e : Entry) (s : State) :
    (appendEntry e s).1.quiet = s.quiet := by
  simp [appendEntry]

@[simp] theorem windowNotice_quiet (n : Notice) (s : State) :
    (windowNotice n s).quiet = s.quiet := by
  simp [windowNotice]

@[simp] theorem pushOne_quiet (i : Item) (s : State) :
    (pushOne i s).1.quiet = s.quiet := by
  unfold pushOne; (repeat' split) <;> simp

@[simp] theorem pushAll_quiet (x0 : Nat) (x1 : List Item) (s : State) :
    (pushAll x0 x1 s).quiet = s.quiet := by
  induction x0 generalizing x1 s with
  | zero => simp [pushAll]
  | succ k ih => cases x1 <;> simp [pushAll, ih]

@[simp] theorem raise_quiet (s : State) (code : Nat) (body : List Word) :
    (raise s code body).quiet = s.quiet := by
  simp [raise]

@[simp] theorem settleSpill_quiet (s : State) : (settleSpill s).quiet = s.quiet := by
  unfold settleSpill; split <;> simp

@[simp] theorem useSpillRate_quiet (bytes : Nat) (s : State) : (useSpillRate bytes s).quiet = s.quiet := by
  simp [useSpillRate]

@[simp] theorem deliver_quiet (e : Entry) (s : State) :
    (deliver e s).quiet = s.quiet := by
  simp [deliver]

@[simp] theorem raiseGap_quiet (s : State) (stream : Nat) (cause : Nat) (first last : BitVec 48) (flc llc : Nat) :
    (raiseGap s stream cause first last flc llc).quiet = s.quiet := by
  simp [raiseGap]

@[simp] theorem raiseIsolated_quiet (s : State) (level index : Nat) :
    (raiseIsolated s level index).quiet = s.quiet := by
  simp [raiseIsolated]

@[simp] theorem raiseTransient_quiet (s : State) (unit kind count : Nat) :
    (raiseTransient s unit kind count).quiet = s.quiet := by
  simp [raiseTransient]

@[simp] theorem raiseSuspended_quiet (s : State) (sub stream : Nat) (q : BitVec 48) :
    (raiseSuspended s sub stream q).quiet = s.quiet := by
  simp [raiseSuspended]

/-- The state with the coders, the Hoard and the command unit set aside. -/
def State.coded (s : State) : State :=
  { s with coders := Vector.replicate 48 Coder.reset, hoard := Hoard.reset, cmd := Cmd.reset }

@[simp] theorem forEach_coded {α : Type} (l : List α) (f : State → α → State) (h : ∀ s a, (f s a).coded = s.coded) (s : State) :
    (forEach l f s).coded = s.coded := by
  unfold forEach
  induction l generalizing s with
  | nil => rfl
  | cons a t ih => simp [List.foldl, ih, h]

@[simp] theorem foldl_coded {α : Type} (l : List α) (f : State → α → State) (h : ∀ s a, (f s a).coded = s.coded) (s : State) :
    (l.foldl f s).coded = s.coded := forEach_coded l f h s

@[simp] theorem foldl_fst_coded {α β : Type} (l : List α) (f : State × β → α → State × β)
    (h : ∀ s a, (f s a).1.coded = s.1.coded) (s : State × β) : (l.foldl f s).1.coded = s.1.coded := by
  induction l generalizing s with
  | nil => rfl
  | cons a t ih => simp [List.foldl, ih, h]

@[simp] theorem ite_coded (c : Prop) [Decidable c] (s t : State) :
    (if c then s else t).coded = if c then s.coded else t.coded := by split <;> rfl

@[simp] theorem ite_fst_coded {β : Type} (c : Prop) [Decidable c] (s t : State × β) :
    (if c then s else t).1.coded = if c then s.1.coded else t.1.coded := by split <;> rfl

theorem coded_of_quiet {s t : State} (h : t.quiet = s.quiet) : t.coded = s.coded := by
  have k := congrArg State.coded h
  exact k

@[simp] theorem setLevel_coded (q : Fin 76) (level : Nat) (s : State) :
    (setLevel q level s).1.coded = s.coded := coded_of_quiet (setLevel_quiet q level s)

@[simp] theorem overrunSubs_coded (stream : Nat) (old : List (BitVec 48 × Nat × Nat)) (oldest : BitVec 48) (s : State) :
    (overrunSubs stream old oldest s).1.coded = s.coded := coded_of_quiet (overrunSubs_quiet stream old oldest s)

@[simp] theorem passRecord_coded (stream : Nat) (gone : List (BitVec 48 × Nat × Nat)) (s : State) :
    (passRecord stream gone s).coded = s.coded := coded_of_quiet (passRecord_quiet stream gone s)

@[simp] theorem judgeMarks_coded (stream : Nat) (old ring : List Record) (s : State) :
    (judgeMarks stream old ring s).1.coded = s.coded := coded_of_quiet (judgeMarks_quiet stream old ring s)

@[simp] theorem ringPut_coded (t : Fin 54) (r : Record) (s : State) :
    (ringPut t r s).1.coded = s.coded := coded_of_quiet (ringPut_quiet t r s)

@[simp] theorem closeRecord_coded (t : Fin 54) (s : State) :
    (closeRecord t s).1.coded = s.coded := coded_of_quiet (closeRecord_quiet t s)

@[simp] theorem noteShed_coded (e : Entry) (s : State) :
    (noteShed e s).coded = s.coded := coded_of_quiet (noteShed_quiet e s)

@[simp] theorem addEntry_coded (e : Entry) (s : State) :
    (addEntry e s).1.coded = s.coded := coded_of_quiet (addEntry_quiet e s)

@[simp] theorem appendEntry_coded (e : Entry) (s : State) :
    (appendEntry e s).1.coded = s.coded := coded_of_quiet (appendEntry_quiet e s)

@[simp] theorem windowNotice_coded (n : Notice) (s : State) :
    (windowNotice n s).coded = s.coded := coded_of_quiet (windowNotice_quiet n s)

@[simp] theorem pushOne_coded (i : Item) (s : State) :
    (pushOne i s).1.coded = s.coded := coded_of_quiet (pushOne_quiet i s)

@[simp] theorem pushAll_coded (x0 : Nat) (x1 : List Item) (s : State) :
    (pushAll x0 x1 s).coded = s.coded := coded_of_quiet (pushAll_quiet x0 x1 s)

@[simp] theorem raise_coded (s : State) (code : Nat) (body : List Word) :
    (raise s code body).coded = s.coded := coded_of_quiet (raise_quiet s code body)

@[simp] theorem deliver_coded (e : Entry) (s : State) :
    (deliver e s).coded = s.coded := coded_of_quiet (deliver_quiet e s)

@[simp] theorem raiseGap_coded (s : State) (stream : Nat) (cause : Nat) (first last : BitVec 48) (flc llc : Nat) :
    (raiseGap s stream cause first last flc llc).coded = s.coded := coded_of_quiet (raiseGap_quiet s stream cause first last flc llc)

@[simp] theorem raiseIsolated_coded (s : State) (level index : Nat) :
    (raiseIsolated s level index).coded = s.coded := coded_of_quiet (raiseIsolated_quiet s level index)

@[simp] theorem raiseTransient_coded (s : State) (unit kind count : Nat) :
    (raiseTransient s unit kind count).coded = s.coded := coded_of_quiet (raiseTransient_quiet s unit kind count)

@[simp] theorem raiseSuspended_coded (s : State) (sub stream : Nat) (q : BitVec 48) :
    (raiseSuspended s sub stream q).coded = s.coded := coded_of_quiet (raiseSuspended_quiet s sub stream q)

@[simp] theorem State.modCoder_coded (s : State) (k : SettId) (f : Coder → Coder) :
    (State.modCoder s k f).coded = s.coded := id rfl

@[simp] theorem State.modHoard_coded (s : State) (f : Hoard → Hoard) :
    (State.modHoard s f).coded = s.coded := id rfl

@[simp] theorem State.modStream_coded (s : State) (t : Fin 54) (f : Stream → Stream) :
    (State.modStream s t f).coded = s.coded := id rfl

@[simp] theorem State.modQueue_coded (s : State) (q : Fin 76) (f : Queue → Queue) :
    (State.modQueue s q f).coded = s.coded := id rfl

@[simp] theorem State.modCmd_coded (s : State) (f : Cmd → Cmd) :
    (State.modCmd s f).coded = s.coded := id rfl

@[simp] theorem depthAlert_coded (k : SettId) (deep : Nat) (s : State) :
    (depthAlert k deep s).1.coded = s.coded := by
  simp [depthAlert]

@[simp] theorem writeSet_coded (k : SettId) (n : Nat) (s : State) :
    (writeSet k n s).1.coded = s.coded := by
  simp [writeSet]

@[simp] theorem writeSets_coded (x0 : Nat) (x1 : SettId) (s : State) :
    (writeSets x0 x1 s).1.coded = s.coded := by
  induction x0 generalizing s with
  | zero => simp [writeSets]
  | succ k ih => unfold writeSets; (repeat' split) <;> simp [ih]

@[simp] theorem endRefusal_coded (k : SettId) (s : State) :
    (endRefusal k s).1.coded = s.coded := by
  simp [endRefusal]

@[simp] theorem writeRest_coded (k : SettId) (s : State) : ((writeRest k s).1).coded = s.coded := by
  unfold writeRest; simp only []; split <;> simp

@[simp] theorem flushCoder_coded (k : SettId) (s : State) :
    (flushCoder k s).1.coded = s.coded := by
  simp [flushCoder]

@[simp] theorem endRecord_coded (t : Fin 54) (s : State) :
    (endRecord t s).coded = s.coded := by
  unfold endRecord; (repeat' split) <;> simp

@[simp] theorem stageGroup_coded (k : SettId) (g : TickGroup) (s : State) :
    (stageGroup k g s).coded = s.coded := by
  unfold stageGroup; simp; (repeat' split) <;> simp_all

@[simp] theorem endRecords_coded (s : State) :
    (endRecords s).coded = s.coded := by
  simp [endRecords]

/-- The state with the clocks, the edge unit, the coders, the Hoard and the command unit set aside. -/
def State.still (s : State) : State :=
  { s with time := Time.reset, tdc := Tdc.reset, coders := Vector.replicate 48 Coder.reset, hoard := Hoard.reset, cmd := Cmd.reset }

@[simp] theorem forEach_still {α : Type} (l : List α) (f : State → α → State) (h : ∀ s a, (f s a).still = s.still) (s : State) :
    (forEach l f s).still = s.still := by
  unfold forEach
  induction l generalizing s with
  | nil => rfl
  | cons a t ih => simp [List.foldl, ih, h]

@[simp] theorem foldl_still {α : Type} (l : List α) (f : State → α → State) (h : ∀ s a, (f s a).still = s.still) (s : State) :
    (l.foldl f s).still = s.still := forEach_still l f h s

@[simp] theorem foldl_fst_still {α β : Type} (l : List α) (f : State × β → α → State × β)
    (h : ∀ s a, (f s a).1.still = s.1.still) (s : State × β) : (l.foldl f s).1.still = s.1.still := by
  induction l generalizing s with
  | nil => rfl
  | cons a t ih => simp [List.foldl, ih, h]

@[simp] theorem ite_still (c : Prop) [Decidable c] (s t : State) :
    (if c then s else t).still = if c then s.still else t.still := by split <;> rfl

@[simp] theorem ite_fst_still {β : Type} (c : Prop) [Decidable c] (s t : State × β) :
    (if c then s else t).1.still = if c then s.1.still else t.1.still := by split <;> rfl

theorem still_of_coded {s t : State} (h : t.coded = s.coded) : t.still = s.still := by
  have k := congrArg State.still h
  exact k

theorem still_of_quiet {s t : State} (h : t.quiet = s.quiet) : t.still = s.still := by
  have k := congrArg State.still h
  exact k

@[simp] theorem setLevel_still (q : Fin 76) (level : Nat) (s : State) :
    (setLevel q level s).1.still = s.still := still_of_quiet (setLevel_quiet q level s)

@[simp] theorem overrunSubs_still (stream : Nat) (old : List (BitVec 48 × Nat × Nat)) (oldest : BitVec 48) (s : State) :
    (overrunSubs stream old oldest s).1.still = s.still := still_of_quiet (overrunSubs_quiet stream old oldest s)

@[simp] theorem passRecord_still (stream : Nat) (gone : List (BitVec 48 × Nat × Nat)) (s : State) :
    (passRecord stream gone s).still = s.still := still_of_quiet (passRecord_quiet stream gone s)

@[simp] theorem judgeMarks_still (stream : Nat) (old ring : List Record) (s : State) :
    (judgeMarks stream old ring s).1.still = s.still := still_of_quiet (judgeMarks_quiet stream old ring s)

@[simp] theorem ringPut_still (t : Fin 54) (r : Record) (s : State) :
    (ringPut t r s).1.still = s.still := still_of_quiet (ringPut_quiet t r s)

@[simp] theorem closeRecord_still (t : Fin 54) (s : State) :
    (closeRecord t s).1.still = s.still := still_of_quiet (closeRecord_quiet t s)

@[simp] theorem noteShed_still (e : Entry) (s : State) :
    (noteShed e s).still = s.still := still_of_quiet (noteShed_quiet e s)

@[simp] theorem addEntry_still (e : Entry) (s : State) :
    (addEntry e s).1.still = s.still := still_of_quiet (addEntry_quiet e s)

@[simp] theorem appendEntry_still (e : Entry) (s : State) :
    (appendEntry e s).1.still = s.still := still_of_quiet (appendEntry_quiet e s)

@[simp] theorem windowNotice_still (n : Notice) (s : State) :
    (windowNotice n s).still = s.still := still_of_quiet (windowNotice_quiet n s)

@[simp] theorem pushOne_still (i : Item) (s : State) :
    (pushOne i s).1.still = s.still := still_of_quiet (pushOne_quiet i s)

@[simp] theorem pushAll_still (x0 : Nat) (x1 : List Item) (s : State) :
    (pushAll x0 x1 s).still = s.still := still_of_quiet (pushAll_quiet x0 x1 s)

@[simp] theorem raise_still (s : State) (code : Nat) (body : List Word) :
    (raise s code body).still = s.still := still_of_quiet (raise_quiet s code body)

@[simp] theorem readQueue_still (q : Fin 76) (n : Nat) (s : State) : ((readQueue q n s).1).still = s.still :=
  still_of_quiet (readQueue_quiet q n s)

@[simp] theorem settleSpill_still (s : State) : (settleSpill s).still = s.still := still_of_quiet (settleSpill_quiet s)

@[simp] theorem useSpillRate_still (bytes : Nat) (s : State) : (useSpillRate bytes s).still = s.still :=
  still_of_quiet (useSpillRate_quiet bytes s)

@[simp] theorem deliver_still (e : Entry) (s : State) :
    (deliver e s).still = s.still := still_of_quiet (deliver_quiet e s)

@[simp] theorem raiseGap_still (s : State) (stream : Nat) (cause : Nat) (first last : BitVec 48) (flc llc : Nat) :
    (raiseGap s stream cause first last flc llc).still = s.still := still_of_quiet (raiseGap_quiet s stream cause first last flc llc)

@[simp] theorem raiseIsolated_still (s : State) (level index : Nat) :
    (raiseIsolated s level index).still = s.still := still_of_quiet (raiseIsolated_quiet s level index)

@[simp] theorem raiseTransient_still (s : State) (unit kind count : Nat) :
    (raiseTransient s unit kind count).still = s.still := still_of_quiet (raiseTransient_quiet s unit kind count)

@[simp] theorem raiseSuspended_still (s : State) (sub stream : Nat) (q : BitVec 48) :
    (raiseSuspended s sub stream q).still = s.still := still_of_quiet (raiseSuspended_quiet s sub stream q)

@[simp] theorem depthAlert_still (k : SettId) (deep : Nat) (s : State) :
    (depthAlert k deep s).1.still = s.still := still_of_coded (depthAlert_coded k deep s)

@[simp] theorem writeSet_still (k : SettId) (n : Nat) (s : State) :
    (writeSet k n s).1.still = s.still := still_of_coded (writeSet_coded k n s)

@[simp] theorem writeSets_still (x0 : Nat) (x1 : SettId) (s : State) :
    (writeSets x0 x1 s).1.still = s.still := still_of_coded (writeSets_coded x0 x1 s)

@[simp] theorem endRefusal_still (k : SettId) (s : State) :
    (endRefusal k s).1.still = s.still := still_of_coded (endRefusal_coded k s)

@[simp] theorem flushCoder_still (k : SettId) (s : State) :
    (flushCoder k s).1.still = s.still := still_of_coded (flushCoder_coded k s)

@[simp] theorem endRecord_still (t : Fin 54) (s : State) :
    (endRecord t s).still = s.still := still_of_coded (endRecord_coded t s)

@[simp] theorem stageGroup_still (k : SettId) (g : TickGroup) (s : State) :
    (stageGroup k g s).still = s.still := still_of_coded (stageGroup_coded k g s)

@[simp] theorem endRecords_still (s : State) :
    (endRecords s).still = s.still := still_of_coded (endRecords_coded s)

@[simp] theorem State.modTime_still (s : State) (f : Time → Time) :
    (State.modTime s f).still = s.still := id rfl

@[simp] theorem State.modTdc_still (s : State) (f : Tdc → Tdc) :
    (State.modTdc s f).still = s.still := id rfl

@[simp] theorem State.modEdge_still (s : State) (i : Fin 16) (f : EdgeIn → EdgeIn) :
    (State.modEdge s i f).still = s.still := by
  simp [State.modEdge]

@[simp] theorem State.modCoder_still (s : State) (k : SettId) (f : Coder → Coder) :
    (State.modCoder s k f).still = s.still := id rfl

@[simp] theorem State.modHoard_still (s : State) (f : Hoard → Hoard) :
    (State.modHoard s f).still = s.still := id rfl

@[simp] theorem State.modStream_still (s : State) (t : Fin 54) (f : Stream → Stream) :
    (State.modStream s t f).still = s.still := id rfl

@[simp] theorem State.modQueue_still (s : State) (q : Fin 76) (f : Queue → Queue) :
    (State.modQueue s q f).still = s.still := id rfl

@[simp] theorem State.modCmd_still (s : State) (f : Cmd → Cmd) :
    (State.modCmd s f).still = s.still := id rfl

@[simp] theorem setEdgeQueue_still (i : Fin 16) (q : List (List Word)) (s : State) :
    (setEdgeQueue i q s).still = s.still := by
  simp [setEdgeQueue]

@[simp] theorem pushEdge_still (i : Fin 16) (w : List Word) (s : State) : (pushEdge i w s).still = s.still := by
  simp [pushEdge]

@[simp] theorem emitLoss_still (i : Fin 16) (s : State) :
    (emitLoss i s).still = s.still := by
  unfold emitLoss; dsimp only; (repeat' split) <;> simp

@[simp] theorem loseEdge_still (i : Fin 16) (t : Stamp) (cal : Bool) (s : State) :
    (loseEdge i t cal s).still = s.still := by
  unfold loseEdge; split <;> simp

@[simp] theorem queueEdge_still (i : Fin 16) (t : Stamp) (w : List Word) (s : State) :
    (queueEdge i t w s).still = s.still := by
  unfold queueEdge; (repeat' split) <;> simp

@[simp] theorem State.modUnit_still (s : State) (m : Fin 8) (f : MeasUnit → MeasUnit) : (s.modUnit m f).still = s.still := by
  simp [State.modUnit]

@[simp] theorem emitInterval_still (m : Fin 8) (r : MuResult) (s : State) :
    (emitInterval m r s).still = s.still := by
  simp [emitInterval]

@[simp] theorem flushTie_still (m : Fin 8) (s : State) : (flushTie m s).still = s.still := by
  unfold flushTie; split <;> simp

@[simp] theorem flushTies_still (lc : Nat) (s : State) : (flushTies lc s).still = s.still := by
  unfold flushTies; exact forEach_still _ _ (fun s m => by split <;> simp) _

@[simp] theorem takeEdge_still (i : Fin 16) (e : Entry) (s : State) : (takeEdge i e s).still = s.still := by
  unfold takeEdge; simp only []; split <;> simp

@[simp] theorem drainEdge_still (i : Fin 16) (s : State) :
    (drainEdge i s).still = s.still := by
  unfold drainEdge; (repeat' split) <;> simp

@[simp] theorem drainEdges_still (x0 : Nat) (s : State) :
    (drainEdges x0 s).still = s.still := by
  induction x0 generalizing s with
  | zero => simp [drainEdges]
  | succ k ih => unfold drainEdges; split <;> simp [ih]

@[simp] theorem newEpoch_still (s : State) :
    (newEpoch s).still = s.still := by
  simp [newEpoch]

@[simp] theorem elapse_still (dt : Nat) (s : State) :
    (elapse dt s).still = s.still := by
  simp [elapse]

@[simp] theorem atLc_still (lc : Nat) (s : State) :
    (atLc lc s).still = s.still := by
  simp [atLc]

@[simp] theorem atAon_still (ns : Nat) (s : State) :
    (atAon ns s).still = s.still := by
  simp [atAon]

@[simp] theorem atTk_still (tk : Nat) (s : State) :
    (atTk tk s).still = s.still := by
  simp [atTk]

@[simp] theorem idle_still (s : State) :
    (idle s).still = s.still := by
  simp [idle]

/-- The state with the lanes, the fabric, the Hoard and the command unit set aside. -/
def State.sent (s : State) : State :=
  { s with lanes := Lanes.reset, fab := Fab.reset, hoard := Hoard.reset, cmd := Cmd.reset }

@[simp] theorem forEach_sent {α : Type} (l : List α) (f : State → α → State) (h : ∀ s a, (f s a).sent = s.sent) (s : State) :
    (forEach l f s).sent = s.sent := by
  unfold forEach
  induction l generalizing s with
  | nil => rfl
  | cons a t ih => simp [List.foldl, ih, h]

@[simp] theorem foldl_sent {α : Type} (l : List α) (f : State → α → State) (h : ∀ s a, (f s a).sent = s.sent) (s : State) :
    (l.foldl f s).sent = s.sent := forEach_sent l f h s

@[simp] theorem foldl_fst_sent {α β : Type} (l : List α) (f : State × β → α → State × β)
    (h : ∀ s a, (f s a).1.sent = s.1.sent) (s : State × β) : (l.foldl f s).1.sent = s.1.sent := by
  induction l generalizing s with
  | nil => rfl
  | cons a t ih => simp [List.foldl, ih, h]

@[simp] theorem ite_sent (c : Prop) [Decidable c] (s t : State) :
    (if c then s else t).sent = if c then s.sent else t.sent := by split <;> rfl

@[simp] theorem ite_fst_sent {β : Type} (c : Prop) [Decidable c] (s t : State × β) :
    (if c then s else t).1.sent = if c then s.1.sent else t.1.sent := by split <;> rfl

theorem sent_of_quiet {s t : State} (h : t.quiet = s.quiet) : t.sent = s.sent := by
  have k := congrArg State.sent h
  exact k

@[simp] theorem setLevel_sent (q : Fin 76) (level : Nat) (s : State) :
    (setLevel q level s).1.sent = s.sent := sent_of_quiet (setLevel_quiet q level s)

@[simp] theorem overrunSubs_sent (stream : Nat) (old : List (BitVec 48 × Nat × Nat)) (oldest : BitVec 48) (s : State) :
    (overrunSubs stream old oldest s).1.sent = s.sent := sent_of_quiet (overrunSubs_quiet stream old oldest s)

@[simp] theorem passRecord_sent (stream : Nat) (gone : List (BitVec 48 × Nat × Nat)) (s : State) :
    (passRecord stream gone s).sent = s.sent := sent_of_quiet (passRecord_quiet stream gone s)

@[simp] theorem judgeMarks_sent (stream : Nat) (old ring : List Record) (s : State) :
    (judgeMarks stream old ring s).1.sent = s.sent := sent_of_quiet (judgeMarks_quiet stream old ring s)

@[simp] theorem ringPut_sent (t : Fin 54) (r : Record) (s : State) :
    (ringPut t r s).1.sent = s.sent := sent_of_quiet (ringPut_quiet t r s)

@[simp] theorem closeRecord_sent (t : Fin 54) (s : State) :
    (closeRecord t s).1.sent = s.sent := sent_of_quiet (closeRecord_quiet t s)

@[simp] theorem noteShed_sent (e : Entry) (s : State) :
    (noteShed e s).sent = s.sent := sent_of_quiet (noteShed_quiet e s)

@[simp] theorem addEntry_sent (e : Entry) (s : State) :
    (addEntry e s).1.sent = s.sent := sent_of_quiet (addEntry_quiet e s)

@[simp] theorem appendEntry_sent (e : Entry) (s : State) :
    (appendEntry e s).1.sent = s.sent := sent_of_quiet (appendEntry_quiet e s)

@[simp] theorem windowNotice_sent (n : Notice) (s : State) :
    (windowNotice n s).sent = s.sent := sent_of_quiet (windowNotice_quiet n s)

@[simp] theorem pushOne_sent (i : Item) (s : State) :
    (pushOne i s).1.sent = s.sent := sent_of_quiet (pushOne_quiet i s)

@[simp] theorem pushAll_sent (x0 : Nat) (x1 : List Item) (s : State) :
    (pushAll x0 x1 s).sent = s.sent := sent_of_quiet (pushAll_quiet x0 x1 s)

@[simp] theorem raise_sent (s : State) (code : Nat) (body : List Word) :
    (raise s code body).sent = s.sent := sent_of_quiet (raise_quiet s code body)

@[simp] theorem readQueue_sent (q : Fin 76) (n : Nat) (s : State) : ((readQueue q n s).1).sent = s.sent :=
  sent_of_quiet (readQueue_quiet q n s)

@[simp] theorem settleSpill_sent (s : State) : (settleSpill s).sent = s.sent := sent_of_quiet (settleSpill_quiet s)

@[simp] theorem useSpillRate_sent (bytes : Nat) (s : State) : (useSpillRate bytes s).sent = s.sent :=
  sent_of_quiet (useSpillRate_quiet bytes s)

@[simp] theorem deliver_sent (e : Entry) (s : State) :
    (deliver e s).sent = s.sent := sent_of_quiet (deliver_quiet e s)

@[simp] theorem raiseGap_sent (s : State) (stream : Nat) (cause : Nat) (first last : BitVec 48) (flc llc : Nat) :
    (raiseGap s stream cause first last flc llc).sent = s.sent := sent_of_quiet (raiseGap_quiet s stream cause first last flc llc)

@[simp] theorem raiseIsolated_sent (s : State) (level index : Nat) :
    (raiseIsolated s level index).sent = s.sent := sent_of_quiet (raiseIsolated_quiet s level index)

@[simp] theorem raiseTransient_sent (s : State) (unit kind count : Nat) :
    (raiseTransient s unit kind count).sent = s.sent := sent_of_quiet (raiseTransient_quiet s unit kind count)

@[simp] theorem raiseSuspended_sent (s : State) (sub stream : Nat) (q : BitVec 48) :
    (raiseSuspended s sub stream q).sent = s.sent := sent_of_quiet (raiseSuspended_quiet s sub stream q)

@[simp] theorem State.modHoard_sent (s : State) (f : Hoard → Hoard) :
    (State.modHoard s f).sent = s.sent := id rfl

@[simp] theorem State.modCmd_sent (s : State) (f : Cmd → Cmd) :
    (State.modCmd s f).sent = s.sent := id rfl

@[simp] theorem State.modLane_sent (s : State) (p : Port) (f : Lane → Lane) :
    (State.modLane s p f).sent = s.sent := id rfl

@[simp] theorem State.modFab_sent (s : State) (f : Fab → Fab) :
    (State.modFab s f).sent = s.sent := id rfl

@[simp] theorem State.modPort_sent (s : State) (p : Port) (f : FabPort → FabPort) :
    (State.modPort s p f).sent = s.sent := id rfl

@[simp] theorem State.modClass_sent (s : State) (p : Port) (c : Fin 6) (f : PortClass → PortClass) :
    (State.modClass s p c f).sent = s.sent := id rfl

@[simp] theorem State.modUplink_sent (s : State) (u : Fin 8) (f : Uplink → Uplink) :
    (State.modUplink s u f).sent = s.sent := id rfl

@[simp] theorem sendLinkCtl_sent (p : Port) (b : BitVec 56) (s : State) :
    (sendLinkCtl p b s).sent = s.sent := by
  simp [sendLinkCtl]

@[simp] theorem returnCredits_sent (p : Port) (c : Fin 6) (f : Frame) (s : State) :
    (returnCredits p c f s).sent = s.sent := by
  simp [returnCredits]

@[simp] theorem spillFrame_sent (p : Port) (c : Fin 6) (input : Option Port) (f : Frame) (s : State) :
    (spillFrame p c input f s).sent = s.sent := by
  unfold spillFrame; (repeat' split) <;> simp

@[simp] theorem startWake_sent (p : Port) (s : State) :
    (startWake p s).sent = s.sent := by
  simp [startWake]

@[simp] theorem enqueueOut_sent (p : Port) (c : Fin 6) (input : Option Port) (f : Frame) (s : State) :
    (enqueueOut p c input f s).sent = s.sent := by
  unfold enqueueOut; (repeat' split) <;> simp

@[simp] theorem loseFrame_sent (d : BitVec 10) (s : State) : (loseFrame d s).sent = s.sent := by
  unfold loseFrame; split <;> simp

@[simp] theorem sendFrame_sent (f : Frame) (s : State) :
    (sendFrame f s).sent = s.sent := by
  unfold sendFrame; dsimp only; (repeat' split) <;> simp

@[simp] theorem sendOn_sent (p : Port) (f : Frame) (s : State) :
    (sendOn p f s).sent = s.sent := by
  simp [sendOn]

@[simp] theorem sendReply_sent (p : Packet) (bytes : List Byte) (s : State) :
    (sendReply p bytes s).sent = s.sent := by
  unfold sendReply; (repeat' split) <;> simp

@[simp] theorem State.modSession_sent (s : State) (i : Fin 8) (f : Session → Session) :
    (State.modSession s i f).sent = s.sent := by
  simp [State.modSession]

@[simp] theorem closeSession_sent (i : Fin 8) (s : State) :
    (closeSession i s).sent = s.sent := by
  simp [closeSession]

@[simp] theorem putCache_sent (p : Packet) (c : Cache) (s : State) :
    (putCache p c s).sent = s.sent := by
  unfold putCache; (repeat' split) <;> simp

@[simp] theorem early_sent (code : Nat) (p : Packet) (status : Nat) (key : Option (List Byte)) (s : State) :
    (early code p status key s).sent = s.sent := by
  simp [early]

@[simp] theorem answerWith_sent (code : Nat) (p : Packet) (key : Option (List Byte)) (status : Nat) (words : List Word) (s : State) :
    (answerWith code p key status words s).sent = s.sent := by
  simp [answerWith]

@[simp] theorem answerLater_sent (code : Nat) (r : ReplyTo) (status : Nat) (words : List Word) (s : State) :
    (answerLater code r status words s).sent = s.sent := by
  simp [answerLater]

@[simp] theorem dropPacket_sent (s : State) :
    (dropPacket s).sent = s.sent := by
  simp [dropPacket]

@[simp] theorem raise_factory (s : State) (c : Nat) (b : List Word) : (raise s c b).factory = s.factory :=
  (congrArg State.factory (raise_quiet s c b) :)

@[simp] theorem raise_sup (s : State) (c : Nat) (b : List Word) : (raise s c b).sup = s.sup :=
  (congrArg State.sup (raise_quiet s c b) :)

@[simp] theorem raise_boot (s : State) (c : Nat) (b : List Word) : (raise s c b).boot = s.boot :=
  (congrArg State.boot (raise_quiet s c b) :)

@[simp] theorem raise_time (s : State) (c : Nat) (b : List Word) : (raise s c b).time = s.time :=
  (congrArg State.time (raise_quiet s c b) :)

@[simp] theorem raise_chans (s : State) (c : Nat) (b : List Word) : (raise s c b).chans = s.chans :=
  (congrArg State.chans (raise_quiet s c b) :)

@[simp] theorem raise_setts (s : State) (c : Nat) (b : List Word) : (raise s c b).setts = s.setts :=
  (congrArg State.setts (raise_quiet s c b) :)

@[simp] theorem raise_chains (s : State) (c : Nat) (b : List Word) : (raise s c b).chains = s.chains :=
  (congrArg State.chains (raise_quiet s c b) :)

@[simp] theorem raise_coders (s : State) (c : Nat) (b : List Word) : (raise s c b).coders = s.coders :=
  (congrArg State.coders (raise_quiet s c b) :)

@[simp] theorem raise_dens (s : State) (c : Nat) (b : List Word) : (raise s c b).dens = s.dens :=
  (congrArg State.dens (raise_quiet s c b) :)

@[simp] theorem raise_plan (s : State) (c : Nat) (b : List Word) : (raise s c b).plan = s.plan :=
  (congrArg State.plan (raise_quiet s c b) :)

@[simp] theorem raise_tdc (s : State) (c : Nat) (b : List Word) : (raise s c b).tdc = s.tdc :=
  (congrArg State.tdc (raise_quiet s c b) :)

@[simp] theorem raise_quad (s : State) (c : Nat) (b : List Word) : (raise s c b).quad = s.quad :=
  (congrArg State.quad (raise_quiet s c b) :)

@[simp] theorem raise_red (s : State) (c : Nat) (b : List Word) : (raise s c b).red = s.red :=
  (congrArg State.red (raise_quiet s c b) :)

@[simp] theorem raise_lanes (s : State) (c : Nat) (b : List Word) : (raise s c b).lanes = s.lanes :=
  (congrArg State.lanes (raise_quiet s c b) :)

@[simp] theorem raise_fab (s : State) (c : Nat) (b : List Word) : (raise s c b).fab = s.fab :=
  (congrArg State.fab (raise_quiet s c b) :)

@[simp] theorem raise_owl (s : State) (c : Nat) (b : List Word) : (raise s c b).owl = s.owl :=
  (congrArg State.owl (raise_quiet s c b) :)

@[simp] theorem raise_prot (s : State) (c : Nat) (b : List Word) : (raise s c b).prot = s.prot :=
  (congrArg State.prot (raise_quiet s c b) :)

@[simp] theorem raise_pair (s : State) (c : Nat) (b : List Word) : (raise s c b).pair = s.pair :=
  (congrArg State.pair (raise_quiet s c b) :)

@[simp] theorem raise_health (s : State) (c : Nat) (b : List Word) : (raise s c b).health = s.health :=
  (congrArg State.health (raise_quiet s c b) :)

@[simp] theorem raise_free (s : State) (c : Nat) (b : List Word) : (raise s c b).free = s.free :=
  (congrArg State.free (raise_quiet s c b) :)

@[simp] theorem raise_pending (s : State) (c : Nat) (b : List Word) : (raise s c b).pending = s.pending :=
  (congrArg State.pending (raise_quiet s c b) :)

@[simp] theorem deliver_factory (e : Entry) (s : State) : (deliver e s).factory = s.factory :=
  (congrArg State.factory (deliver_quiet e s) :)

@[simp] theorem deliver_sup (e : Entry) (s : State) : (deliver e s).sup = s.sup :=
  (congrArg State.sup (deliver_quiet e s) :)

@[simp] theorem deliver_boot (e : Entry) (s : State) : (deliver e s).boot = s.boot :=
  (congrArg State.boot (deliver_quiet e s) :)

@[simp] theorem deliver_time (e : Entry) (s : State) : (deliver e s).time = s.time :=
  (congrArg State.time (deliver_quiet e s) :)

@[simp] theorem deliver_chans (e : Entry) (s : State) : (deliver e s).chans = s.chans :=
  (congrArg State.chans (deliver_quiet e s) :)

@[simp] theorem deliver_setts (e : Entry) (s : State) : (deliver e s).setts = s.setts :=
  (congrArg State.setts (deliver_quiet e s) :)

@[simp] theorem deliver_chains (e : Entry) (s : State) : (deliver e s).chains = s.chains :=
  (congrArg State.chains (deliver_quiet e s) :)

@[simp] theorem deliver_coders (e : Entry) (s : State) : (deliver e s).coders = s.coders :=
  (congrArg State.coders (deliver_quiet e s) :)

@[simp] theorem deliver_dens (e : Entry) (s : State) : (deliver e s).dens = s.dens :=
  (congrArg State.dens (deliver_quiet e s) :)

@[simp] theorem deliver_plan (e : Entry) (s : State) : (deliver e s).plan = s.plan :=
  (congrArg State.plan (deliver_quiet e s) :)

@[simp] theorem deliver_tdc (e : Entry) (s : State) : (deliver e s).tdc = s.tdc :=
  (congrArg State.tdc (deliver_quiet e s) :)

@[simp] theorem deliver_quad (e : Entry) (s : State) : (deliver e s).quad = s.quad :=
  (congrArg State.quad (deliver_quiet e s) :)

@[simp] theorem deliver_red (e : Entry) (s : State) : (deliver e s).red = s.red :=
  (congrArg State.red (deliver_quiet e s) :)

@[simp] theorem deliver_lanes (e : Entry) (s : State) : (deliver e s).lanes = s.lanes :=
  (congrArg State.lanes (deliver_quiet e s) :)

@[simp] theorem deliver_fab (e : Entry) (s : State) : (deliver e s).fab = s.fab :=
  (congrArg State.fab (deliver_quiet e s) :)

@[simp] theorem deliver_owl (e : Entry) (s : State) : (deliver e s).owl = s.owl :=
  (congrArg State.owl (deliver_quiet e s) :)

@[simp] theorem deliver_prot (e : Entry) (s : State) : (deliver e s).prot = s.prot :=
  (congrArg State.prot (deliver_quiet e s) :)

@[simp] theorem deliver_pair (e : Entry) (s : State) : (deliver e s).pair = s.pair :=
  (congrArg State.pair (deliver_quiet e s) :)

@[simp] theorem deliver_health (e : Entry) (s : State) : (deliver e s).health = s.health :=
  (congrArg State.health (deliver_quiet e s) :)

@[simp] theorem deliver_free (e : Entry) (s : State) : (deliver e s).free = s.free :=
  (congrArg State.free (deliver_quiet e s) :)

@[simp] theorem deliver_pending (e : Entry) (s : State) : (deliver e s).pending = s.pending :=
  (congrArg State.pending (deliver_quiet e s) :)

@[simp] theorem elapse_factory (n : Nat) (s : State) : (elapse n s).factory = s.factory :=
  (congrArg State.factory (elapse_still n s) :)

@[simp] theorem elapse_sup (n : Nat) (s : State) : (elapse n s).sup = s.sup :=
  (congrArg State.sup (elapse_still n s) :)

@[simp] theorem elapse_boot (n : Nat) (s : State) : (elapse n s).boot = s.boot :=
  (congrArg State.boot (elapse_still n s) :)

@[simp] theorem elapse_chans (n : Nat) (s : State) : (elapse n s).chans = s.chans :=
  (congrArg State.chans (elapse_still n s) :)

@[simp] theorem elapse_setts (n : Nat) (s : State) : (elapse n s).setts = s.setts :=
  (congrArg State.setts (elapse_still n s) :)

@[simp] theorem elapse_chains (n : Nat) (s : State) : (elapse n s).chains = s.chains :=
  (congrArg State.chains (elapse_still n s) :)

@[simp] theorem elapse_dens (n : Nat) (s : State) : (elapse n s).dens = s.dens :=
  (congrArg State.dens (elapse_still n s) :)

@[simp] theorem elapse_plan (n : Nat) (s : State) : (elapse n s).plan = s.plan :=
  (congrArg State.plan (elapse_still n s) :)

@[simp] theorem elapse_quad (n : Nat) (s : State) : (elapse n s).quad = s.quad :=
  (congrArg State.quad (elapse_still n s) :)

@[simp] theorem elapse_red (n : Nat) (s : State) : (elapse n s).red = s.red :=
  (congrArg State.red (elapse_still n s) :)

@[simp] theorem elapse_lanes (n : Nat) (s : State) : (elapse n s).lanes = s.lanes :=
  (congrArg State.lanes (elapse_still n s) :)

@[simp] theorem elapse_fab (n : Nat) (s : State) : (elapse n s).fab = s.fab :=
  (congrArg State.fab (elapse_still n s) :)

@[simp] theorem elapse_owl (n : Nat) (s : State) : (elapse n s).owl = s.owl :=
  (congrArg State.owl (elapse_still n s) :)

@[simp] theorem elapse_prot (n : Nat) (s : State) : (elapse n s).prot = s.prot :=
  (congrArg State.prot (elapse_still n s) :)

@[simp] theorem elapse_pair (n : Nat) (s : State) : (elapse n s).pair = s.pair :=
  (congrArg State.pair (elapse_still n s) :)

@[simp] theorem elapse_health (n : Nat) (s : State) : (elapse n s).health = s.health :=
  (congrArg State.health (elapse_still n s) :)

@[simp] theorem elapse_free (n : Nat) (s : State) : (elapse n s).free = s.free :=
  (congrArg State.free (elapse_still n s) :)

@[simp] theorem elapse_pending (n : Nat) (s : State) : (elapse n s).pending = s.pending :=
  (congrArg State.pending (elapse_still n s) :)

@[simp] theorem atLc_factory (n : Nat) (s : State) : (atLc n s).factory = s.factory :=
  (congrArg State.factory (atLc_still n s) :)

@[simp] theorem atLc_sup (n : Nat) (s : State) : (atLc n s).sup = s.sup :=
  (congrArg State.sup (atLc_still n s) :)

@[simp] theorem atLc_boot (n : Nat) (s : State) : (atLc n s).boot = s.boot :=
  (congrArg State.boot (atLc_still n s) :)

@[simp] theorem atLc_chans (n : Nat) (s : State) : (atLc n s).chans = s.chans :=
  (congrArg State.chans (atLc_still n s) :)

@[simp] theorem atLc_setts (n : Nat) (s : State) : (atLc n s).setts = s.setts :=
  (congrArg State.setts (atLc_still n s) :)

@[simp] theorem atLc_chains (n : Nat) (s : State) : (atLc n s).chains = s.chains :=
  (congrArg State.chains (atLc_still n s) :)

@[simp] theorem atLc_dens (n : Nat) (s : State) : (atLc n s).dens = s.dens :=
  (congrArg State.dens (atLc_still n s) :)

@[simp] theorem atLc_plan (n : Nat) (s : State) : (atLc n s).plan = s.plan :=
  (congrArg State.plan (atLc_still n s) :)

@[simp] theorem atLc_quad (n : Nat) (s : State) : (atLc n s).quad = s.quad :=
  (congrArg State.quad (atLc_still n s) :)

@[simp] theorem atLc_red (n : Nat) (s : State) : (atLc n s).red = s.red :=
  (congrArg State.red (atLc_still n s) :)

@[simp] theorem atLc_lanes (n : Nat) (s : State) : (atLc n s).lanes = s.lanes :=
  (congrArg State.lanes (atLc_still n s) :)

@[simp] theorem atLc_fab (n : Nat) (s : State) : (atLc n s).fab = s.fab :=
  (congrArg State.fab (atLc_still n s) :)

@[simp] theorem atLc_owl (n : Nat) (s : State) : (atLc n s).owl = s.owl :=
  (congrArg State.owl (atLc_still n s) :)

@[simp] theorem atLc_prot (n : Nat) (s : State) : (atLc n s).prot = s.prot :=
  (congrArg State.prot (atLc_still n s) :)

@[simp] theorem atLc_pair (n : Nat) (s : State) : (atLc n s).pair = s.pair :=
  (congrArg State.pair (atLc_still n s) :)

@[simp] theorem atLc_health (n : Nat) (s : State) : (atLc n s).health = s.health :=
  (congrArg State.health (atLc_still n s) :)

@[simp] theorem atLc_free (n : Nat) (s : State) : (atLc n s).free = s.free :=
  (congrArg State.free (atLc_still n s) :)

@[simp] theorem atLc_pending (n : Nat) (s : State) : (atLc n s).pending = s.pending :=
  (congrArg State.pending (atLc_still n s) :)

@[simp] theorem atAon_factory (n : Nat) (s : State) : (atAon n s).factory = s.factory :=
  (congrArg State.factory (atAon_still n s) :)

@[simp] theorem atAon_sup (n : Nat) (s : State) : (atAon n s).sup = s.sup :=
  (congrArg State.sup (atAon_still n s) :)

@[simp] theorem atAon_boot (n : Nat) (s : State) : (atAon n s).boot = s.boot :=
  (congrArg State.boot (atAon_still n s) :)

@[simp] theorem atAon_chans (n : Nat) (s : State) : (atAon n s).chans = s.chans :=
  (congrArg State.chans (atAon_still n s) :)

@[simp] theorem atAon_setts (n : Nat) (s : State) : (atAon n s).setts = s.setts :=
  (congrArg State.setts (atAon_still n s) :)

@[simp] theorem atAon_chains (n : Nat) (s : State) : (atAon n s).chains = s.chains :=
  (congrArg State.chains (atAon_still n s) :)

@[simp] theorem atAon_dens (n : Nat) (s : State) : (atAon n s).dens = s.dens :=
  (congrArg State.dens (atAon_still n s) :)

@[simp] theorem atAon_plan (n : Nat) (s : State) : (atAon n s).plan = s.plan :=
  (congrArg State.plan (atAon_still n s) :)

@[simp] theorem atAon_quad (n : Nat) (s : State) : (atAon n s).quad = s.quad :=
  (congrArg State.quad (atAon_still n s) :)

@[simp] theorem atAon_red (n : Nat) (s : State) : (atAon n s).red = s.red :=
  (congrArg State.red (atAon_still n s) :)

@[simp] theorem atAon_lanes (n : Nat) (s : State) : (atAon n s).lanes = s.lanes :=
  (congrArg State.lanes (atAon_still n s) :)

@[simp] theorem atAon_fab (n : Nat) (s : State) : (atAon n s).fab = s.fab :=
  (congrArg State.fab (atAon_still n s) :)

@[simp] theorem atAon_owl (n : Nat) (s : State) : (atAon n s).owl = s.owl :=
  (congrArg State.owl (atAon_still n s) :)

@[simp] theorem atAon_prot (n : Nat) (s : State) : (atAon n s).prot = s.prot :=
  (congrArg State.prot (atAon_still n s) :)

@[simp] theorem atAon_pair (n : Nat) (s : State) : (atAon n s).pair = s.pair :=
  (congrArg State.pair (atAon_still n s) :)

@[simp] theorem atAon_health (n : Nat) (s : State) : (atAon n s).health = s.health :=
  (congrArg State.health (atAon_still n s) :)

@[simp] theorem atAon_free (n : Nat) (s : State) : (atAon n s).free = s.free :=
  (congrArg State.free (atAon_still n s) :)

@[simp] theorem atAon_pending (n : Nat) (s : State) : (atAon n s).pending = s.pending :=
  (congrArg State.pending (atAon_still n s) :)

@[simp] theorem atTk_factory (n : Nat) (s : State) : (atTk n s).factory = s.factory :=
  (congrArg State.factory (atTk_still n s) :)

@[simp] theorem atTk_sup (n : Nat) (s : State) : (atTk n s).sup = s.sup :=
  (congrArg State.sup (atTk_still n s) :)

@[simp] theorem atTk_boot (n : Nat) (s : State) : (atTk n s).boot = s.boot :=
  (congrArg State.boot (atTk_still n s) :)

@[simp] theorem atTk_chans (n : Nat) (s : State) : (atTk n s).chans = s.chans :=
  (congrArg State.chans (atTk_still n s) :)

@[simp] theorem atTk_setts (n : Nat) (s : State) : (atTk n s).setts = s.setts :=
  (congrArg State.setts (atTk_still n s) :)

@[simp] theorem atTk_chains (n : Nat) (s : State) : (atTk n s).chains = s.chains :=
  (congrArg State.chains (atTk_still n s) :)

@[simp] theorem atTk_dens (n : Nat) (s : State) : (atTk n s).dens = s.dens :=
  (congrArg State.dens (atTk_still n s) :)

@[simp] theorem atTk_plan (n : Nat) (s : State) : (atTk n s).plan = s.plan :=
  (congrArg State.plan (atTk_still n s) :)

@[simp] theorem atTk_quad (n : Nat) (s : State) : (atTk n s).quad = s.quad :=
  (congrArg State.quad (atTk_still n s) :)

@[simp] theorem atTk_red (n : Nat) (s : State) : (atTk n s).red = s.red :=
  (congrArg State.red (atTk_still n s) :)

@[simp] theorem atTk_lanes (n : Nat) (s : State) : (atTk n s).lanes = s.lanes :=
  (congrArg State.lanes (atTk_still n s) :)

@[simp] theorem atTk_fab (n : Nat) (s : State) : (atTk n s).fab = s.fab :=
  (congrArg State.fab (atTk_still n s) :)

@[simp] theorem atTk_owl (n : Nat) (s : State) : (atTk n s).owl = s.owl :=
  (congrArg State.owl (atTk_still n s) :)

@[simp] theorem atTk_prot (n : Nat) (s : State) : (atTk n s).prot = s.prot :=
  (congrArg State.prot (atTk_still n s) :)

@[simp] theorem atTk_pair (n : Nat) (s : State) : (atTk n s).pair = s.pair :=
  (congrArg State.pair (atTk_still n s) :)

@[simp] theorem atTk_health (n : Nat) (s : State) : (atTk n s).health = s.health :=
  (congrArg State.health (atTk_still n s) :)

@[simp] theorem atTk_free (n : Nat) (s : State) : (atTk n s).free = s.free :=
  (congrArg State.free (atTk_still n s) :)

@[simp] theorem atTk_pending (n : Nat) (s : State) : (atTk n s).pending = s.pending :=
  (congrArg State.pending (atTk_still n s) :)

@[simp] theorem sendFrame_factory (f : Frame) (s : State) : (sendFrame f s).factory = s.factory :=
  (congrArg State.factory (sendFrame_sent f s) :)

@[simp] theorem sendFrame_sup (f : Frame) (s : State) : (sendFrame f s).sup = s.sup :=
  (congrArg State.sup (sendFrame_sent f s) :)

@[simp] theorem sendFrame_boot (f : Frame) (s : State) : (sendFrame f s).boot = s.boot :=
  (congrArg State.boot (sendFrame_sent f s) :)

@[simp] theorem sendFrame_time (f : Frame) (s : State) : (sendFrame f s).time = s.time :=
  (congrArg State.time (sendFrame_sent f s) :)

@[simp] theorem sendFrame_chans (f : Frame) (s : State) : (sendFrame f s).chans = s.chans :=
  (congrArg State.chans (sendFrame_sent f s) :)

@[simp] theorem sendFrame_setts (f : Frame) (s : State) : (sendFrame f s).setts = s.setts :=
  (congrArg State.setts (sendFrame_sent f s) :)

@[simp] theorem sendFrame_chains (f : Frame) (s : State) : (sendFrame f s).chains = s.chains :=
  (congrArg State.chains (sendFrame_sent f s) :)

@[simp] theorem sendFrame_coders (f : Frame) (s : State) : (sendFrame f s).coders = s.coders :=
  (congrArg State.coders (sendFrame_sent f s) :)

@[simp] theorem sendFrame_dens (f : Frame) (s : State) : (sendFrame f s).dens = s.dens :=
  (congrArg State.dens (sendFrame_sent f s) :)

@[simp] theorem sendFrame_plan (f : Frame) (s : State) : (sendFrame f s).plan = s.plan :=
  (congrArg State.plan (sendFrame_sent f s) :)

@[simp] theorem sendFrame_tdc (f : Frame) (s : State) : (sendFrame f s).tdc = s.tdc :=
  (congrArg State.tdc (sendFrame_sent f s) :)

@[simp] theorem sendFrame_quad (f : Frame) (s : State) : (sendFrame f s).quad = s.quad :=
  (congrArg State.quad (sendFrame_sent f s) :)

@[simp] theorem sendFrame_red (f : Frame) (s : State) : (sendFrame f s).red = s.red :=
  (congrArg State.red (sendFrame_sent f s) :)

@[simp] theorem sendFrame_owl (f : Frame) (s : State) : (sendFrame f s).owl = s.owl :=
  (congrArg State.owl (sendFrame_sent f s) :)

@[simp] theorem sendFrame_prot (f : Frame) (s : State) : (sendFrame f s).prot = s.prot :=
  (congrArg State.prot (sendFrame_sent f s) :)

@[simp] theorem sendFrame_pair (f : Frame) (s : State) : (sendFrame f s).pair = s.pair :=
  (congrArg State.pair (sendFrame_sent f s) :)

@[simp] theorem sendFrame_health (f : Frame) (s : State) : (sendFrame f s).health = s.health :=
  (congrArg State.health (sendFrame_sent f s) :)

@[simp] theorem sendFrame_free (f : Frame) (s : State) : (sendFrame f s).free = s.free :=
  (congrArg State.free (sendFrame_sent f s) :)

@[simp] theorem sendFrame_pending (f : Frame) (s : State) : (sendFrame f s).pending = s.pending :=
  (congrArg State.pending (sendFrame_sent f s) :)

@[simp] theorem answerWith_factory (k : Nat) (p : Packet) (m : Option (List Byte)) (st : Nat) (ws : List Word) (s : State) : (answerWith k p m st ws s).factory = s.factory :=
  (congrArg State.factory (answerWith_sent k p m st ws s) :)

@[simp] theorem answerWith_sup (k : Nat) (p : Packet) (m : Option (List Byte)) (st : Nat) (ws : List Word) (s : State) : (answerWith k p m st ws s).sup = s.sup :=
  (congrArg State.sup (answerWith_sent k p m st ws s) :)

@[simp] theorem answerWith_boot (k : Nat) (p : Packet) (m : Option (List Byte)) (st : Nat) (ws : List Word) (s : State) : (answerWith k p m st ws s).boot = s.boot :=
  (congrArg State.boot (answerWith_sent k p m st ws s) :)

@[simp] theorem answerWith_time (k : Nat) (p : Packet) (m : Option (List Byte)) (st : Nat) (ws : List Word) (s : State) : (answerWith k p m st ws s).time = s.time :=
  (congrArg State.time (answerWith_sent k p m st ws s) :)

@[simp] theorem answerWith_chans (k : Nat) (p : Packet) (m : Option (List Byte)) (st : Nat) (ws : List Word) (s : State) : (answerWith k p m st ws s).chans = s.chans :=
  (congrArg State.chans (answerWith_sent k p m st ws s) :)

@[simp] theorem answerWith_setts (k : Nat) (p : Packet) (m : Option (List Byte)) (st : Nat) (ws : List Word) (s : State) : (answerWith k p m st ws s).setts = s.setts :=
  (congrArg State.setts (answerWith_sent k p m st ws s) :)

@[simp] theorem answerWith_chains (k : Nat) (p : Packet) (m : Option (List Byte)) (st : Nat) (ws : List Word) (s : State) : (answerWith k p m st ws s).chains = s.chains :=
  (congrArg State.chains (answerWith_sent k p m st ws s) :)

@[simp] theorem answerWith_coders (k : Nat) (p : Packet) (m : Option (List Byte)) (st : Nat) (ws : List Word) (s : State) : (answerWith k p m st ws s).coders = s.coders :=
  (congrArg State.coders (answerWith_sent k p m st ws s) :)

@[simp] theorem answerWith_dens (k : Nat) (p : Packet) (m : Option (List Byte)) (st : Nat) (ws : List Word) (s : State) : (answerWith k p m st ws s).dens = s.dens :=
  (congrArg State.dens (answerWith_sent k p m st ws s) :)

@[simp] theorem answerWith_plan (k : Nat) (p : Packet) (m : Option (List Byte)) (st : Nat) (ws : List Word) (s : State) : (answerWith k p m st ws s).plan = s.plan :=
  (congrArg State.plan (answerWith_sent k p m st ws s) :)

@[simp] theorem answerWith_tdc (k : Nat) (p : Packet) (m : Option (List Byte)) (st : Nat) (ws : List Word) (s : State) : (answerWith k p m st ws s).tdc = s.tdc :=
  (congrArg State.tdc (answerWith_sent k p m st ws s) :)

@[simp] theorem answerWith_quad (k : Nat) (p : Packet) (m : Option (List Byte)) (st : Nat) (ws : List Word) (s : State) : (answerWith k p m st ws s).quad = s.quad :=
  (congrArg State.quad (answerWith_sent k p m st ws s) :)

@[simp] theorem answerWith_red (k : Nat) (p : Packet) (m : Option (List Byte)) (st : Nat) (ws : List Word) (s : State) : (answerWith k p m st ws s).red = s.red :=
  (congrArg State.red (answerWith_sent k p m st ws s) :)

@[simp] theorem answerWith_owl (k : Nat) (p : Packet) (m : Option (List Byte)) (st : Nat) (ws : List Word) (s : State) : (answerWith k p m st ws s).owl = s.owl :=
  (congrArg State.owl (answerWith_sent k p m st ws s) :)

@[simp] theorem answerWith_prot (k : Nat) (p : Packet) (m : Option (List Byte)) (st : Nat) (ws : List Word) (s : State) : (answerWith k p m st ws s).prot = s.prot :=
  (congrArg State.prot (answerWith_sent k p m st ws s) :)

@[simp] theorem answerWith_pair (k : Nat) (p : Packet) (m : Option (List Byte)) (st : Nat) (ws : List Word) (s : State) : (answerWith k p m st ws s).pair = s.pair :=
  (congrArg State.pair (answerWith_sent k p m st ws s) :)

@[simp] theorem answerWith_health (k : Nat) (p : Packet) (m : Option (List Byte)) (st : Nat) (ws : List Word) (s : State) : (answerWith k p m st ws s).health = s.health :=
  (congrArg State.health (answerWith_sent k p m st ws s) :)

@[simp] theorem answerWith_free (k : Nat) (p : Packet) (m : Option (List Byte)) (st : Nat) (ws : List Word) (s : State) : (answerWith k p m st ws s).free = s.free :=
  (congrArg State.free (answerWith_sent k p m st ws s) :)

@[simp] theorem answerWith_pending (k : Nat) (p : Packet) (m : Option (List Byte)) (st : Nat) (ws : List Word) (s : State) : (answerWith k p m st ws s).pending = s.pending :=
  (congrArg State.pending (answerWith_sent k p m st ws s) :)

end Sys2Proof.Machine
end

