-- ==== Sys2Proof/Laws/Kept.lean ====
section
/-! SUPPORT. What every command must keep, taken out of the state: the factory data, the queue of waiting commands and the sparse memories. -/

namespace Sys2Proof.Machine

structure Kept where
  factory : Factory
  pending : List Instr
  banks : List (List (Nat × Word64))
  owl : List (Nat × Word)
  prot : List (Nat × Word)
  img : List (Nat × Word)

def Plan.lists (p : Plan) : List (List (Nat × Word64)) := p.banks.toList.map Bank.words

def State.kept (s : State) : Kept :=
  { factory := s.factory, pending := s.pending, banks := s.plan.lists, owl := s.owl.staged, prot := s.prot.staged, img := s.fab.stagedWords }

theorem kept_factory (s : State) : s.factory = s.kept.factory := rfl

theorem kept_pending (s : State) : s.pending = s.kept.pending := rfl

theorem kept_banks (s : State) : s.plan.lists = s.kept.banks := rfl

theorem kept_owl (s : State) : s.owl.staged = s.kept.owl := rfl

theorem kept_prot (s : State) : s.prot.staged = s.kept.prot := rfl

theorem kept_img (s : State) : s.fab.stagedWords = s.kept.img := rfl

theorem kept_words (s : State) : (Option.map (·.words) s.fab.staged).getD [] = s.kept.img := rfl

@[simp] theorem plan_lists_mk (b fx a ac sw bu la se fr ft fl ff st wi ec) : (Plan.mk b fx a ac sw bu la se fr ft fl ff st wi ec).lists = b.toList.map Bank.words := rfl

theorem kept_lists (s : State) : s.plan.banks.toList.map Bank.words = s.kept.banks := rfl

@[simp] theorem State.modPlan_kept (s : State) (f : Plan → Plan) : (s.modPlan f).kept = { s.kept with banks := (f s.plan).lists } := id rfl

@[simp] theorem State.modOwl_kept (s : State) (f : Owl → Owl) : (s.modOwl f).kept = { s.kept with owl := (f s.owl).staged } := id rfl

@[simp] theorem State.modProt_kept (s : State) (f : Prot → Prot) : (s.modProt f).kept = { s.kept with prot := (f s.prot).staged } := id rfl

@[simp] theorem State.modFab_kept (s : State) (f : Fab → Fab) : (s.modFab f).kept = { s.kept with img := (f s.fab).stagedWords } := id rfl

@[simp] theorem fab_words_mk (a b c d e f g h i j k l m n o p q r t u v) : (Fab.mk a b c d e f g h i j k l m n o p q r t u v).stagedWords = (Option.map (·.words) q).getD [] := rfl

def Out.settle (o : Out) (s : State) : State := match o with | .next t => t | _ => s

@[simp] theorem settle_next (t s : State) : Out.settle (.next t) s = t := id rfl

@[simp] theorem settle_guard (p : Bool) (s t : State) : Out.settle (guardNext p s t) s = if p then t else s := by simp [guardNext]

def Res.state : Res → State | .done _ _ s => s | .keyed _ _ _ s => s | .deferred s => s

@[simp] theorem res_done (a b s) : Res.state (.done a b s) = s := id rfl

@[simp] theorem res_keyed (a b c s) : Res.state (.keyed a b c s) = s := id rfl

@[simp] theorem res_deferred (s) : Res.state (.deferred s) = s := id rfl

@[simp] theorem res_refuse (a s) : Res.state (refuse a s) = s := id rfl

@[simp] theorem forEach_kept {α : Type} (l : List α) (f : State → α → State) (h : ∀ s a, (f s a).kept = s.kept) (s : State) :
    (forEach l f s).kept = s.kept := by
  unfold forEach
  induction l generalizing s with
  | nil => rfl
  | cons a t ih => simp [List.foldl, ih, h]

@[simp] theorem foldl_kept {α : Type} (l : List α) (f : State → α → State) (h : ∀ s a, (f s a).kept = s.kept) (s : State) :
    (l.foldl f s).kept = s.kept := forEach_kept l f h s

@[simp] theorem foldl_fst_kept {α β : Type} (l : List α) (f : State × β → α → State × β)
    (h : ∀ s a, (f s a).1.kept = s.1.kept) (s : State × β) : (l.foldl f s).1.kept = s.1.kept := by
  induction l generalizing s with
  | nil => rfl
  | cons a t ih => simp [List.foldl, ih, h]

@[simp] theorem ite_kept (c : Prop) [Decidable c] (s t : State) : (if c then s else t).kept = if c then s.kept else t.kept := by split <;> rfl

@[simp] theorem ite_fst_kept {β : Type} (c : Prop) [Decidable c] (s t : State × β) : (if c then s else t).1.kept = if c then s.1.kept else t.1.kept := by split <;> rfl

@[simp] theorem ite_state (c : Prop) [Decidable c] (r q : Res) : (if c then r else q).state = if c then r.state else q.state := by split <;> rfl

@[simp] theorem kept_mk (fa su bo ti ch se ci co de pl td qu re ho la fb cm ow pr pa he fr pe) : (State.mk fa su bo ti ch se ci co de pl td qu re ho la fb cm ow pr pa he fr pe).kept = ⟨fa, pe, pl.lists, ow.staged, pr.staged, fb.stagedWords⟩ := id rfl

/-- After the words of both banks only their states change. -/
@[simp] theorem vmod_words {n : Nat} (v : Vector Bank n) (i : Fin n) (f : Bank → Bank) (h : ∀ b, (f b).words = b.words) :
    (vmod v i f).toList.map Bank.words = v.toList.map Bank.words := by
  unfold vmod
  apply List.ext_getElem <;> simp [Vector.getElem_set]
  intros
  split
  · subst_vars; simp [h]
  · rfl

@[simp] theorem flipBanks_lists (edge lc : Nat) (s : State) : (flipBanks edge lc s.plan).lists = s.kept.banks :=
  vmod_words _ _ _ (fun _ => rfl)

@[simp] theorem modShadow_kept (f : Bank → Bank) (s : State) (h : ∀ b, (f b).words = b.words) : (modShadow f s).kept = s.kept := by
  unfold modShadow; simp [h, kept_lists]

end Sys2Proof.Machine
end

