-- ==== Sys2Proof/Laws/KeptOps.lean ====
section
/-! SUPPORT. The factory data, the queue and the sparse memories under the operations of the shared operations, the register window and the packet commands. -/

namespace Sys2Proof.Machine

@[simp] theorem State.modSup_kept (s : State) (f : Sup → Sup) :
    (State.modSup s f).kept = s.kept := id rfl

@[simp] theorem State.modBoot_kept (s : State) (f : Startup → Startup) :
    (State.modBoot s f).kept = s.kept := id rfl

@[simp] theorem State.modTime_kept (s : State) (f : Time → Time) :
    (State.modTime s f).kept = s.kept := id rfl

@[simp] theorem State.modChan_kept (s : State) (c : Chan) (f : Channel → Channel) :
    (State.modChan s c f).kept = s.kept := id rfl

@[simp] theorem State.modSett_kept (s : State) (k : SettId) (f : Sett → Sett) :
    (State.modSett s k f).kept = s.kept := id rfl

@[simp] theorem State.modChain_kept (s : State) (k : SettId) (f : Chain → Chain) :
    (State.modChain s k f).kept = s.kept := id rfl

@[simp] theorem State.modCoder_kept (s : State) (k : SettId) (f : Coder → Coder) :
    (State.modCoder s k f).kept = s.kept := id rfl

@[simp] theorem State.modDen_kept (s : State) (d : DenId) (f : Den → Den) :
    (State.modDen s d f).kept = s.kept := id rfl

@[simp] theorem State.modTdc_kept (s : State) (f : Tdc → Tdc) :
    (State.modTdc s f).kept = s.kept := id rfl

@[simp] theorem State.modSlot_kept (s : State) (q : Fin 24) (f : Slot → Slot) :
    (State.modSlot s q f).kept = s.kept := id rfl

@[simp] theorem State.modRed_kept (s : State) (f : Red → Red) :
    (State.modRed s f).kept = s.kept := id rfl

@[simp] theorem State.modPrj_kept (s : State) (p : Fin 64) (f : Prj → Prj) :
    (State.modPrj s p f).kept = s.kept := id rfl

@[simp] theorem State.modHoard_kept (s : State) (f : Hoard → Hoard) :
    (State.modHoard s f).kept = s.kept := id rfl

@[simp] theorem State.modStream_kept (s : State) (t : Fin 54) (f : Stream → Stream) :
    (State.modStream s t f).kept = s.kept := id rfl

@[simp] theorem State.modQueue_kept (s : State) (q : Fin 76) (f : Queue → Queue) :
    (State.modQueue s q f).kept = s.kept := id rfl

@[simp] theorem State.modLane_kept (s : State) (p : Port) (f : Lane → Lane) :
    (State.modLane s p f).kept = s.kept := id rfl

@[simp] theorem State.modPort_kept (s : State) (p : Port) (f : FabPort → FabPort) :
    (State.modPort s p f).kept = s.kept := id rfl

@[simp] theorem State.modClass_kept (s : State) (p : Port) (c : Fin 6) (f : PortClass → PortClass) :
    (State.modClass s p c f).kept = s.kept := id rfl

@[simp] theorem State.modUplink_kept (s : State) (u : Fin 8) (f : Uplink → Uplink) :
    (State.modUplink s u f).kept = s.kept := id rfl

@[simp] theorem State.modCmd_kept (s : State) (f : Cmd → Cmd) :
    (State.modCmd s f).kept = s.kept := id rfl

@[simp] theorem State.modPair_kept (s : State) (f : Pair → Pair) :
    (State.modPair s f).kept = s.kept := id rfl

@[simp] theorem State.modHealth_kept (s : State) (f : Health → Health) :
    (State.modHealth s f).kept = s.kept := id rfl

@[simp] theorem State.draw_kept (s : State) :
    ((State.draw s).2).kept = s.kept := by
  simp [State.draw, kept_factory, kept_pending, kept_banks, kept_owl, kept_prot, kept_img]

@[simp] theorem State.drawWord_kept (s : State) :
    ((State.drawWord s).2).kept = s.kept := by
  simp [State.drawWord, kept_factory, kept_pending, kept_banks, kept_owl, kept_prot, kept_img]

@[simp] theorem setLevel_kept (q : Fin 76) (level : Nat) (s : State) :
    ((setLevel q level s).1).kept = s.kept := by
  simp [setLevel]

@[simp] theorem overrunSubs_kept (stream : Nat) (old : List (BitVec 48 × Nat × Nat)) (oldest : BitVec 48) (s : State) :
    ((overrunSubs stream old oldest s).1).kept = s.kept := by
  unfold overrunSubs; rw [foldl_fst_kept _ _ (fun s a => by split <;> simp)]

@[simp] theorem passRecord_kept (stream : Nat) (gone : List (BitVec 48 × Nat × Nat)) (s : State) :
    (passRecord stream gone s).kept = s.kept := by
  simp [passRecord]

@[simp] theorem judgeMarks_kept (stream : Nat) (old ring : List Record) (s : State) :
    ((judgeMarks stream old ring s).1).kept = s.kept := by
  unfold judgeMarks; rw [foldl_fst_kept _ _ (fun s a => by split <;> simp)]

@[simp] theorem ringPut_kept (t : Fin 54) (r : Record) (s : State) :
    ((ringPut t r s).1).kept = s.kept := by
  simp [ringPut]

@[simp] theorem readQueue_kept (q : Fin 76) (n : Nat) (s : State) : ((readQueue q n s).1).kept = s.kept := by
  simp [readQueue]

@[simp] theorem passQueue_kept (q : Fin 76) (bytes : Nat) (s : State) : ((passQueue q bytes s).1).kept = s.kept := by
  simp [passQueue]

@[simp] theorem putRecord_kept (t : Fin 54) (o : OpenRec) (s : State) : ((putRecord t o s).1).kept = s.kept := by
  simp [putRecord]

@[simp] theorem closeRecord_kept (t : Fin 54) (s : State) :
    ((closeRecord t s).1).kept = s.kept := by
  unfold closeRecord
  split
  · rfl
  · simp only [setLevel_kept]
    split <;> simp

@[simp] theorem noteShed_kept (e : Entry) (s : State) :
    (noteShed e s).kept = s.kept := by
  simp [noteShed]

@[simp] theorem addEntry_kept (e : Entry) (s : State) :
    ((addEntry e s).1).kept = s.kept := by
  simp [addEntry]

@[simp] theorem refuseEntry_kept (e : Entry) (s : State) : ((refuseEntry e s).1).kept = s.kept := by
  simp [refuseEntry]

@[simp] theorem appendEntry_kept (e : Entry) (s : State) :
    ((appendEntry e s).1).kept = s.kept := by
  simp [appendEntry]

@[simp] theorem windowNotice_kept (n : Notice) (s : State) :
    (windowNotice n s).kept = s.kept := by
  simp [windowNotice]

@[simp] theorem pushOne_kept (i : Item) (s : State) :
    ((pushOne i s).1).kept = s.kept := by
  unfold pushOne; (repeat' split) <;> simp

@[simp] theorem pushAll_kept (x0 : Nat) (x1 : List Item) (s : State) :
    (pushAll x0 x1 s).kept = s.kept := by
  induction x0 generalizing x1 s with
  | zero => simp [pushAll]
  | succ k ih => cases x1 <;> simp [pushAll, ih]

@[simp] theorem raise_kept (s : State) (code : Nat) (body : List Word) :
    (raise s code body).kept = s.kept := by
  simp [raise]

@[simp] theorem settleSpill_kept (s : State) : (settleSpill s).kept = s.kept := by
  unfold settleSpill; split <;> simp

@[simp] theorem useSpillRate_kept (bytes : Nat) (s : State) : (useSpillRate bytes s).kept = s.kept := by
  simp [useSpillRate]

@[simp] theorem deliver_kept (e : Entry) (s : State) :
    (deliver e s).kept = s.kept := by
  simp [deliver]

@[simp] theorem depthAlert_kept (k : SettId) (deep : Nat) (s : State) :
    ((depthAlert k deep s).1).kept = s.kept := by
  simp [depthAlert]

@[simp] theorem writeSet_kept (k : SettId) (n : Nat) (s : State) :
    ((writeSet k n s).1).kept = s.kept := by
  simp [writeSet]

@[simp] theorem writeSets_kept (x0 : Nat) (x1 : SettId) (s : State) :
    ((writeSets x0 x1 s).1).kept = s.kept := by
  induction x0 generalizing s with
  | zero => simp [writeSets]
  | succ k ih => unfold writeSets; (repeat' split) <;> simp [ih]

@[simp] theorem endRefusal_kept (k : SettId) (s : State) :
    ((endRefusal k s).1).kept = s.kept := by
  simp [endRefusal]

@[simp] theorem writeRest_kept (k : SettId) (s : State) : ((writeRest k s).1).kept = s.kept := by
  unfold writeRest; simp only []; split <;> simp

@[simp] theorem flushCoder_kept (k : SettId) (s : State) :
    ((flushCoder k s).1).kept = s.kept := by
  simp [flushCoder]

@[simp] theorem endRecord_kept (t : Fin 54) (s : State) :
    (endRecord t s).kept = s.kept := by
  unfold endRecord; (repeat' split) <;> simp

@[simp] theorem stageGroup_kept (k : SettId) (g : TickGroup) (s : State) :
    (stageGroup k g s).kept = s.kept := by
  unfold stageGroup; simp only []; (repeat' split) <;> simp

@[simp] theorem endRecords_kept (s : State) :
    (endRecords s).kept = s.kept := by
  simp [endRecords]

@[simp] theorem raiseGap_kept (s : State) (stream : Nat) (cause : Nat) (first last : BitVec 48) (flc llc : Nat) :
    (raiseGap s stream cause first last flc llc).kept = s.kept := by
  simp [raiseGap]

@[simp] theorem raiseIsolated_kept (s : State) (level index : Nat) :
    (raiseIsolated s level index).kept = s.kept := by
  simp [raiseIsolated]

@[simp] theorem raiseTransient_kept (s : State) (unit kind count : Nat) :
    (raiseTransient s unit kind count).kept = s.kept := by
  simp [raiseTransient]

@[simp] theorem raiseSuspended_kept (s : State) (sub stream : Nat) (q : BitVec 48) :
    (raiseSuspended s sub stream q).kept = s.kept := by
  simp [raiseSuspended]

@[simp] theorem State.modEdge_kept (s : State) (i : Fin 16) (f : EdgeIn → EdgeIn) :
    (State.modEdge s i f).kept = s.kept := by
  simp [State.modEdge]

@[simp] theorem setEdgeQueue_kept (i : Fin 16) (q : List (List Word)) (s : State) :
    (setEdgeQueue i q s).kept = s.kept := by
  simp [setEdgeQueue]

@[simp] theorem pushEdge_kept (i : Fin 16) (w : List Word) (s : State) : (pushEdge i w s).kept = s.kept := by
  simp [pushEdge]

@[simp] theorem emitLoss_kept (i : Fin 16) (s : State) :
    (emitLoss i s).kept = s.kept := by
  unfold emitLoss; dsimp only; (repeat' split) <;> simp

@[simp] theorem loseEdge_kept (i : Fin 16) (t : Stamp) (cal : Bool) (s : State) :
    (loseEdge i t cal s).kept = s.kept := by
  unfold loseEdge; split <;> simp

@[simp] theorem queueEdge_kept (i : Fin 16) (t : Stamp) (w : List Word) (s : State) :
    (queueEdge i t w s).kept = s.kept := by
  unfold queueEdge; (repeat' split) <;> simp

@[simp] theorem State.modUnit_kept (s : State) (m : Fin 8) (f : MeasUnit → MeasUnit) : (s.modUnit m f).kept = s.kept := by
  simp [State.modUnit]

@[simp] theorem emitInterval_kept (m : Fin 8) (r : MuResult) (s : State) :
    (emitInterval m r s).kept = s.kept := by
  simp [emitInterval]

@[simp] theorem flushTie_kept (m : Fin 8) (s : State) : (flushTie m s).kept = s.kept := by
  unfold flushTie; split <;> simp

@[simp] theorem flushTies_kept (lc : Nat) (s : State) : (flushTies lc s).kept = s.kept := by
  unfold flushTies; exact forEach_kept _ _ (fun s m => by split <;> simp) _

@[simp] theorem takeEdge_kept (i : Fin 16) (e : Entry) (s : State) : (takeEdge i e s).kept = s.kept := by
  unfold takeEdge; simp only []; split <;> simp

@[simp] theorem drainEdge_kept (i : Fin 16) (s : State) :
    (drainEdge i s).kept = s.kept := by
  unfold drainEdge; (repeat' split) <;> simp

@[simp] theorem drainEdges_kept (x0 : Nat) (s : State) :
    (drainEdges x0 s).kept = s.kept := by
  induction x0 generalizing s with
  | zero => simp [drainEdges]
  | succ k ih => unfold drainEdges; split <;> simp [ih]

@[simp] theorem newEpoch_kept (s : State) :
    (newEpoch s).kept = s.kept := by
  simp [newEpoch]

@[simp] theorem elapse_kept (dt : Nat) (s : State) :
    (elapse dt s).kept = s.kept := by
  simp [elapse]

@[simp] theorem atLc_kept (lc : Nat) (s : State) :
    (atLc lc s).kept = s.kept := by
  simp [atLc]

@[simp] theorem atAon_kept (ns : Nat) (s : State) :
    (atAon ns s).kept = s.kept := by
  simp [atAon]

@[simp] theorem atTk_kept (tk : Nat) (s : State) :
    (atTk tk s).kept = s.kept := by
  simp [atTk]

@[simp] theorem sendLinkCtl_kept (p : Port) (b : BitVec 56) (s : State) :
    (sendLinkCtl p b s).kept = s.kept := by
  simp [sendLinkCtl]

@[simp] theorem returnCredits_kept (p : Port) (c : Fin 6) (f : Frame) (s : State) :
    (returnCredits p c f s).kept = s.kept := by
  simp [returnCredits]

@[simp] theorem spillFrame_kept (p : Port) (c : Fin 6) (input : Option Port) (f : Frame) (s : State) :
    (spillFrame p c input f s).kept = s.kept := by
  unfold spillFrame; (repeat' split) <;> simp

@[simp] theorem startWake_kept (p : Port) (s : State) :
    (startWake p s).kept = s.kept := by
  simp [startWake]

@[simp] theorem enqueueOut_kept (p : Port) (c : Fin 6) (input : Option Port) (f : Frame) (s : State) :
    (enqueueOut p c input f s).kept = s.kept := by
  unfold enqueueOut; (repeat' split) <;> simp

@[simp] theorem loseFrame_kept (d : BitVec 10) (s : State) : (loseFrame d s).kept = s.kept := by
  unfold loseFrame; split <;> simp

@[simp] theorem sendFrame_kept (f : Frame) (s : State) :
    (sendFrame f s).kept = s.kept := by
  unfold sendFrame; dsimp only; (repeat' split) <;> simp

@[simp] theorem sendOn_kept (p : Port) (f : Frame) (s : State) :
    (sendOn p f s).kept = s.kept := by
  simp [sendOn]

@[simp] theorem refuse_kept (status : Nat) (s : State) :
    (Res.state (refuse status s)).kept = s.kept := by
  simp [refuse]

@[simp] theorem sendReply_kept (p : Packet) (bytes : List Byte) (s : State) :
    (sendReply p bytes s).kept = s.kept := by
  unfold sendReply; (repeat' split) <;> simp

@[simp] theorem State.modSlotKey_kept (s : State) (k : Fin 8) (f : KeySlot → KeySlot) :
    (State.modSlotKey s k f).kept = s.kept := id rfl

@[simp] theorem endLockout_kept (k : Fin 8) (s : State) : (endLockout k s).kept = s.kept := by
  simp [endLockout]

@[simp] theorem failAuth_kept (k : Fin 8) (s : State) :
    (failAuth k s).kept = s.kept := by
  simp only [failAuth]; (repeat' split) <;> simp

@[simp] theorem passAuth_kept (k : Fin 8) (s : State) :
    (passAuth k s).kept = s.kept := by
  simp [passAuth]

@[simp] theorem State.modSession_kept (s : State) (i : Fin 8) (f : Session → Session) :
    (State.modSession s i f).kept = s.kept := id rfl

@[simp] theorem closeSession_kept (i : Fin 8) (s : State) :
    (closeSession i s).kept = s.kept := by
  simp [closeSession]

@[simp] theorem closeSlotSessions_kept (k : Fin 8) (s : State) :
    (closeSlotSessions k s).kept = s.kept := by
  unfold closeSlotSessions; exact forEach_kept _ _ (fun s a => by (repeat' split) <;> simp) _

@[simp] theorem putCache_kept (p : Packet) (c : Cache) (s : State) :
    (putCache p c s).kept = s.kept := by
  unfold putCache; (repeat' split) <;> simp

@[simp] theorem early_kept (code : Nat) (p : Packet) (status : Nat) (key : Option (List Byte)) (s : State) :
    (early code p status key s).kept = s.kept := by
  simp [early]

@[simp] theorem answerWith_kept (code : Nat) (p : Packet) (key : Option (List Byte)) (status : Nat) (words : List Word) (s : State) :
    (answerWith code p key status words s).kept = s.kept := by
  simp [answerWith]

@[simp] theorem answerLater_kept (code : Nat) (r : ReplyTo) (status : Nat) (words : List Word) (s : State) :
    (answerLater code r status words s).kept = s.kept := by
  simp [answerLater]

theorem runSpec_holds (P : Kept → Prop) (sp : CmdSpec) (c : Ctx) (p : Packet) (s : State)
    (h : P s.kept → P (sp.body c p.params s).state.kept) (hs : P s.kept) : P (runSpec sp c p s).state.kept := by
  unfold runSpec; (repeat' split) <;> simp_all

theorem execute_holds (P : Kept → Prop) (sp : CmdSpec) (c : Ctx) (p : Packet) (s : State)
    (h : ∀ t : State, P t.kept → P (sp.body c p.params t).state.kept) (hs : P s.kept) : P (execute sp c p s).kept := by
  have k := runSpec_holds P sp c p (putCache p (enterCache (s.cacheOf p) p) s) (h _) (by simpa using hs)
  unfold execute
  simp only []
  split <;> rename_i hr <;> rw [hr] at k <;> simp at k <;> (try split) <;> simp [k, hs]

theorem afterAuth_holds (P : Kept → Prop) (sp : CmdSpec) (c : Ctx) (p : Packet) (s : State)
    (h : ∀ t : State, P t.kept → P (sp.body c p.params t).state.kept) (hs : P s.kept) : P (afterAuth sp c p s).kept := by
  have k := execute_holds P sp c p s h hs
  unfold afterAuth
  (repeat' split) <;> simp [k, hs]

theorem servePacket_holds (P : Kept → Prop) (sp : CmdSpec) (p : Packet) (s : State)
    (h : ∀ (c : Ctx) (t : State), P t.kept → P (sp.body c p.params t).state.kept) (hs : P s.kept) :
    P (servePacket sp p s).kept := by
  have k := fun c t (ht : P t.kept) => afterAuth_holds P sp c p t (h c) ht
  unfold servePacket
  (repeat' split) <;> first
    | simpa using hs
    | exact k _ _ (by simpa using hs)

@[simp] theorem dropPacket_kept (s : State) :
    (dropPacket s).kept = s.kept := by
  simp [dropPacket]

theorem takeUp_kept (code : Nat) (p : Packet) (s t : State) (h : takeUp code p s = some t) : t.kept = s.kept := by
  unfold takeUp at h
  simp only [] at h
  (repeat' split at h) <;> cases h <;> simp

theorem bootSpec_body (sp : CmdSpec) : (bootSpec sp).body = sp.body := by unfold bootSpec; split <;> rfl

theorem serveState_holds (P : Kept → Prop) (sp : CmdSpec) (p : Packet) (s : State)
    (h : ∀ (c : Ctx) (t : State), P t.kept → P (sp.body c p.params t).state.kept) (hs : P s.kept) :
    P (serveState sp p s).kept := by
  unfold serveState
  split
  · exact hs
  split
  · split <;> simpa using hs
  split
  · simpa using hs
  · rename_i t ht
    have k : P t.kept := by rw [takeUp_kept _ _ _ _ ht]; exact hs
    (repeat' split)
    · exact servePacket_holds P _ _ _ h k
    · exact servePacket_holds P _ _ _ (by rwa [bootSpec_body]) k
    · exact hs

theorem serve_kept (sp : CmdSpec) (p : Packet) (s : State)
    (h : ∀ (c : Ctx) (t : State), (sp.body c p.params t).state.kept = t.kept) :
    (Out.settle (serve sp p s) s).kept = s.kept :=
  serveState_holds (· = s.kept) sp p s (fun c t ht => by rw [h, ht]) rfl

@[simp] theorem clearCounts_kept (s : State) (unit index : Nat) :
    (clearCounts s unit index).kept = s.kept := by
  unfold clearCounts; (repeat' split) <;> simp [kept_owl, kept_lists]

@[simp] theorem readWord_kept (w : Word) (s : State) :
    (readWord w s).kept = s.kept := by
  simp [readWord]

@[simp] theorem tear_kept (off : Nat) (s : State) :
    (tear off s).kept = s.kept := by
  simp [tear]

@[simp] theorem takeSnap_kept (which : SplitValue) (s : State) :
    (takeSnap which s).kept = s.kept := by
  simp [takeSnap]

@[simp] theorem dropSnap_kept (which : SplitValue) (s : State) :
    (dropSnap which s).kept = s.kept := by
  simp [dropSnap]

@[simp] theorem nqPop_kept (s : State) :
    (nqPop s).kept = s.kept := by
  simp [nqPop]

@[simp] theorem nqFlush_kept (s : State) :
    (nqFlush s).kept = s.kept := by
  simp [nqFlush]

@[simp] theorem clearLongReset_kept (s : State) :
    (clearLongReset s).kept = s.kept := by
  simp [clearLongReset]

@[simp] theorem clearTear_kept (s : State) :
    (clearTear s).kept = s.kept := by
  simp [clearTear]

@[simp] theorem clearWrIgnored_kept (s : State) :
    (clearWrIgnored s).kept = s.kept := by
  simp [clearWrIgnored]

@[simp] theorem clearBadInstr_kept (s : State) :
    (clearBadInstr s).kept = s.kept := by
  simp [clearBadInstr]

@[simp] theorem clearEvents_kept (mask : Word) (s : State) :
    (clearEvents mask s).kept = s.kept := by
  simp [clearEvents]

@[simp] theorem selectCounter_kept (v : Word) (s : State) :
    (selectCounter v s).kept = s.kept := by
  simp [selectCounter]

@[simp] theorem ignoreWrite_kept (s : State) :
    (ignoreWrite s).kept = s.kept := by
  simp [ignoreWrite]

@[simp] theorem writeEffect_kept (off : Nat) (w : Word) (s : State) :
    (writeEffect off w s).kept = s.kept := by
  unfold writeEffect; (repeat' split) <;> simp

@[simp] theorem writeWord_kept (off : Nat) (w : Word) (s : State) :
    (writeWord off w s).kept = s.kept := by
  unfold writeWord; (repeat' split) <;> simp

@[simp] theorem writeWords_kept (x0 : Nat) (x1 : List Word) (s : State) :
    (writeWords x0 x1 s).kept = s.kept := by
  induction x1 generalizing x0 s with
  | nil => simp [writeWords]
  | cons w t ih => simp [writeWords, ih]

@[simp] theorem portWrite_kept (off : Nat) (w : Word) (s : State) :
    (Out.settle (portWrite off w s) s).kept = s.kept := by
  simp [portWrite]

@[simp] theorem acceptPacket_kept (code : Nat) (p : Packet) (s : State) :
    (acceptPacket code p s).kept = s.kept := by
  have k : ∀ sp : CmdSpec, (∀ c t, (sp.body c p.params t).state.kept = t.kept) → (servePacket sp p s).kept = s.kept :=
    fun sp h => servePacket_holds (· = s.kept) sp p s (fun c t ht => by rw [h, ht]) rfl
  unfold acceptPacket; (repeat' split)
  · simp
  · exact k _ (fun _ _ => rfl)
  · exact k _ (fun _ _ => by rw [bootSpec_body]; rfl)

@[simp] theorem forwardPacket_kept (code : Nat) (p : Packet) (bs : List Byte) (s : State) :
    (forwardPacket code p bs s).kept = s.kept := by
  simp [forwardPacket]

@[simp] theorem portPacket_kept (bs : List Byte) (s : State) :
    (portPacket bs s).kept = s.kept := by
  simp [portPacket]

@[simp] theorem framePacket_kept (o : Origin) (ep : Option (BitVec 4)) (dst : BitVec 10) (bs : List Byte) (s : State) :
    (framePacket o ep dst bs s).kept = s.kept := by
  simp [framePacket]

@[simp] theorem sysInfoBody_kept (y0 : Ctx) (ws : List Word) (s : State) :
    (Res.state (sysInfoBody y0 ws s)).kept = s.kept := by
  simp [sysInfoBody]

@[simp] theorem sysEventsBody_kept (y0 : Ctx) (ws : List Word) (s : State) :
    (Res.state (sysEventsBody y0 ws s)).kept = s.kept := by
  simp [sysEventsBody]

@[simp] theorem openPhase0_kept (c : Ctx) (ws : List Word) (s : State) :
    (Res.state (openPhase0 c ws s)).kept = s.kept := by
  simp [openPhase0, kept_factory, kept_pending, kept_banks, kept_owl, kept_prot, kept_img]

@[simp] theorem openPhase1_kept (c : Ctx) (ws : List Word) (s : State) :
    (Res.state (openPhase1 c ws s)).kept = s.kept := by
  unfold openPhase1; simp only []; (repeat' split) <;> simp

@[simp] theorem sessionOpenBody_kept (c : Ctx) (ws : List Word) (s : State) :
    (Res.state (sessionOpenBody c ws s)).kept = s.kept := by
  simp [sessionOpenBody]

@[simp] theorem sessionCloseBody_kept (y0 : Ctx) (ws : List Word) (s : State) :
    (Res.state (sessionCloseBody y0 ws s)).kept = s.kept := by
  unfold sessionCloseBody; simp only []; (repeat' split) <;> simp

end Sys2Proof.Machine
end

