-- ==== Sys2Proof/Laws/KeptFabric.lean ====
section
/-! SUPPORT. The factory data, the queue and the sparse memories under the operations of the lanes, the timebase and the fabric. -/

namespace Sys2Proof.Machine

@[simp] theorem linkDown_kept (p : Port) (s : State) :
    (linkDown p s).kept = s.kept := by
  simp [linkDown]

@[simp] theorem sendInits_kept (p : Port) (s : State) :
    (sendInits p s).kept = s.kept := by
  simp [sendInits]

@[simp] theorem abortScan_kept (p : Port) (s : State) :
    (abortScan p s).kept = s.kept := by
  unfold abortScan; (repeat' split) <;> simp

@[simp] theorem laneStart_kept (p : Port) (s : State) :
    (laneStart p s).kept = s.kept := by
  simp [laneStart]

@[simp] theorem laneStop_kept (p : Port) (s : State) :
    (laneStop p s).kept = s.kept := by
  simp [laneStop]

@[simp] theorem retrainEvent_kept (s : State) :
    (retrainEvent s).kept = s.kept := by
  simp [retrainEvent]

@[simp] theorem retrain_kept (p : Port) (s : State) :
    (retrain p s).kept = s.kept := by
  simp [retrain]

@[simp] theorem lanesStart_kept (s : State) :
    (lanesStart s).kept = s.kept := by
  simp [lanesStart]

@[simp] theorem trimPlls_kept (s : State) : (trimPlls s).kept = s.kept := rfl

@[simp] theorem lanesEnterSafe_kept (s : State) :
    (lanesEnterSafe s).kept = s.kept := by
  simp [lanesEnterSafe]

@[simp] theorem lanesLeaveTest_kept (s : State) :
    (lanesLeaveTest s).kept = s.kept := by
  simp [lanesLeaveTest]

@[simp] theorem applyLane_kept (p : Port) (new : Byte) (s : State) :
    (applyLane p new s).kept = s.kept := by
  simp [applyLane]

@[simp] theorem laneConfigBody_kept (y0 : Ctx) (ws : List Word) (s : State) :
    (Res.state (laneConfigBody y0 ws s)).kept = s.kept := by
  simp [laneConfigBody]

@[simp] theorem snapshotWords_kept (l : Lane) (s : State) :
    ((snapshotWords l s).2).kept = s.kept := by
  unfold snapshotWords; (repeat' split) <;> simp

@[simp] theorem laneEqReply_kept (p : Port) (s : State) :
    (Res.state (laneEqReply p s)).kept = s.kept := by
  simp [laneEqReply]

@[simp] theorem laneEqBody_kept (y0 : Ctx) (ws : List Word) (s : State) :
    (Res.state (laneEqBody y0 ws s)).kept = s.kept := by
  simp [laneEqBody]

@[simp] theorem applyPrbs_kept (p : Port) (new : BitVec 7) (s : State) :
    (applyPrbs p new s).kept = s.kept := by
  simp [applyPrbs]

@[simp] theorem lanePrbsBody_kept (y0 : Ctx) (ws : List Word) (s : State) :
    (Res.state (lanePrbsBody y0 ws s)).kept = s.kept := by
  simp [lanePrbsBody]

@[simp] theorem runMiddle_kept (r : Option (Nat × Nat)) (s : State) :
    ((runMiddle r s).2).kept = s.kept := by
  unfold runMiddle; (repeat' split) <;> simp

@[simp] theorem laneMarginBody_kept (c : Ctx) (ws : List Word) (s : State) :
    (Res.state (laneMarginBody c ws s)).kept = s.kept := by
  simp [laneMarginBody]

@[simp] theorem enterRxQuiet_kept (byPeer : Bool) (p : Port) (s : State) :
    (enterRxQuiet byPeer p s).kept = s.kept := by
  simp [enterRxQuiet]

@[simp] theorem laneSleepBody_kept (y0 : Ctx) (ws : List Word) (s : State) :
    (Res.state (laneSleepBody y0 ws s)).kept = s.kept := by
  simp [laneSleepBody]

@[simp] theorem raiseTimeMap_kept (s : State) :
    (raiseTimeMap s).kept = s.kept := by
  simp [raiseTimeMap]

@[simp] theorem startRealign_kept (s : State) :
    (startRealign s).kept = s.kept := by
  unfold startRealign; (repeat' split) <;> simp [kept_lists]

@[simp] theorem setTq_kept (q : BitVec 4) (s : State) :
    (setTq q s).kept = s.kept := by
  unfold setTq; simp only []; (repeat' split) <;> simp [kept_words]

@[simp] theorem setRate_kept (r : Rat) (s : State) :
    (setRate r s).kept = s.kept := by
  simp [setRate]

@[simp] theorem steer_kept (ts : Rat) (s : State) :
    (steer ts s).kept = s.kept := by
  simp [steer]

@[simp] theorem timeStep_kept (leader : Bool) (e : Rat) (s : State) :
    (timeStep leader e s).kept = s.kept := by
  simp [timeStep]

@[simp] theorem slew_kept (e ts : Rat) (s : State) :
    (slew e ts s).kept = s.kept := by
  simp [slew]

@[simp] theorem countLock_kept (e good bad : Rat) (s : State) :
    (countLock e good bad s).kept = s.kept := by
  simp [countLock]

@[simp] theorem judgeTq_kept (e bad : Rat) (parentOk : Bool) (s : State) :
    (judgeTq e bad parentOk s).kept = s.kept := by
  simp [judgeTq]

@[simp] theorem servo_kept (leader : Bool) (e ts good bad : Rat) (parentOk newStep judged : Bool) (s : State) :
    (servo leader e ts good bad parentOk newStep judged s).kept = s.kept := by
  simp [servo]

@[simp] theorem parentGone_kept (s : State) :
    (parentGone s).kept = s.kept := by
  simp [parentGone]

@[simp] theorem takeParent_kept (p : Port) (s : State) :
    (takeParent p s).kept = s.kept := by
  simp [takeParent]

@[simp] theorem seekParent_kept (s : State) :
    (seekParent s).kept = s.kept := by
  unfold seekParent; (repeat' split) <;> simp

@[simp] theorem ownTime_kept (s : State) : (ownTime s).kept = s.kept := by
  unfold ownTime; split <;> simp

@[simp] theorem sourceGone_kept (s : State) : (sourceGone s).kept = s.kept := by
  unfold sourceGone; (repeat' split) <;> simp

@[simp] theorem leadTime_kept (s : State) :
    (leadTime s).kept = s.kept := by
  simp [leadTime]

@[simp] theorem timeServoBody_kept (y0 : Ctx) (ws : List Word) (s : State) :
    (Res.state (timeServoBody y0 ws s)).kept = s.kept := by
  simp [timeServoBody]

@[simp] theorem timeRoleBody_kept (y0 : Ctx) (ws : List Word) (s : State) :
    (Res.state (timeRoleBody y0 ws s)).kept = s.kept := by
  simp [timeRoleBody]

@[simp] theorem timeStepPolicyBody_kept (y0 : Ctx) (ws : List Word) (s : State) :
    (Res.state (timeStepPolicyBody y0 ws s)).kept = s.kept := by
  simp [timeStepPolicyBody]

@[simp] theorem delayTapBody_kept (y0 : Ctx) (ws : List Word) (s : State) :
    (Res.state (delayTapBody y0 ws s)).kept = s.kept := by
  unfold delayTapBody; simp only []; (repeat' split) <;> simp [kept_factory]

@[simp] theorem noteOffer_kept (port : Port) (fu : SyncFu) (s : State) :
    (noteOffer port fu s).kept = s.kept := by
  simp [noteOffer]

@[simp] theorem completeExchange_kept (port : Port) (t1 t2 t3 t4 : Int) (s : State) :
    (completeExchange port t1 t2 t3 t4 s).kept = s.kept := by
  simp [completeExchange]

@[simp] theorem loseParent_kept (p : Port) (s : State) :
    (loseParent p s).kept = s.kept := by
  unfold loseParent; simp only []; (repeat' split) <;> simp

@[simp] theorem sourceUpdate_kept (e ts : Rat) (s : State) :
    (sourceUpdate e ts s).kept = s.kept := by
  simp [sourceUpdate]

@[simp] theorem badFrame_kept (p : Port) (s : State) :
    (badFrame p s).kept = s.kept := by
  simp [badFrame]

@[simp] theorem noRoute_kept (p : Port) (s : State) :
    (noRoute p s).kept = s.kept := by
  simp [noRoute]

@[simp] theorem sendNak_kept (p : Port) (c : Fin 6) (s : State) :
    (sendNak p c s).kept = s.kept := by
  simp [sendNak]

@[simp] theorem deliverLocal_kept (input : Option Port) (f : Frame) (s : State) :
    (deliverLocal input f s).kept = s.kept := by
  unfold deliverLocal; (repeat' split) <;> simp

@[simp] theorem forwardFrame_kept (input : Port) (f : Frame) (s : State) :
    (forwardFrame input f s).kept = s.kept := by
  unfold forwardFrame; simp only []; (repeat' split) <;> simp

@[simp] theorem judgeMember_kept (s : State) :
    (judgeMember s).kept = s.kept := by
  simp [judgeMember, kept_words]

@[simp] theorem judgeAlone_kept (s : State) :
    (judgeAlone s).kept = s.kept := by
  simp [judgeAlone, kept_words]

@[simp] theorem noteMember_kept (m : Member) (s : State) :
    (noteMember m s).kept = s.kept := by
  simp [noteMember, kept_words]

@[simp] theorem noteNeighbour_kept (p : Port) (m : Member) (s : State) :
    (noteNeighbour p m s).kept = s.kept := by
  simp [noteNeighbour]

@[simp] theorem flood_kept (but : Option Port) (f : Frame) (s : State) :
    (flood but f s).kept = s.kept := by
  simp [flood]

@[simp] theorem takeBeacon_kept (p : Port) (f : Frame) (s : State) :
    (takeBeacon p f s).kept = s.kept := by
  simp [takeBeacon]

@[simp] theorem followTerm_kept (term : Word) (leader : BitVec 10) (leads : Bool) (s : State) :
    (followTerm term leader leads s).kept = s.kept := by
  simp [followTerm, kept_words]

@[simp] theorem elect_kept (s : State) :
    (elect s).kept = s.kept := by
  unfold elect; simp only []; (repeat' split) <;> simp

@[simp] theorem startFrame_kept (p : Port) (c : Fin 6) (q : Queued) (round : List (Nat × Nat)) (s : State) :
    (startFrame p c q round s).kept = s.kept := by
  unfold startFrame; (repeat' split) <;> simp

@[simp] theorem replayClass_kept (p : Port) (c : Fin 6) (s : State) :
    (replayClass p c s).kept = s.kept := by
  simp [replayClass]

@[simp] theorem distribute_kept (img : List Word) (tk : Nat) (s : State) :
    (distribute img tk s).kept = s.kept := by
  simp [distribute]

@[simp] theorem setHubId_kept (h : BitVec 10) (s : State) : (setHubId h s).kept = s.kept := by
  rfl

@[simp] theorem applyFabJoin_kept (ws : List Word) (s : State) :
    (applyFabJoin ws s).kept = s.kept := by
  simp [applyFabJoin, kept_words]

@[simp] theorem routeBody_kept (w0 w1 w2 : Word) (s : State) :
    (Res.state (routeBody w0 w1 w2 s)).kept = s.kept := by
  simp [routeBody, kept_words]

@[simp] theorem portRouteBody_kept (w0 w1 w2 : Word) (s : State) :
    (Res.state (portRouteBody w0 w1 w2 s)).kept = s.kept := by
  simp [portRouteBody]

@[simp] theorem fabRouteBody_kept (y0 : Ctx) (ws : List Word) (s : State) :
    (Res.state (fabRouteBody y0 ws s)).kept = s.kept := by
  simp [fabRouteBody]

@[simp] theorem leaderWords_kept (s : State) :
    ((leaderWords s).2.2).kept = s.kept := by
  unfold leaderWords; (repeat' split) <;> simp

@[simp] theorem fabWords_kept (s : State) :
    ((fabWords s).2).kept = s.kept := by
  simp [fabWords]

@[simp] theorem fabStatusBody_kept (y0 : Ctx) (ws : List Word) (s : State) :
    (Res.state (fabStatusBody y0 ws s)).kept = s.kept := by
  unfold fabStatusBody; simp only []; (repeat' split) <;> simp [kept_words]

@[simp] theorem ethReply_kept (p : Fin 8) (kind : Bool) (ep : Fin 16) (s : State) :
    (Res.state (ethReply p kind ep s)).kept = s.kept := by
  simp [ethReply]

@[simp] theorem ethConfigBody_kept (y0 : Ctx) (ws : List Word) (s : State) :
    (Res.state (ethConfigBody y0 ws s)).kept = s.kept := by
  simp [ethConfigBody]

@[simp] theorem uplinkDiscard_kept (port : Fin 8) (s : State) :
    (uplinkDiscard port s).kept = s.kept := by
  simp [uplinkDiscard]

@[simp] theorem uplinkFrame_kept (port : Fin 8) (d : Datagram) (f : Frame) (s : State) :
    (uplinkFrame port d f s).kept = s.kept := by
  unfold uplinkFrame; (repeat' split) <;> simp

@[simp] theorem sendOut_kept (port : Fin 8) (e : EthOut) (s : State) :
    (sendOut port e s).kept = s.kept := by
  simp [sendOut]

end Sys2Proof.Machine
end

