-- ==== Sys2Proof/Laws/KeptFront.lean ====
section
/-! SUPPORT. The factory data, the queue and the sparse memories under the operations of the front end, conversion, filters, quadrature, reduction, modes and the plan. -/

namespace Sys2Proof.Machine

@[simp] theorem drawMeasured_kept (s : State) (n : Nat) : (s.drawMeasured n).2.kept = s.kept := rfl

@[simp] theorem drawAvg_kept (s : State) : s.drawAvg.2.kept = s.kept := by
  simp [State.drawAvg]

@[simp] theorem endOnPeriod_kept (k : SettId) (s : State) : (endOnPeriod k s).kept = s.kept := by
  simp [endOnPeriod]

@[simp] theorem switchDriver_kept (k : SettId) (on : Bool) (s : State) :
    (switchDriver k on s).kept = s.kept := by
  simp [switchDriver]

@[simp] theorem breakBurst_kept (k : SettId) (s : State) :
    (breakBurst k s).kept = s.kept := by
  simp [breakBurst]

@[simp] theorem endCount_kept (k : SettId) (s : State) : (endCount k s).kept = s.kept := by
  unfold endCount; split <;> simp

@[simp] theorem driverOut_kept (k : SettId) (s : State) : (driverOut k s).kept = s.kept := by
  simp [driverOut]

@[simp] theorem holdOff_kept (k : SettId) (s : State) : (holdOff k s).kept = s.kept := by
  simp [holdOff]

@[simp] theorem forceDriverOff_kept (k : SettId) (s : State) :
    (forceDriverOff k s).kept = s.kept := by
  simp [forceDriverOff]

@[simp] theorem State.modUnitC_kept (s : State) (c : Chan) (f : Unit2 → Unit2) :
    (State.modUnitC s c f).kept = s.kept := id rfl

@[simp] theorem State.modUnitS_kept (s : State) (k : SettId) (f : Unit2 → Unit2) :
    (State.modUnitS s k f).kept = s.kept := id rfl

@[simp] theorem State.modUnitD_kept (s : State) (d : DenId) (f : Unit2 → Unit2) :
    (State.modUnitD s d f).kept = s.kept := id rfl

@[simp] theorem modAcc_kept (kind : AccKind) (i : Nat) (f : Acc → Acc) (s : State) :
    (modAcc kind i f s).kept = s.kept := by
  unfold modAcc; (repeat' split) <;> simp

@[simp] theorem judgeRaw_kept (kind : AccKind) (i : Nat) (a : Acc) (s : State) :
    (judgeRaw kind i a s).kept = s.kept := by
  unfold judgeRaw; (repeat' split) <;> simp

@[simp] theorem endWindow_kept (kind : AccKind) (i : Nat) (isPartial : Bool) (s : State) :
    (endWindow kind i isPartial s).kept = s.kept := by
  unfold endWindow; (repeat' split) <;> simp

@[simp] theorem accumulate_kept (kind : AccKind) (i : Nat) (v : Int) (fl : Byte) (stamp : Nat) (s : State) :
    (accumulate kind i v fl stamp s).kept = s.kept := by
  unfold accumulate; (repeat' split) <;> simp

@[simp] theorem modMinMax_kept (kind : AccKind) (i : Nat) (f : MinMax → MinMax) (s : State) :
    (modMinMax kind i f s).kept = s.kept := by
  unfold modMinMax; (repeat' split) <;> simp

@[simp] theorem endRawWindow_kept (c : Chan) (s : State) : (endRawWindow c s).kept = s.kept := by
  simp [endRawWindow]

@[simp] theorem retireChannel_kept (c : Chan) (byCmd : Bool) (s : State) :
    (retireChannel c byCmd s).kept = s.kept := by
  simp [retireChannel]

@[simp] theorem recentAvg_kept (k : SettId) (s : State) : (recentAvg k s).2.kept = s.kept := by
  unfold recentAvg; split <;> simp

@[simp] theorem excAvg_kept (k : SettId) (s : State) : (excAvg k s).2.kept = s.kept := by
  unfold excAvg; dsimp only; (repeat' split) <;> simp

@[simp] theorem dropInside_kept (cs : List Chan) (s : State) : (dropInside cs s).kept = s.kept :=
  foldl_kept cs _ (fun _ _ => by simp [State.modUnitC]) s

@[simp] theorem isolateSett_kept (k : SettId) (s : State) :
    (isolateSett k s).kept = s.kept := by
  simp [isolateSett]

@[simp] theorem isolateDen_kept (d : DenId) (s : State) :
    (isolateDen d s).kept = s.kept := by
  simp [isolateDen]

@[simp] theorem channelFault_kept (c : Chan) (kind : Nat) (pos : Fin 3) (s : State) :
    (channelFault c kind pos s).kept = s.kept := by
  simp [channelFault]

@[simp] theorem settFault_kept (k : SettId) (kind : Nat) (s : State) :
    (settFault k kind s).kept = s.kept := by
  simp [settFault]

@[simp] theorem denFault_kept (d : DenId) (kind : Nat) (s : State) :
    (denFault d kind s).kept = s.kept := by
  simp [denFault]

@[simp] theorem raiseDenFault_kept (s : State) (d neighbour : Nat) (cause : Nat) (ppm : Word) :
    (raiseDenFault s d neighbour cause ppm).kept = s.kept := by
  simp [raiseDenFault]

@[simp] theorem raiseDenFaultFree_kept (s : State) (d : DenId) (cause : Nat) :
    (raiseDenFaultFree s d cause).kept = s.kept := by
  simp [raiseDenFaultFree]

@[simp] theorem clearValid_kept (s : State) :
    (clearValid s).kept = s.kept := by
  simp [clearValid]

@[simp] theorem afeConfigReply_kept (c : Chan) (s : State) :
    (Res.state (afeConfigReply c s)).kept = s.kept := by
  simp [afeConfigReply]

@[simp] theorem configChan_kept (w : Word) (c : Chan) (s : State) : (configChan w c s).kept = s.kept := by
  unfold configChan; split <;> simp

@[simp] theorem afeConfigBody_kept (y0 : Ctx) (ws : List Word) (s : State) :
    (Res.state (afeConfigBody y0 ws s)).kept = s.kept := by
  unfold afeConfigBody; simp only []; (repeat' split) <;> simp

@[simp] theorem afeRangeBody_kept (y0 : Ctx) (ws : List Word) (s : State) :
    (Res.state (afeRangeBody y0 ws s)).kept = s.kept := by
  unfold afeRangeBody; simp only []; (repeat' split) <;> simp

@[simp] theorem setForce_kept (k : SettId) (off : Bool) (s : State) :
    (setForce k off s).kept = s.kept := by
  simp [setForce]

@[simp] theorem excReply_kept (k : SettId) (s : State) :
    (Res.state (excReply k s)).kept = s.kept := by
  simp [excReply]

@[simp] theorem excConfigBody_kept (y0 : Ctx) (ws : List Word) (s : State) :
    (Res.state (excConfigBody y0 ws s)).kept = s.kept := by
  unfold excConfigBody; simp only []; (repeat' split) <;> simp

@[simp] theorem State.drawMeasured_kept (s : State) (n : Nat) :
    ((State.drawMeasured s n).2).kept = s.kept := by
  simp [State.drawMeasured, kept_factory, kept_pending, kept_banks, kept_owl, kept_prot, kept_img]

@[simp] theorem diagWords_kept (c : Chan) (s : State) :
    ((diagWords c s).2).kept = s.kept := by
  unfold diagWords; (repeat' split) <;> simp

@[simp] theorem afeDiagBody_kept (c : Ctx) (ws : List Word) (s : State) :
    (Res.state (afeDiagBody c ws s)).kept = s.kept := by
  unfold afeDiagBody; simp only []; (repeat' split) <;> simp

@[simp] theorem takeCoef_kept (q : Fin 24) (c : QuadCoef) (s : State) :
    (takeCoef q c s).kept = s.kept := by
  simp [takeCoef]

@[simp] theorem startSlot_kept (q : Fin 24) (s : State) :
    (startSlot q s).kept = s.kept := by
  simp [startSlot]

@[simp] theorem startSlots_kept (k : SettId) (s : State) :
    (startSlots k s).kept = s.kept := by
  simp [startSlots]

@[simp] theorem losePos_kept (q : Fin 24) (lc : Nat) (s : State) :
    (losePos q lc s).kept = s.kept := by
  simp [losePos]

@[simp] theorem quadTick_kept (q : Fin 24) (tick lc : Nat) (wx wy : Word) (s : State) :
    (quadTick q tick lc wx wy s).kept = s.kept := by
  simp [quadTick]

@[simp] theorem quadTicks_kept (k : SettId) (tick lc : Nat) (ws : Vector Word 8) (s : State) :
    (quadTicks k tick lc ws s).kept = s.kept := by
  simp [quadTicks]

@[simp] theorem quadReply_kept (q : Fin 24) (s : State) :
    (Res.state (quadReply q s)).kept = s.kept := by
  simp [quadReply]

@[simp] theorem applyQuad_kept (q : Fin 24) (ws : List Word) (s : State) :
    (applyQuad q ws s).kept = s.kept := by
  simp [applyQuad]

@[simp] theorem sendFeedReq_kept (hub : BitVec 10) (words : List Word) (s : State) :
    (sendFeedReq hub words s).kept = s.kept := by
  simp [sendFeedReq]

@[simp] theorem judgeLate_kept (s : State) : (judgeLate s).kept = s.kept := by
  simp [judgeLate]

@[simp] theorem announceBounds_kept (s : State) : (announceBounds s).kept = s.kept := by
  unfold announceBounds; exact (forEach_kept _ _ (fun s a => by simp) _).trans (by simp)

@[simp] theorem judgeBounds_kept (s : State) : (judgeBounds s).kept = s.kept := by
  simp [judgeBounds]

@[simp] theorem quadConfigBody_kept (y0 : Ctx) (ws : List Word) (s : State) :
    (Res.state (quadConfigBody y0 ws s)).kept = s.kept := by
  unfold quadConfigBody; simp only []; (repeat' split) <;> simp

@[simp] theorem quadStatusBody_kept (y0 : Ctx) (ws : List Word) (s : State) :
    (Res.state (quadStatusBody y0 ws s)).kept = s.kept := by
  unfold quadStatusBody; simp only []; (repeat' split) <;> simp

@[simp] theorem sendFeeds_kept (isPrj : Bool) (tick : Nat) (words : List (Nat × Nat × Word)) (s : State) :
    (sendFeeds isPrj tick words s).kept = s.kept := by
  simp [sendFeeds]

@[simp] theorem countLate_kept (isTerm : Word64 → Bool) (tick : Nat) (s : State) :
    (countLate isTerm tick s).kept = s.kept := by
  simp [countLate]

@[simp] theorem putOutput_kept (p : Fin 64) (g stamp : Nat) (o : PrjOut) (s : State) :
    (putOutput p g stamp o s).kept = s.kept := by
  simp [putOutput]

@[simp] theorem realignPrjs_kept (tk : Nat) (s : State) :
    (realignPrjs tk s).kept = s.kept := by
  simp [realignPrjs]

@[simp] theorem lateSlots_kept (k : SettId) (tick : Nat) (s : State) :
    (lateSlots k tick s).kept = s.kept := by
  simp [lateSlots]

@[simp] theorem produceWords_kept (k : SettId) (tick stamp : Nat) (ws : Vector Word 8) (s : State) :
    (produceWords k tick stamp ws s).kept = s.kept := by
  simp [produceWords]

@[simp] theorem endSettWindows_kept (k : SettId) (s : State) :
    (endSettWindows k s).kept = s.kept := by
  simp [endSettWindows]

@[simp] theorem prjDefineBody_kept (y0 : Ctx) (ws : List Word) (s : State) :
    (Res.state (prjDefineBody y0 ws s)).kept = s.kept := by
  simp [prjDefineBody]

@[simp] theorem askFeed_kept (safety : Bool) (t : Word64) (s : State) : (askFeed safety t s).kept = s.kept := by
  simp [askFeed]

@[simp] theorem openFeeds_kept (ps : List (Fin 64)) (s : State) :
    (openFeeds ps s).kept = s.kept := by
  simp [openFeeds]

@[simp] theorem fixLatency_kept (ps : List (Fin 64)) (s : State) :
    (fixLatency ps s).kept = s.kept := by
  simp [fixLatency]

@[simp] theorem completeLatency_kept (s : State) : (completeLatency s).kept = s.kept := by
  simp [completeLatency]

@[simp] theorem prjEnableBody_kept (y0 : Ctx) (ws : List Word) (s : State) :
    (Res.state (prjEnableBody y0 ws s)).kept = s.kept := by
  simp [prjEnableBody]

@[simp] theorem closeFeeds_kept (s : State) :
    (closeFeeds s).kept = s.kept := by
  simp [closeFeeds]

@[simp] theorem stopPrj_kept (p : Fin 64) (s : State) :
    (stopPrj p s).kept = s.kept := by
  simp [stopPrj]

@[simp] theorem feedAnswer_kept (src : BitVec 10) (w0 : Word) (accept : Bool) (ins : List Word) (s : State) :
    (feedAnswer src w0 accept ins s).kept = s.kept := by
  simp [feedAnswer]

@[simp] theorem takeRequest_kept (src : BitVec 10) (w0 : Word) (ins : List Word) (s : State) :
    (takeRequest src w0 ins s).kept = s.kept := by
  simp [takeRequest]

@[simp] theorem modFeeds_kept (f : Feed → Feed) (s : State) :
    (modFeeds f s).kept = s.kept := by
  simp [modFeeds]

@[simp] theorem takeAnswer_kept (src : BitVec 10) (accept : Bool) (ins : List (Word × Nat)) (s : State) :
    (takeAnswer src accept ins s).kept = s.kept := by
  simp [takeAnswer]

@[simp] theorem accReply_kept (kind : AccKind) (i : Nat) (s : State) :
    (Res.state (accReply kind i s)).kept = s.kept := by
  simp [accReply]

@[simp] theorem setAcc_kept (kind : AccKind) (w : Word) (i : Nat) (s : State) :
    (setAcc kind w i s).kept = s.kept := by
  simp [setAcc]

@[simp] theorem accConfigBody_kept (y0 : Ctx) (ws : List Word) (s : State) :
    (Res.state (accConfigBody y0 ws s)).kept = s.kept := by
  unfold accConfigBody; simp only []; (repeat' split) <;> simp

@[simp] theorem minmaxReadBody_kept (y0 : Ctx) (ws : List Word) (s : State) :
    (Res.state (minmaxReadBody y0 ws s)).kept = s.kept := by
  unfold minmaxReadBody; simp only []; (repeat' split) <;> simp

@[simp] theorem convReply_kept (k : SettId) (s : State) :
    (Res.state (convReply k s)).kept = s.kept := by
  simp [convReply]

@[simp] theorem convModeBody_kept (y0 : Ctx) (ws : List Word) (s : State) :
    (Res.state (convModeBody y0 ws s)).kept = s.kept := by
  unfold convModeBody; simp only []; (repeat' split) <;> simp

@[simp] theorem convInjectBody_kept (c : Ctx) (ws : List Word) (s : State) :
    (Res.state (convInjectBody c ws s)).kept = s.kept := by
  unfold convInjectBody; simp only []; (repeat' split) <;> simp

@[simp] theorem State.modCal_kept (s : State) (c : Chan) (f : Cal → Cal) :
    (State.modCal s c f).kept = s.kept := id rfl

@[simp] theorem startCal_kept (c : Chan) (s : State) :
    (startCal c s).kept = s.kept := by
  simp [startCal]

@[simp] theorem releaseGroup_kept (c : Chan) (s : State) : (releaseGroup c s).kept = s.kept := by
  unfold releaseGroup; dsimp only; (repeat' split) <;> simp

@[simp] theorem releaseCal_kept (c : Chan) (s : State) :
    (releaseCal c s).kept = s.kept := by
  simp [releaseCal]

@[simp] theorem finishInject_kept (c : Chan) (status : Nat) (words : List Word) (s : State) :
    (finishInject c status words s).kept = s.kept := by
  unfold finishInject; (repeat' split) <;> simp

@[simp] theorem dropInject_kept (c : Chan) (status : Nat) (s : State) :
    (dropInject c status s).kept = s.kept := by
  simp [dropInject]

@[simp] theorem answerPoint_kept (req : ReplyTo) (s : State) :
    (answerPoint req s).kept = s.kept := by
  simp [answerPoint]

@[simp] theorem answerEarly_kept (c : Chan) (p : CalPoint) (s : State) : (answerEarly c p s).kept = s.kept := by
  unfold answerEarly; dsimp only; split <;> simp

@[simp] theorem finishPoint_kept (c : Chan) (p : CalPoint) (mean : Int) (reason : BitVec 2) (s : State) :
    (finishPoint c p mean reason s).kept = s.kept := by
  unfold finishPoint; split <;> simp

@[simp] theorem measure_kept (c : Chan) (v : Conv) (fl : Byte) (s : State) :
    (measure c v fl s).kept = s.kept := by
  unfold measure; simp only []; (repeat' split) <;> simp

@[simp] theorem endCal_kept (c : Chan) (s : State) :
    (endCal c s).kept = s.kept := by
  unfold endCal; simp only []; (repeat' split) <;> simp

@[simp] theorem endCalNoted_kept (c : Chan) (cause : Nat) (s : State) :
    (endCalNoted c cause s).kept = s.kept := by
  simp [endCalNoted]

@[simp] theorem calStartBody_kept (y0 : Ctx) (ws : List Word) (s : State) :
    (Res.state (calStartBody y0 ws s)).kept = s.kept := by
  unfold calStartBody; simp only []
  split
  · rfl
  · (repeat' split) <;> simp only [res_refuse, res_done] <;> exact forEach_kept _ _ (fun s a => by simp) _

@[simp] theorem calPointBody_kept (c : Ctx) (ws : List Word) (s : State) :
    (Res.state (calPointBody c ws s)).kept = s.kept := by
  simp [calPointBody]

@[simp] theorem commitChan_kept (c : Chan) (adj : Byte) (s : State) :
    ((commitChan c adj s).1).kept = s.kept := by
  unfold commitChan; simp only []; (repeat' split) <;> simp

@[simp] theorem calCommitBody_kept (y0 : Ctx) (ws : List Word) (s : State) :
    (Res.state (calCommitBody y0 ws s)).kept = s.kept := by
  simp [calCommitBody]

@[simp] theorem calReadBody_kept (y0 : Ctx) (ws : List Word) (s : State) :
    (Res.state (calReadBody y0 ws s)).kept = s.kept := by
  unfold calReadBody; simp only []; (repeat' split) <;> simp

@[simp] theorem tapReply_kept (s : State) :
    (Res.state (tapReply s)).kept = s.kept := by
  simp [tapReply]

@[simp] theorem rawTapBody_kept (y0 : Ctx) (ws : List Word) (s : State) :
    (Res.state (rawTapBody y0 ws s)).kept = s.kept := by
  unfold rawTapBody; simp only []; (repeat' split) <;> simp

@[simp] theorem closeTaps_kept (s : State) :
    (closeTaps s).kept = s.kept := by
  simp [closeTaps]

@[simp] theorem deliverRaw_kept (ch : Chan) (raw : Int) (ovr held lp : Bool) (stamp : Nat) (s : State) :
    (deliverRaw ch raw ovr held lp stamp s).kept = s.kept := by
  unfold deliverRaw; simp only []; (repeat' split) <;> simp

@[simp] theorem tapSlot_kept (i : Fin 4) (ch : Chan) (raw : Int) (ovr held lp : Bool) (stamp : Nat) (s : State) :
    (tapSlot i ch raw ovr held lp stamp s).kept = s.kept := by
  unfold tapSlot; (repeat' split) <;> simp

@[simp] theorem passDen_kept (k : SettId) (g : TickGroup) (s : State) : ((passDen k g s).1).kept = s.kept := by
  simp [passDen]

@[simp] theorem deliverGroup_kept (k : SettId) (g : TickGroup) (s : State) :
    (deliverGroup k g s).kept = s.kept := by
  simp [deliverGroup]

@[simp] theorem noteResults_kept (k : SettId) (convs : Vector Conv 8) (ws : Vector Word 8) (stamp delay last : Nat) (s : State) :
    (noteResults k convs ws stamp delay last s).kept = s.kept := by
  simp [noteResults]

@[simp] theorem raiseEdge_kept (k : SettId) (stop : Bool) (lc : Nat) (s : State) :
    (raiseEdge k stop lc s).kept = s.kept := by
  simp [raiseEdge]

@[simp] theorem startChain_kept (k : SettId) (b : Nat) (s : State) :
    (startChain k b s).kept = s.kept := by
  simp [startChain]

@[simp] theorem toCyclic_kept (c : Cycle) (s : State) (k : SettId) :
    (toCyclic c s k).kept = s.kept := by
  unfold toCyclic; dsimp only; (repeat' split) <;> simp

@[simp] theorem startSett_kept (k : SettId) (b : Nat) (s : State) :
    (startSett k b s).kept = s.kept := by
  unfold startSett; dsimp only; split <;> simp

@[simp] theorem stopSett_kept (k : SettId) (b : Nat) (s : State) :
    (stopSett k b s).kept = s.kept := by
  simp [stopSett]

@[simp] theorem fltStartBody_kept (y0 : Ctx) (ws : List Word) (s : State) :
    (Res.state (fltStartBody y0 ws s)).kept = s.kept := by
  unfold fltStartBody; simp only []; (repeat' split) <;> simp [kept_lists]

@[simp] theorem fltStopBody_kept (y0 : Ctx) (ws : List Word) (s : State) :
    (Res.state (fltStopBody y0 ws s)).kept = s.kept := by
  simp [fltStopBody]

@[simp] theorem presetReply_kept (k : SettId) (s : State) :
    (Res.state (presetReply k s)).kept = s.kept := by
  simp [presetReply, kept_factory, kept_pending, kept_banks, kept_owl, kept_prot, kept_img]

@[simp] theorem fltPresetBody_kept (y0 : Ctx) (ws : List Word) (s : State) :
    (Res.state (fltPresetBody y0 ws s)).kept = s.kept := by
  unfold fltPresetBody; simp only []; (repeat' split) <;> simp

@[simp] theorem coefRead_kept (k : SettId) (w0 : Word) (s : State) :
    (Res.state (coefRead k w0 s)).kept = s.kept := by
  simp [coefRead]

@[simp] theorem completeLoad_kept (k : SettId) (ws : List Word) (load : List (Nat × BitVec 24)) (s : State) :
    (Res.state (completeLoad k ws load s)).kept = s.kept := by
  simp [completeLoad]

@[simp] theorem coefLoadBody_kept (y0 : Ctx) (ws : List Word) (s : State) :
    (Res.state (coefLoadBody y0 ws s)).kept = s.kept := by
  unfold coefLoadBody; simp only []; (repeat' split) <;> simp

@[simp] theorem growthReply_kept (k : SettId) (s : State) :
    (Res.state (growthReply k s)).kept = s.kept := by
  simp [growthReply]

@[simp] theorem growthBody_kept (y0 : Ctx) (ws : List Word) (s : State) :
    (Res.state (growthBody y0 ws s)).kept = s.kept := by
  unfold growthBody; simp only []; (repeat' split) <;> simp

@[simp] theorem withdrawSwap_kept (cause : Nat) (s : State) :
    (withdrawSwap cause s).kept = s.kept := by
  unfold withdrawSwap; (repeat' split) <;> simp [kept_lists]

@[simp] theorem outputsOff_kept (s : State) :
    (outputsOff s).kept = s.kept := by
  simp [outputsOff, kept_owl]

@[simp] theorem raiseMode_kept (m : Mode) (causes : BitVec 4) (s : State) :
    (raiseMode m causes s).kept = s.kept := by
  simp [raiseMode]

@[simp] theorem failStart_kept (code : Byte) (s : State) :
    (failStart code s).kept = s.kept := by
  simp [failStart]

@[simp] theorem startYield_kept (req : Option ReplyTo) (s : State) :
    (startYield req s).kept = s.kept := by
  simp [startYield]

@[simp] theorem shedStaging_kept (k : SettId) (s : State) :
    (shedStaging k s).kept = s.kept := by
  simp [shedStaging]

@[simp] theorem endShedWork_kept (k : SettId) (s : State) :
    (endShedWork k s).kept = s.kept := by
  simp [endShedWork]

@[simp] theorem shedSett_kept (k : SettId) (s : State) :
    (shedSett k s).kept = s.kept := by
  simp [shedSett]

@[simp] theorem endShedPrjs_kept (s : State) :
    (endShedPrjs s).kept = s.kept := by
  simp [endShedPrjs]

@[simp] theorem endTest_kept (s : State) :
    (endTest s).kept = s.kept := by
  simp [endTest]

@[simp] theorem shedAll_kept (causes : BitVec 4) (s : State) :
    (shedAll causes s).kept = s.kept := by
  simp [shedAll]

@[simp] theorem enterSafe_kept (cause : Nat) (s : State) :
    (enterSafe cause s).kept = s.kept := by
  simp [enterSafe]

@[simp] theorem chipFault_kept (code : Byte) (s : State) :
    (chipFault code s).kept = s.kept := by
  simp [chipFault]

@[simp] theorem judgeTherm_kept (s : State) :
    (judgeTherm s).kept = s.kept := by
  simp [judgeTherm]

@[simp] theorem declareShed_kept (s : State) (t : Fin 54) :
    (declareShed s t).kept = s.kept := by
  unfold declareShed; (repeat' split) <;> simp

@[simp] theorem resumeCursors_kept (gaps : Bool) (s : State) :
    (resumeCursors gaps s).kept = s.kept := by
  simp [resumeCursors]

@[simp] theorem unshed_kept (b : Nat) (s : State) (k : SettId) :
    (unshed b s k).kept = s.kept := by
  simp [unshed]

@[simp] theorem resumePrj_kept (s : State) (p : Fin 64) :
    (resumePrj s p).kept = s.kept := by
  simp [resumePrj]

@[simp] theorem leaveSafe_kept (s : State) :
    (leaveSafe s).kept = s.kept := by
  simp [leaveSafe]

@[simp] theorem enterTest_kept (s : State) :
    (enterTest s).kept = s.kept := by
  simp [enterTest, kept_owl]

@[simp] theorem leaveTest_kept (s : State) :
    (leaveTest s).kept = s.kept := by
  simp [leaveTest, kept_owl]

@[simp] theorem followPlan_kept (k : SettId) (s : State) :
    (followPlan k s).kept = s.kept := by
  simp [followPlan]

@[simp] theorem excOnSett_kept (s : State) (k : SettId) :
    (excOnSett s k).kept = s.kept := by
  simp [excOnSett, kept_lists]

@[simp] theorem excOffSett_kept (s : State) (k : SettId) :
    (excOffSett s k).kept = s.kept := by
  simp [excOffSett]

theorem stepEntry_kept (type idx : Nat) (f : Word64 → State → State) (s : State) (h : ∀ e t, (f e t).kept = t.kept) :
    (Out.settle (stepEntry type idx f s) s).kept = s.kept := by
  unfold stepEntry; rw [settle_next]; split <;> simp [h]

@[simp] theorem burstSett_kept (code : Nat) (s : State) (k : SettId) :
    (burstSett code s k).kept = s.kept := by
  simp [burstSett]

@[simp] theorem latchChan_kept (s : State) (c : Chan) :
    (latchChan s c).kept = s.kept := by
  simp [latchChan]

@[simp] theorem rangeChan_kept (r : BitVec 3) (s : State) (c : Chan) :
    (rangeChan r s c).kept = s.kept := by
  simp [rangeChan]

@[simp] theorem injectChan_kept (code off : Nat) (s : State) (c : Chan) :
    (injectChan code off s c).kept = s.kept := by
  unfold injectChan; simp only []; (repeat' split) <;> simp

@[simp] theorem shadowEcc_kept (s : State) :
    (shadowEcc s).kept = s.kept := by
  simp [shadowEcc]

@[simp] theorem restartDen_kept (s : State) (d : DenId) :
    (restartDen s d).kept = s.kept := by
  simp [restartDen]

theorem readWords_lists (k : Fin 2) (i n : Nat) (p : Plan) : (Plan.readWords k i n p).lists = p.lists := by
  unfold Plan.readWords Plan.lists
  simp only [vmod, Vector.toList_set, List.map_set]
  exact (List.ext_getElem (by simp) fun j h1 h2 => by
    rw [List.getElem_set]; split
    · subst_vars; simp
    · rfl)

/-- Reading a bank leaves what is kept. -/
@[simp] theorem readBank_kept (k : Fin 2) (i n : Nat) (s : State) : (readBank k i n s).kept = s.kept := by
  have h : ∀ x : Plan → Vector (List Nat) 2,
      (s.modPlan fun p => { Plan.readWords k i n p with fixAt := x p }).kept = s.kept := fun x => by
    rw [State.modPlan_kept]; exact congrArg (fun l => ({ s.kept with banks := l } : Kept)) (readWords_lists k i n s.plan)
  unfold readBank; dsimp only; split
  · rw [raise_kept]; exact h _
  · exact h _

@[simp] theorem readPendingBank_kept (s : State) :
    (readPendingBank s).kept = s.kept := by
  unfold readPendingBank; dsimp only; (repeat' split) <;> simp [readWords_lists, kept_banks]

@[simp] theorem ageTrips_kept (s : State) : (ageTrips s).kept = s.kept := by
  simp [ageTrips]

@[simp] theorem frameEdge_kept (s : State) :
    (frameEdge s).kept = s.kept := by
  simp [frameEdge, kept_lists, readWords_lists, kept_banks]

@[simp] theorem dropUnslotted_kept (s : State) (c : Chan) :
    (dropUnslotted s c).kept = s.kept := by
  unfold dropUnslotted; (repeat' split) <;> simp

@[simp] theorem activatePlan_kept (edge : Nat) (s : State) :
    (activatePlan edge s).kept = s.kept := by
  unfold activatePlan; simp [flipBanks_lists, kept_factory, kept_pending, kept_banks, kept_owl, kept_prot, kept_img]

@[simp] theorem moveAll_kept (was now resume : Nat) (s : State) :
    (moveAll was now resume s).kept = s.kept := by
  simp [moveAll, kept_factory, kept_pending, kept_banks, kept_owl, kept_prot, kept_img]

@[simp] theorem planValidateBody_kept (y0 : Ctx) (ws : List Word) (s : State) :
    (Res.state (planValidateBody y0 ws s)).kept = s.kept := by
  unfold planValidateBody; simp only []
  split
  · rfl
  · (repeat' split) <;> simp [kept_lists, readWords_lists, kept_banks]

@[simp] theorem cancelSwap_kept (s : State) :
    (Res.state (cancelSwap s)).kept = s.kept := by
  unfold cancelSwap; (repeat' split) <;> simp [kept_lists]

@[simp] theorem planSwapBody_kept (y0 : Ctx) (ws : List Word) (s : State) :
    (Res.state (planSwapBody y0 ws s)).kept = s.kept := by
  simp [planSwapBody, kept_lists]

@[simp] theorem planReadBody_kept (y0 : Ctx) (ws : List Word) (s : State) :
    (Res.state (planReadBody y0 ws s)).kept = s.kept := by
  simp [planReadBody, readWords_lists, kept_banks]

end Sys2Proof.Machine
end

