-- ==== Sys2Proof/Laws/KeptSystem.lean ====
section
/-! SUPPORT. The factory data, the queue and the sparse memories under the operations of supplies, safety, protection, firmware, edges, health, coders and the Hoard. -/

namespace Sys2Proof.Machine

@[simp] theorem setRailGood_kept (c : Nat) (s : State) :
    (setRailGood c s).kept = s.kept := by
  simp [setRailGood]

@[simp] theorem measureVcore_kept (s : State) :
    (measureVcore s).kept = s.kept := by
  simp [measureVcore]

@[simp] theorem setBankLevel_kept (b : Fin 4) (high : Bool) (s : State) :
    (setBankLevel b high s).kept = s.kept := by
  simp [setBankLevel]

@[simp] theorem enterStartup_kept (s : State) :
    (enterStartup s).kept = s.kept := by
  simp [enterStartup]

@[simp] theorem enterSync_kept (s : State) :
    (enterSync s).kept = s.kept := by
  simp [enterSync]

@[simp] theorem sysResetBody_kept (c : Ctx) (ws : List Word) (s : State) :
    (Res.state (sysResetBody c ws s)).kept = s.kept := by
  simp [sysResetBody]

@[simp] theorem State.modMon_kept (s : State) (i : Fin 16) (f : Mon → Mon) :
    (State.modMon s i f).kept = s.kept := id rfl

@[simp] theorem State.modSi_kept (s : State) (i : Fin 4) (f : Si → Si) :
    (State.modSi s i f).kept = s.kept := id rfl

@[simp] theorem State.modSo_kept (s : State) (n : Fin 8) (f : So → So) :
    (State.modSo s n f).kept = s.kept := id rfl

@[simp] theorem State.modConn_kept (s : State) (i : Fin 8) (f : Conn → Conn) :
    (State.modConn s i f).kept = s.kept := id rfl

@[simp] theorem commandOutput_kept (s : State) (x : Fin 8 × SoEntry) :
    (commandOutput s x).kept = s.kept := by
  simp [commandOutput]

@[simp] theorem commandOutputs_kept (s : State) :
    (commandOutputs s).kept = s.kept := by
  unfold commandOutputs; simp only []; (repeat' split) <;> simp [kept_owl]

@[simp] theorem raiseTrip_kept (source index cause : Nat) (mask : BitVec 16) (x : Int) (s : State) :
    (raiseTrip source index cause mask x s).kept = s.kept := by
  simp [raiseTrip]

@[simp] theorem tripMon_kept (i : Fin 16) (m : MonEntry) (cause : Nat) (s : State) :
    (tripMon i m cause s).kept = s.kept := by
  simp [tripMon]

@[simp] theorem owlFailure_kept (s : State) :
    (owlFailure s).kept = s.kept := by
  simp [owlFailure, kept_owl]

@[simp] theorem evalMon_kept (s : State) (im : Fin 16 × MonEntry) :
    (evalMon s im).kept = s.kept := by
  simp [evalMon]

@[simp] theorem readSi_kept (b : Block) (si : BitVec 4) (s : State) (x : Fin 4 × SiEntry) :
    (readSi b si s x).kept = s.kept := by
  simp [readSi]

@[simp] theorem readSo_kept (sofb : Byte) (s : State) (x : Fin 8 × SoEntry) :
    (readSo sofb s x).kept = s.kept := by
  simp [readSo]

@[simp] theorem judgePair_kept (b : Block) (s : State) (p : Fin 2) :
    (judgePair b s p).kept = s.kept := by
  unfold judgePair; (repeat' split) <;> simp [kept_owl]

@[simp] theorem judgeReady_kept (b : Block) (s : State) :
    (judgeReady b s).kept = s.kept := by
  simp [judgeReady, kept_owl]

@[simp] theorem sendSafety_kept (i : Fin 8) (b : Block) (e : ConnEntry) (s : State) :
    (sendSafety i b e s).kept = s.kept := by
  simp [sendSafety]

@[simp] theorem missFrames_kept (n : Nat) (s : State) :
    (missFrames n s).kept = s.kept := by
  simp [missFrames, kept_owl]

@[simp] theorem takeSafety_kept (i : Fin 8) (b : Block) (e : ConnEntry) (w0 w1 w2 w3 : Word) (s : State) :
    (takeSafety i b e w0 w1 w2 w3 s).kept = s.kept := by
  simp [takeSafety]

@[simp] theorem State.setProposal_kept (s : State) (i : Fin 8) (p : Option Proposal) :
    (State.setProposal s i p).kept = s.kept := by
  simp [State.setProposal, kept_prot]

@[simp] theorem endProposal_kept (i : Fin 8) (cause : Nat) (s : State) :
    (endProposal i cause s).kept = s.kept := by
  unfold endProposal; (repeat' split) <;> simp

@[simp] theorem propose_kept (c : Ctx) (action code : Nat) (params : List Word) (digest : List Byte) (s : State) :
    (Res.state (propose c action code params digest s)).kept = s.kept := by
  unfold propose; (repeat' split) <;> simp

@[simp] theorem withdrawProposals_kept (which : Proposal → Bool) (s : State) :
    (withdrawProposals which s).kept = s.kept := by
  simp [withdrawProposals]

@[simp] theorem putBlock_kept (b : Option Block) (s : State) :
    (putBlock b s).kept = s.kept := by
  unfold putBlock; simp [Owl.cleared, kept_owl]

@[simp] theorem commissionApply_kept (withdraw : Bool) (s : State) :
    (commissionApply withdraw s).kept = s.kept := by
  simp [commissionApply, kept_owl]

@[simp] theorem safeCommissionBody_kept (c : Ctx) (ws : List Word) (s : State) :
    (Res.state (safeCommissionBody c ws s)).kept = s.kept := by
  simp [safeCommissionBody]

@[simp] theorem safeStatusBody_kept (y0 : Ctx) (ws : List Word) (s : State) :
    (Res.state (safeStatusBody y0 ws s)).kept = s.kept := by
  simp [safeStatusBody]

@[simp] theorem safePulseBody_kept (y0 : Ctx) (ws : List Word) (s : State) :
    (Res.state (safePulseBody y0 ws s)).kept = s.kept := by
  unfold safePulseBody; simp only []; (repeat' split) <;> simp

@[simp] theorem clearReadback_kept (s : State) :
    (clearReadback s).kept = s.kept := by
  unfold clearReadback; simp only []; (repeat' split) <;> simp [kept_owl]

@[simp] theorem resetOutputs_kept (s : State) :
    (resetOutputs s).kept = s.kept := by
  unfold resetOutputs; (repeat' split) <;> simp

@[simp] theorem safeResetBody_kept (c : Ctx) (ws : List Word) (s : State) :
    (Res.state (safeResetBody c ws s)).kept = s.kept := by
  unfold safeResetBody; simp only []; (repeat' split) <;> simp [Owl.release, kept_owl]

@[simp] theorem keyApply_kept (ws : List Word) (s : State) :
    (keyApply ws s).kept = s.kept := by
  simp [keyApply, kept_prot]

@[simp] theorem keyInstallBody_kept (c : Ctx) (ws : List Word) (s : State) :
    (Res.state (keyInstallBody c ws s)).kept = s.kept := by
  simp [keyInstallBody]

@[simp] theorem checkStaged_kept (s : State) :
    (checkStaged s).kept = s.kept := by
  simp [checkStaged, kept_prot]

@[simp] theorem activateApply_kept (s : State) :
    (activateApply s).kept = s.kept := by
  simp [activateApply, kept_prot]

@[simp] theorem fwActivateBody_kept (c : Ctx) (ws : List Word) (s : State) :
    (Res.state (fwActivateBody c ws s)).kept = s.kept := by
  simp [fwActivateBody]

@[simp] theorem loseSessions_kept (s : State) :
    (loseSessions s).kept = s.kept := by
  simp [loseSessions, kept_prot]

@[simp] theorem tdcConfigReply_kept (i : Fin 16) (s : State) :
    (Res.state (tdcConfigReply i s)).kept = s.kept := by
  simp [tdcConfigReply]

@[simp] theorem tdcConfigBody_kept (y0 : Ctx) (ws : List Word) (s : State) :
    (Res.state (tdcConfigBody y0 ws s)).kept = s.kept := by
  simp [tdcConfigBody]

@[simp] theorem tdcWindowBody_kept (y0 : Ctx) (ws : List Word) (s : State) :
    (Res.state (tdcWindowBody y0 ws s)).kept = s.kept := by
  simp [tdcWindowBody]

@[simp] theorem tdcReadBody_kept (y0 : Ctx) (ws : List Word) (s : State) :
    (Res.state (tdcReadBody y0 ws s)).kept = s.kept := by
  unfold tdcReadBody; simp only []; (repeat' split) <;> simp

@[simp] theorem tdcCalBody_kept (y0 : Ctx) (ws : List Word) (s : State) :
    (Res.state (tdcCalBody y0 ws s)).kept = s.kept := by
  simp [tdcCalBody]

@[simp] theorem setChannelDeg_kept (id : Fin 50) (d : Bool) (s : State) :
    (setChannelDeg id d s).kept = s.kept := by
  unfold setChannelDeg; (repeat' split) <;> simp

@[simp] theorem putMap_kept (s : State) (x : Fin 66 × List Rat) : (putMap s x).kept = s.kept := by
  simp [putMap]

@[simp] theorem judgeChannel_kept (id : Fin 50) (s : State) :
    (judgeChannel id s).kept = s.kept := by
  simp [judgeChannel]

@[simp] theorem unitTake_kept (i : Fin 16) (rising : Bool) (t : Stamp) (s : State) (m : Fin 8) :
    (unitTake i rising t s m).kept = s.kept := by
  unfold unitTake; dsimp only; (repeat' split) <;> simp

@[simp] theorem unitsTake_kept (i : Fin 16) (rising : Bool) (t : Stamp) (s : State) :
    (unitsTake i rising t s).kept = s.kept := by
  unfold unitsTake; exact forEach_kept _ _ (fun s a => unitTake_kept i rising t s a) _

@[simp] theorem acceptEdge_kept (i : Fin 16) (rising : Bool) (t : Stamp) (s : State) :
    (acceptEdge i rising t s).kept = s.kept := by
  simp [acceptEdge]

@[simp] theorem modMargin_kept (m : Fin 24) (f : Margin → Margin) (s : State) :
    (modMargin m f s).kept = s.kept := by
  simp [modMargin]

@[simp] theorem sampleMargin_kept (m : Fin 24) (v : Int) (s : State) :
    (sampleMargin m v s).kept = s.kept := by
  simp [sampleMargin]

@[simp] theorem askVcore_kept (code : Byte) (s : State) :
    (askVcore code s).kept = s.kept := by
  simp [askVcore]

@[simp] theorem raiseVcore_kept (s : State) :
    (raiseVcore s).kept = s.kept := by
  simp [raiseVcore]

@[simp] theorem recentreTap_kept (s : State) (k : SettId) :
    (recentreTap s k).kept = s.kept := by
  simp [recentreTap]

@[simp] theorem retunePort_kept (g : Nat) (s : State) :
    (retunePort g s).kept = s.kept := by
  unfold retunePort; simp only []; (repeat' split) <;> simp

@[simp] theorem proposeRetire_kept (m : Fin 24) (s : State) :
    (proposeRetire m s).kept = s.kept := by
  simp [proposeRetire]

@[simp] theorem takeAction_kept (m : Fin 24) (action : Nat) (s : State) :
    (takeAction m action s).kept = s.kept := by
  simp [takeAction]

@[simp] theorem judgeMargin_kept (s : State) (m : Fin 24) :
    (judgeMargin s m).kept = s.kept := by
  unfold judgeMargin; (repeat' split) <;> simp

@[simp] theorem reportCompare_kept (d : DenId) (ppm : Word) (s : State) :
    (reportCompare d ppm s).kept = s.kept := by
  simp [reportCompare]

@[simp] theorem judgeDens_kept (d : DenId) (s : State) :
    (judgeDens d s).kept = s.kept := by
  simp [judgeDens]

@[simp] theorem dropRestore_kept (level index : Nat) (s : State) : (dropRestore level index s).kept = s.kept := by
  simp [dropRestore]

@[simp] theorem chanRetireBody_kept (y0 : Ctx) (ws : List Word) (s : State) :
    (Res.state (chanRetireBody y0 ws s)).kept = s.kept := by
  unfold chanRetireBody; simp only []; (repeat' split) <;> simp

@[simp] theorem restoreCheck_kept (w : Word) (s : State) :
    ((restoreCheck w s).2).kept = s.kept := by
  unfold restoreCheck; simp only []; (repeat' split) <;> simp

@[simp] theorem restoreApply_kept (w : Word) (s : State) :
    (restoreApply w s).kept = s.kept := by
  simp [restoreApply]

@[simp] theorem chanRestoreBody_kept (c : Ctx) (ws : List Word) (s : State) :
    (Res.state (chanRestoreBody c ws s)).kept = s.kept := by
  simp [chanRestoreBody]

@[simp] theorem clearChain_kept (b : Nat) (s : State) (c : Chan) :
    (clearChain b s c).kept = s.kept := by
  simp [clearChain]

@[simp] theorem restoreChan_kept (b : Nat) (c : Chan) (s : State) :
    (restoreChan b c s).kept = s.kept := by
  simp [restoreChan]

@[simp] theorem restoreSett_kept (b : Nat) (k : SettId) (s : State) :
    (restoreSett b k s).kept = s.kept := by
  simp [restoreSett]

@[simp] theorem restoreDen_kept (b : Nat) (d : DenId) (s : State) :
    (restoreDen b d s).kept = s.kept := by
  simp [restoreDen]

@[simp] theorem restoreUnit_kept (s : State) (r : BitVec 2 × Nat × Nat) :
    (restoreUnit s r).kept = s.kept := by
  unfold restoreUnit; simp only [raise_kept]; split
  · cases chanAt r.2.1 <;> simp
  · cases finOf 48 r.2.1 <;> simp
  · cases finOf 4 r.2.1 <;> simp

@[simp] theorem marginPlanBody_kept (y0 : Ctx) (ws : List Word) (s : State) :
    (Res.state (marginPlanBody y0 ws s)).kept = s.kept := by
  unfold marginPlanBody; simp only []; (repeat' split) <;> simp

@[simp] theorem countersReadBody_kept (y0 : Ctx) (ws : List Word) (s : State) :
    (Res.state (countersReadBody y0 ws s)).kept = s.kept := by
  simp [countersReadBody]

@[simp] theorem clearUnitAll_kept (s : State) (unit : Nat) :
    (clearUnitAll s unit).kept = s.kept := by
  simp [clearUnitAll]

@[simp] theorem countersClearBody_kept (y0 : Ctx) (ws : List Word) (s : State) :
    (Res.state (countersClearBody y0 ws s)).kept = s.kept := by
  unfold countersClearBody; simp only []; (repeat' split) <;> simp

@[simp] theorem fabJoinBody_kept (c : Ctx) (ws : List Word) (s : State) :
    (Res.state (fabJoinBody c ws s)).kept = s.kept := by
  simp [fabJoinBody]

@[simp] theorem pairConfigApply_kept (ws : List Word) (s : State) :
    (pairConfigApply ws s).kept = s.kept := by
  simp [pairConfigApply]

@[simp] theorem pairConfigBody_kept (c : Ctx) (ws : List Word) (s : State) :
    (Res.state (pairConfigBody c ws s)).kept = s.kept := by
  simp [pairConfigBody]

@[simp] theorem changeJudge_kept (code action : Nat) (ws : List Word) (s : State) :
    ((changeJudge code action ws s).2.2).kept = s.kept := by
  unfold changeJudge; (repeat' split) <;> simp

@[simp] theorem changeApply_kept (code action : Nat) (ws : List Word) (s : State) :
    ((changeApply code action ws s).2).kept = s.kept := by
  unfold changeApply; (repeat' split) <;> simp [kept_prot]

@[simp] theorem protProposeBody_kept (c : Ctx) (ws : List Word) (s : State) :
    (Res.state (protProposeBody c ws s)).kept = s.kept := by
  unfold protProposeBody; simp only []
  split
  · rename_i sp _ hp
    split
    · rfl
    · have := List.mem_of_find?_eq_some hp
      simp at this
      rcases this with h | h | h | h | h | h <;> subst h
      · exact safeCommissionBody_kept _ _ _
      · exact keyInstallBody_kept _ _ _
      · exact fwActivateBody_kept _ _ _
      · exact pairConfigBody_kept _ _ _
      · exact fabJoinBody_kept _ _ _
      · exact chanRestoreBody_kept _ _ _
  · (repeat' split) <;> simp

@[simp] theorem confirmChange_kept (i : Fin 8) (p : Proposal) (k : Fin 8) (s : State) :
    (Res.state (confirmChange i p k s)).kept = s.kept := by
  simp [confirmChange]

@[simp] theorem protConfirmBody_kept (c : Ctx) (ws : List Word) (s : State) :
    (Res.state (protConfirmBody c ws s)).kept = s.kept := by
  unfold protConfirmBody; simp only []; (repeat' split) <;> simp

@[simp] theorem protAbortBody_kept (c : Ctx) (ws : List Word) (s : State) :
    (Res.state (protAbortBody c ws s)).kept = s.kept := by
  simp [protAbortBody]

@[simp] theorem coderReply_kept (k : SettId) (s : State) :
    (Res.state (coderReply k s)).kept = s.kept := by
  simp [coderReply]

@[simp] theorem coderConfigBody_kept (y0 : Ctx) (ws : List Word) (s : State) :
    (Res.state (coderConfigBody y0 ws s)).kept = s.kept := by
  unfold coderConfigBody; simp only []; (repeat' split) <;> simp

@[simp] theorem coderStatusBody_kept (y0 : Ctx) (ws : List Word) (s : State) :
    (Res.state (coderStatusBody y0 ws s)).kept = s.kept := by
  unfold coderStatusBody; simp only []; (repeat' split) <;> simp

@[simp] theorem decodeTestBody_kept (y0 : Ctx) (ws : List Word) (s : State) :
    (Res.state (decodeTestBody y0 ws s)).kept = s.kept := by
  simp [decodeTestBody]

@[simp] theorem State.setSub_kept (s : State) (i : Fin 64) (u : Option Sub) :
    (State.setSub s i u).kept = s.kept := by
  simp [State.setSub]

@[simp] theorem State.setMark_kept (s : State) (i : Fin 256) (m : Option Mark) :
    (State.setMark s i m).kept = s.kept := by
  simp [State.setMark]

@[simp] theorem subOpenBody_kept (y0 : Ctx) (ws : List Word) (s : State) :
    (Res.state (subOpenBody y0 ws s)).kept = s.kept := by
  simp [subOpenBody]

@[simp] theorem subAckBody_kept (y0 : Ctx) (ws : List Word) (s : State) :
    (Res.state (subAckBody y0 ws s)).kept = s.kept := by
  unfold subAckBody; simp only []; (repeat' split) <;> simp

@[simp] theorem subCloseBody_kept (y0 : Ctx) (ws : List Word) (s : State) :
    (Res.state (subCloseBody y0 ws s)).kept = s.kept := by
  simp [subCloseBody]

@[simp] theorem markSetBody_kept (y0 : Ctx) (ws : List Word) (s : State) :
    (Res.state (markSetBody y0 ws s)).kept = s.kept := by
  simp [markSetBody]

@[simp] theorem rewindBody_kept (y0 : Ctx) (ws : List Word) (s : State) :
    (Res.state (rewindBody y0 ws s)).kept = s.kept := by
  unfold rewindBody; simp only []; (repeat' split) <;> simp

@[simp] theorem oldestLc_kept (t : Stream) (s : State) :
    ((oldestLc t s).2).kept = s.kept := by
  unfold oldestLc; (repeat' split) <;> simp

@[simp] theorem hoardStatusBody_kept (y0 : Ctx) (ws : List Word) (s : State) :
    (Res.state (hoardStatusBody y0 ws s)).kept = s.kept := by
  unfold hoardStatusBody; simp only []; (repeat' split) <;> simp

@[simp] theorem resizeRing_kept (t : Fin 54) (mib : BitVec 12) (s : State) :
    (resizeRing t mib s).kept = s.kept := by
  simp [resizeRing]

@[simp] theorem queueReply_kept (q : Fin 76) (s : State) :
    (Res.state (queueReply q s)).kept = s.kept := by
  simp [queueReply]

@[simp] theorem configQueue_kept (q : Fin 76) (w0 w1 : Word) (s : State) :
    (Res.state (configQueue q w0 w1 s)).kept = s.kept := by
  simp [configQueue]

@[simp] theorem ringReply_kept (t : Fin 54) (s : State) :
    (Res.state (ringReply t s)).kept = s.kept := by
  simp [ringReply]

@[simp] theorem configRing_kept (t : Fin 54) (w0 w1 : Word) (s : State) :
    (Res.state (configRing t w0 w1 s)).kept = s.kept := by
  simp [configRing]

@[simp] theorem spillReply_kept (s : State) :
    (Res.state (spillReply s)).kept = s.kept := by
  simp [spillReply]

@[simp] theorem configSpill_kept (w0 w1 : Word) (s : State) :
    (Res.state (configSpill w0 w1 s)).kept = s.kept := by
  simp [configSpill]

@[simp] theorem queueConfigBody_kept (y0 : Ctx) (ws : List Word) (s : State) :
    (Res.state (queueConfigBody y0 ws s)).kept = s.kept := by
  unfold queueConfigBody; simp only []; (repeat' split) <;> simp

@[simp] theorem maybeSuspend_kept (id : Fin 64) (t : Fin 54) (s : State) :
    (maybeSuspend id t s).kept = s.kept := by
  unfold maybeSuspend; (repeat' split) <;> simp

@[simp] theorem neighbourBounds_kept (st : Stream) (q : BitVec 48) (s : State) :
    ((neighbourBounds st q s).2.2).kept = s.kept := by
  unfold neighbourBounds; simp only []; (repeat' split) <;> simp

@[simp] theorem passUnreadable_kept (id : Fin 64) (t : Fin 54) (u : Sub) (q : BitVec 48) (s : State) :
    (passUnreadable id t u q s).kept = s.kept := by
  simp [passUnreadable]

@[simp] theorem declareLost_kept (id : Fin 64) (t : Fin 54) (u : Sub) (oldest : BitVec 48) (s : State) :
    (declareLost id t u oldest s).kept = s.kept := by
  simp [declareLost]

end Sys2Proof.Machine
end

