-- ==== Sys2Proof/Laws/KeptStart.lean ====
section
/-! SUPPORT. The factory data, the queue and the sparse memories under the operations of configuration images, the start-up and the pair. -/

namespace Sys2Proof.Machine

/-- A command whose effect keeps the sparse memories. -/
def CmdSpec.keeps (sp : CmdSpec) : Prop := ∀ c ws s, (sp.body c ws s).state.kept = s.kept

theorem replayCmd_kept (sp : CmdSpec) (h : sp.keeps) (ws : List Word) (s t : State) (ht : replayCmd sp ws s = some t) :
    t.kept = s.kept := by
  unfold replayCmd at ht
  have k := h (replayCtx ws) ws s
  split at ht
  · cases ht
  · split at ht <;> rename_i hr <;> try cases ht
    rw [hr] at k
    split at ht <;> cases ht
    exact k

theorem replayAll_kept (l : List SecCmd) (h : ∀ x ∈ l, x.1.keeps) (s : State) :
    (replayAll l s).1.kept = s.kept ∧ ∀ x ∈ (replayAll l s).2, x.1.keeps := by
  induction l generalizing s with
  | nil => exact ⟨rfl, by simp [replayAll]⟩
  | cons x t ih =>
    obtain ⟨sp, ws⟩ := x
    have ih := ih (fun x hx => h x (List.mem_cons_of_mem _ hx))
    unfold replayAll
    split
    · rename_i s' hs
      have k := replayCmd_kept sp (h _ List.mem_cons_self) ws s s' hs
      exact ⟨(ih s').1.trans k, (ih s').2⟩
    · refine ⟨(ih s).1, ?_⟩
      intro x hx
      rcases List.mem_cons.mp hx with rfl | hx
      · exact h _ List.mem_cons_self
      · exact (ih s).2 x hx

@[simp] theorem applyRanges_kept (ws : List Word) (s : State) :
    (applyRanges ws s).kept = s.kept := by
  simp [applyRanges, kept_factory, kept_pending, kept_banks, kept_owl, kept_prot, kept_img]

@[simp] theorem applyCoef_kept (s : State) (r : List Word) :
    (applyCoef s r).kept = s.kept := by
  unfold applyCoef; (repeat' split) <;> simp

@[simp] theorem applyCoefs_kept (ws : List Word) (s : State) :
    ((applyCoefs ws s).1).kept = s.kept := by
  simp [applyCoefs]

@[simp] theorem applyBlock_kept (ws : List Word) (s : State) :
    ((applyBlock ws s).1).kept = s.kept := by
  unfold applyBlock; simp only []; (repeat' split) <;> simp [kept_owl]

@[simp] theorem applySlots_kept (ws : List Word) (s : State) :
    ((applySlots ws s).1).kept = s.kept := by
  simp [applySlots, kept_prot]

@[simp] theorem applyRetired_kept (ws : List Word) (s : State) :
    (applyRetired ws s).kept = s.kept := by
  simp [applyRetired, kept_factory, kept_pending, kept_banks, kept_owl, kept_prot, kept_img]

@[simp] theorem applyMargins_kept (ws : List Word) (s : State) :
    (applyMargins ws s).kept = s.kept := by
  simp [applyMargins]

@[simp] theorem applyHealth_kept (ws : List Word) (s : State) :
    (applyHealth ws s).kept = s.kept := by
  simp [applyHealth]

@[simp] theorem applyFabImage_kept (ws : List Word) (s : State) :
    ((applyFabImage ws s).1).kept = s.kept := by
  simp [applyFabImage, kept_words]

@[simp] theorem judgeMismatch_kept (s : State) :
    (judgeMismatch s).kept = s.kept := by
  unfold judgeMismatch; (repeat' split) <;> simp [kept_owl]

@[simp] theorem sysConfigBody_kept (y0 : Ctx) (ws : List Word) (s : State) :
    (Res.state (sysConfigBody y0 ws s)).kept = s.kept := by
  simp [sysConfigBody]

theorem keeps_mem_forms (fs : List (CmdSpec × Nat)) (h : ∀ f ∈ fs, f.1.keeps) (ws : List Word) :
    ∀ x ∈ formCommands fs ws, x.1.keeps := by
  induction fs generalizing ws with
  | nil => simp [formCommands]
  | cons f t ih =>
    obtain ⟨sp, n⟩ := f
    simp only [formCommands, List.mem_cons]
    rintro x (rfl | hx)
    · exact h _ List.mem_cons_self
    · exact ih (fun f hf => h f (List.mem_cons_of_mem _ hf)) _ x hx

theorem keeps_mem_fixed (fs : List (CmdSpec × Nat)) (h : ∀ f ∈ fs, f.1.keeps) (ws : List Word) (cs : List SecCmd)
    (hc : fixedCommands fs ws = some cs) : ∀ x ∈ cs, x.1.keeps := by
  unfold fixedCommands at hc
  split at hc <;> cases hc
  exact keeps_mem_forms fs h ws

theorem keeps_mem_even (sp : CmdSpec) (h : sp.keeps) (n k : Nat) (ws : List Word) (cs : List SecCmd)
    (hc : evenCommands sp n k ws = some cs) : ∀ x ∈ cs, x.1.keeps := by
  induction k generalizing ws cs with
  | zero => cases ws <;> simp [evenCommands] at hc; subst hc; simp
  | succ k ih =>
    cases ws with
    | nil => simp [evenCommands] at hc; subst hc; simp
    | cons w t =>
      simp only [evenCommands] at hc
      split at hc
      · cases hc
      · simp only [Option.map_eq_some_iff] at hc
        obtain ⟨r, hr, rfl⟩ := hc
        simp only [List.mem_cons]
        rintro x (rfl | hx)
        · exact h
        · exact ih _ _ hr x hx

theorem keeps_mem_route (he : ethConfigSpec.keeps) (hf : fabRouteSpec.keeps) (k m : Nat) (ws : List Word) (cs : List SecCmd)
    (hc : routeCommands k m ws = some cs) : ∀ x ∈ cs, x.1.keeps := by
  induction k generalizing m ws cs with
  | zero => cases ws <;> simp [routeCommands] at hc; subst hc; simp
  | succ k ih =>
    cases ws with
    | nil => simp [routeCommands] at hc; subst hc; simp
    | cons w t =>
      simp only [routeCommands] at hc
      (repeat' split at hc)
      · cases hc
      all_goals (try cases hc)
      all_goals
        simp only [Option.map_eq_some_iff] at hc
        obtain ⟨r, hr, rfl⟩ := hc
        simp only [List.mem_cons]
        rintro x (rfl | hx)
        · assumption
        · exact ih _ _ _ hr x hx

theorem keeps_mem_counted (sp : CmdSpec) (h : sp.keeps) (len : Word → Nat) (n : Nat) (ws : List Word) :
    ∀ x ∈ (countedCommands sp len n ws).1, x.1.keeps := by
  induction n generalizing ws with
  | zero => simp [countedCommands]
  | succ n ih =>
    simp only [countedCommands, List.mem_cons]
    rintro x (rfl | hx)
    · exact h
    · exact ih _ x hx

theorem fabJoinSpec_keeps : fabJoinSpec.keeps := fabJoinBody_kept

theorem pairConfigSpec_keeps : pairConfigSpec.keeps := pairConfigBody_kept

theorem afeConfigSpec_keeps : afeConfigSpec.keeps := afeConfigBody_kept

theorem afeRangeSpec_keeps : afeRangeSpec.keeps := afeRangeBody_kept

theorem excConfigSpec_keeps : excConfigSpec.keeps := excConfigBody_kept

theorem convModeSpec_keeps : convModeSpec.keeps := convModeBody_kept

theorem fltPresetSpec_keeps : fltPresetSpec.keeps := fltPresetBody_kept

theorem growthSpec_keeps : growthSpec.keeps := growthBody_kept

theorem coderConfigSpec_keeps : coderConfigSpec.keeps := coderConfigBody_kept

theorem delayTapSpec_keeps : delayTapSpec.keeps := delayTapBody_kept

theorem quadConfigSpec_keeps : quadConfigSpec.keeps := quadConfigBody_kept

theorem timeServoSpec_keeps : timeServoSpec.keeps := timeServoBody_kept

theorem timeRoleSpec_keeps : timeRoleSpec.keeps := timeRoleBody_kept

theorem timeStepPolicySpec_keeps : timeStepPolicySpec.keeps := timeStepPolicyBody_kept

theorem laneConfigSpec_keeps : laneConfigSpec.keeps := laneConfigBody_kept

theorem laneEqSpec_keeps : laneEqSpec.keeps := laneEqBody_kept

theorem laneSleepSpec_keeps : laneSleepSpec.keeps := laneSleepBody_kept

theorem fabRouteSpec_keeps : fabRouteSpec.keeps := fabRouteBody_kept

theorem ethConfigSpec_keeps : ethConfigSpec.keeps := ethConfigBody_kept

theorem prjDefineSpec_keeps : prjDefineSpec.keeps := prjDefineBody_kept

theorem prjEnableSpec_keeps : prjEnableSpec.keeps := prjEnableBody_kept

theorem accConfigSpec_keeps : accConfigSpec.keeps := accConfigBody_kept

theorem coefLoadSpec_keeps : coefLoadSpec.keeps := coefLoadBody_kept

theorem tdcConfigSpec_keeps : tdcConfigSpec.keeps := tdcConfigBody_kept

theorem tdcWindowSpec_keeps : tdcWindowSpec.keeps := tdcWindowBody_kept

theorem safePulseSpec_keeps : safePulseSpec.keeps := safePulseBody_kept

theorem settForms_keeps : ∀ f ∈ settForms, f.1.keeps := by
  unfold settForms
  intro f hf
  simp only [List.mem_append, List.mem_replicate, List.mem_cons, List.not_mem_nil, or_false] at hf
  rcases hf with (⟨-, rfl⟩ | ⟨-, rfl⟩) | rfl | rfl | rfl | rfl | rfl | rfl
  · exact afeConfigSpec_keeps
  · exact afeRangeSpec_keeps
  · exact excConfigSpec_keeps
  · exact convModeSpec_keeps
  · exact fltPresetSpec_keeps
  · exact growthSpec_keeps
  · exact coderConfigSpec_keeps
  · exact delayTapSpec_keeps

theorem sectionCommands_keeps (t : Nat) (ws : List Word) (cs : List SecCmd) (h : sectionCommands t ws = some cs) :
    ∀ x ∈ cs, x.1.keeps := by
  unfold sectionCommands at h
  split at h
  · split at h <;> cases h
    exact keeps_mem_forms _ (by simp [fabJoinSpec_keeps, pairConfigSpec_keeps]) _
  · refine keeps_mem_fixed _ ?_ _ _ h
    intro f hf
    obtain ⟨l, hl, hf⟩ := List.mem_flatten.mp hf
    rw [(List.mem_replicate.mp hl).2] at hf
    exact settForms_keeps f hf
  · exact keeps_mem_even _ quadConfigSpec_keeps _ _ _ _ h
  · refine keeps_mem_fixed _ ?_ _ _ h
    intro f hf
    simp only [List.mem_append, List.mem_replicate, List.mem_cons, List.not_mem_nil, or_false] at hf
    rcases hf with ⟨-, rfl⟩ | rfl | rfl
    · exact timeServoSpec_keeps
    · exact timeRoleSpec_keeps
    · exact timeStepPolicySpec_keeps
  · split at h <;> cases h
    refine keeps_mem_forms _ ?_ _
    intro f hf
    obtain ⟨l, hl, hf⟩ := List.mem_flatten.mp hf
    rw [(List.mem_replicate.mp hl).2] at hf
    simp only [List.mem_cons, List.not_mem_nil, or_false] at hf
    rcases hf with rfl | rfl | rfl
    · exact laneConfigSpec_keeps
    · exact laneEqSpec_keeps
    · exact laneSleepSpec_keeps
  · exact keeps_mem_route ethConfigSpec_keeps fabRouteSpec_keeps _ _ _ _ h
  · unfold prjCommands at h
    simp only [] at h
    split at h
    · cases h
    split at h
    · cases h
    simp only [Option.map_eq_some_iff] at h
    obtain ⟨r, hr, rfl⟩ := h
    intro x hx
    simp only [List.mem_append] at hx
    rcases hx with (hx | hx) | hx
    · exact keeps_mem_counted _ prjDefineSpec_keeps _ _ _ x hx
    · split at hx
      · cases hx
      · simp only [List.mem_cons, List.not_mem_nil, or_false] at hx
        subst hx; exact prjEnableSpec_keeps
    · exact keeps_mem_even _ accConfigSpec_keeps _ _ _ _ hr x hx
  · unfold tableAndTdc at h
    simp only [] at h
    split at h
    · cases h
    split at h
    · cases h
    simp only [Option.map_eq_some_iff] at h
    obtain ⟨r, hr, rfl⟩ := h
    intro x hx
    simp only [List.mem_append] at hx
    rcases hx with (hx | hx) | hx
    · exact keeps_mem_counted _ coefLoadSpec_keeps _ _ _ x hx
    · refine keeps_mem_forms _ ?_ _ x hx
      intro f hf
      rw [(List.mem_replicate.mp hf).2]
      exact tdcConfigSpec_keeps
    · exact keeps_mem_even _ tdcWindowSpec_keeps _ _ _ _ hr x hx
  · cases h; simp

theorem applyBlock_keeps (ws : List Word) (s : State) : ∀ x ∈ (applyBlock ws s).2.1, x.1.keeps := by
  unfold applyBlock
  simp only []
  split
  · split
    · simp only [List.mem_map]
      rintro x ⟨w, -, rfl⟩
      exact safePulseSpec_keeps
    · simp
  · simp

theorem Load.cmds_kept (l : Load) (cs : List SecCmd) (h : ∀ x ∈ cs, x.1.keeps) (hl : ∀ x ∈ l.late, x.1.keeps) :
    (l.cmds cs).s.kept = l.s.kept ∧ ∀ x ∈ (l.cmds cs).late, x.1.keeps := by
  have k := replayAll_kept cs h l.s
  refine ⟨k.1, ?_⟩
  intro x hx
  simp only [Load.cmds, List.mem_append] at hx
  exact hx.elim (hl x) (k.2 x)

theorem applySection_kept (l : Load) (x : Sec) (hl : ∀ x ∈ l.late, x.1.keeps) :
    (applySection l x).s.kept = l.s.kept ∧ ∀ c ∈ (applySection l x).late, c.1.keeps := by
  unfold applySection
  simp only []
  split
  · exact ⟨by simp, hl⟩
  · exact ⟨rfl, hl⟩
  · exact ⟨rfl, hl⟩
  · exact ⟨rfl, hl⟩
  · exact ⟨by simp, hl⟩
  · have k := Load.cmds_kept { l with s := (applyBlock x.2 l.s).1 } _ (applyBlock_keeps x.2 l.s) hl
    exact ⟨k.1.trans (by simp), k.2⟩
  · exact ⟨by simp, hl⟩
  · exact ⟨by simp, hl⟩
  · exact ⟨by simp, hl⟩
  · split
    · exact ⟨rfl, hl⟩
    · rename_i cs hc
      have k := Load.cmds_kept l cs (sectionCommands_keeps _ _ _ hc) hl
      split
      · exact ⟨by simpa using k.1, k.2⟩
      · exact k

theorem applySections_fold (ss : List Sec) (l : Load) (hl : ∀ x ∈ l.late, x.1.keeps) :
    (ss.foldl applySection l).s.kept = l.s.kept ∧ ∀ c ∈ (ss.foldl applySection l).late, c.1.keeps := by
  induction ss generalizing l with
  | nil => exact ⟨rfl, hl⟩
  | cons x t ih =>
    have k := applySection_kept l x hl
    have j := ih (applySection l x) k.2
    exact ⟨j.1.trans k.1, j.2⟩

@[simp] theorem applySections_kept (ss : List Sec) (s : State) : (applySections ss s).1.kept = s.kept := by
  have k := applySections_fold ss { s := s, late := [], good := true } (by simp)
  unfold applySections
  simp only [judgeMismatch_kept]
  exact (replayAll_kept _ k.2 _).1.trans k.1

theorem applyCopies_kept (l : List (List Sec)) (s : State) (r : List Sec × State) (h : applyCopies l s = some r) :
    r.2.kept = s.kept := by
  induction l with
  | nil => cases h
  | cons ss t ih =>
    unfold applyCopies at h
    simp only [] at h
    split at h
    · cases h; simp
    · exact ih h

@[simp] theorem applyQueues_kept (ws : List Word) (s : State) : (applyQueues ws s).kept = s.kept := by
  unfold applyQueues
  split
  · rename_i cs hc
    have k := replayAll_kept cs (keeps_mem_even queueConfigSpec queueConfigBody_kept _ _ _ _ hc) s
    exact (replayAll_kept _ k.2 _).1.trans k.1
  · rfl

@[simp] theorem loadResume_kept (full : Write) (s : State) : (loadResume full s).kept = s.kept := by simp [loadResume]

@[simp] theorem loadRest_kept (s : State) : (loadRest s).kept = s.kept := by
  unfold loadRest
  split
  · rfl
  · simp only [State.modPair_kept]; split <;> simp

@[simp] theorem waitStep_kept (code : Byte) (s : State) :
    (waitStep code s).kept = s.kept := by
  simp [waitStep]

@[simp] theorem waitConfig_kept (code : Byte) (s : State) :
    (waitConfig code s).kept = s.kept := by
  simp [waitConfig]

@[simp] theorem releaseClocks_kept (s : State) :
    (releaseClocks s).kept = s.kept := by
  simp [releaseClocks]

@[simp] theorem leadAlone_kept (s : State) : (leadAlone s).kept = s.kept := by
  unfold leadAlone; rw [leadTime_kept]; rfl

@[simp] theorem beginFirmware_kept (s : State) :
    (beginFirmware s).kept = s.kept := by
  unfold beginFirmware; (repeat' split) <;> simp

@[simp] theorem denDone_kept (d : DenId) (s : State) :
    (denDone d s).kept = s.kept := by
  simp [denDone]

@[simp] theorem takeMaps_kept (hits : List (List Nat)) (s : State) :
    (takeMaps hits s).kept = s.kept := by
  simp [takeMaps]

@[simp] theorem flashUnusable_kept (code : Byte) (s : State) :
    (flashUnusable code s).kept = s.kept := by
  simp [flashUnusable]

@[simp] theorem firstNotices_kept (s : State) :
    (firstNotices s).kept = s.kept := by
  simp [firstNotices, kept_factory, kept_pending, kept_banks, kept_owl, kept_prot, kept_img]

@[simp] theorem oweCheckpointFail_kept (s : State) :
    (oweCheckpointFail s).kept = s.kept := by
  unfold oweCheckpointFail; (repeat' split) <;> simp

@[simp] theorem claim_kept (s : State) :
    ((claim s).1).kept = s.kept := by
  simp [claim]

@[simp] theorem claimAtBoot_kept (s : State) :
    (claimAtBoot s).kept = s.kept := by
  simp [claimAtBoot]

@[simp] theorem enterService_kept (s : State) :
    (enterService s).kept = s.kept := by
  simp [enterService]

@[simp] theorem releaseBefore_kept (w : StepFault) (s : State) : (releaseBefore w s).kept = s.kept := by
  unfold releaseBefore; cases w <;> simp only [] <;> split <;> simp

@[simp] theorem pllTimeout_kept (w : StepFault) (code : Byte) (s : State) :
    (pllTimeout w code s).kept = s.kept := by
  simp [pllTimeout]

@[simp] theorem lateStep_kept (what : StepFault) (s : State) :
    (lateStep what s).kept = s.kept := by
  unfold lateStep; (repeat' split) <;> simp

@[simp] theorem jtagDrive_kept (b : JtagBalls) (s : State) :
    (jtagDrive b s).kept = s.kept := by
  simp [jtagDrive]

@[simp] theorem jtagCapture_kept (pins : List Bool) (s : State) :
    (jtagCapture pins s).kept = s.kept := by
  simp [jtagCapture]

@[simp] theorem streamGaps_kept (r : Restore) (subs : List SavedSub) (s : State) (t : Fin 54) :
    (streamGaps r subs s t).kept = s.kept := by
  simp [streamGaps]

@[simp] theorem raiseTakeover_kept (r : Restore) (s : State) :
    (raiseTakeover r s).kept = s.kept := by
  unfold raiseTakeover; exact raise_kept _ _ _

@[simp] theorem restoreMarks_kept (ws : List Word) (s : State) :
    (restoreMarks ws s).kept = s.kept := by
  simp [restoreMarks]

@[simp] theorem finishRestore_kept (s : State) :
    (finishRestore s).kept = s.kept := by
  unfold finishRestore; (repeat' split) <;> simp

@[simp] theorem startTakeover_kept (s : State) :
    (startTakeover s).kept = s.kept := by
  simp [startTakeover]

@[simp] theorem partnerSilent_kept (s : State) :
    (partnerSilent s).kept = s.kept := by
  simp [partnerSilent]

@[simp] theorem storeRetained_kept (s : State) :
    (storeRetained s).kept = s.kept := by
  simp [storeRetained]

@[simp] theorem beUnfit_kept (lead : Member) (s : State) :
    (beUnfit lead s).kept = s.kept := by
  simp [beUnfit]

@[simp] theorem beginWrite_kept (full : Bool) (s : State) :
    (beginWrite full s).kept = s.kept := by
  simp [beginWrite]

@[simp] theorem answerYield_kept (s : State) : (answerYield s).kept = s.kept := by
  unfold answerYield; split <;> simp

@[simp] theorem afterFull_kept (final : Bool) (s : State) :
    (afterFull final s).kept = s.kept := by
  simp [afterFull]

@[simp] theorem failWrite_kept (c : Checkpoint) (s : State) :
    (failWrite c s).kept = s.kept := by
  simp [failWrite]

@[simp] theorem takeRetained_kept (s : State) :
    (takeRetained s).kept = s.kept := by
  simp [takeRetained, kept_factory, kept_pending, kept_banks, kept_owl, kept_prot, kept_img]

@[simp] theorem startRetainedLanes_kept (s : State) :
    (startRetainedLanes s).kept = s.kept := by
  simp [startRetainedLanes]

@[simp] theorem withoutCheckpoint_kept (cause : BitVec 2) (s : State) :
    (withoutCheckpoint cause s).kept = s.kept := by
  simp [withoutCheckpoint]

@[simp] theorem pairYieldBody_kept (c : Ctx) (ws : List Word) (s : State) :
    (Res.state (pairYieldBody c ws s)).kept = s.kept := by
  simp [pairYieldBody]

end Sys2Proof.Machine
end

