-- ==== Sys2Proof/Laws/Good.lean ====
section
/-! SUPPORT. The operations that write a sparse memory keep its canonical form. -/

namespace Sys2Proof.Machine

/-- The sparse memories in canonical form. -/
def Kept.rising (k : Kept) : Prop :=
  (∀ b ∈ k.banks, Rising b) ∧ Rising k.owl ∧ Rising k.prot ∧ Rising k.img

/-- What every command leaves: the factory data, the queue, and canonical sparse memories. -/
structure Kept.Good (a b : Kept) : Prop where
  factory : b.factory = a.factory
  pending : b.pending = a.pending
  rising : a.rising → b.rising

theorem Kept.Good.refl (a : Kept) : a.Good a := ⟨rfl, rfl, id⟩

theorem Kept.Good.trans {a b c : Kept} (h : a.Good b) (k : b.Good c) : a.Good c :=
  ⟨k.factory.trans h.factory, k.pending.trans h.pending, k.rising ∘ h.rising⟩

theorem mem_putAt {α : Type} (k : Nat) (v : α) (l : List (Nat × α)) (x : Nat × α) (h : x ∈ putAt k v l) :
    x.1 = k ∨ x ∈ l := by
  induction l with
  | nil => simp [putAt] at h; simp [h]
  | cons y t ih =>
    obtain ⟨j, z⟩ := y
    unfold putAt at h
    (repeat' split at h) <;> simp only [List.mem_cons] at h ⊢
    · rcases h with rfl | h | h <;> simp_all
    · rcases h with rfl | h <;> simp_all
    · rcases h with h | h
      · simp [h]
      · rcases ih h with h | h <;> simp [h]

theorem putAt_rising {α : Type} (k : Nat) (v : α) (l : List (Nat × α)) (h : Rising l) : Rising (putAt k v l) := by
  induction l with
  | nil => simp [putAt, Rising]
  | cons y t ih =>
    obtain ⟨j, z⟩ := y
    have ht : Rising t := (List.pairwise_cons.mp h).2
    have hj : ∀ x ∈ t, j < x.1 := (List.pairwise_cons.mp h).1
    unfold putAt
    split
    · rename_i hk
      refine List.pairwise_cons.mpr ⟨?_, h⟩
      intro x hx
      rcases List.mem_cons.mp hx with rfl | hx
      · exact hk
      · exact Nat.lt_trans hk (hj x hx)
    split
    · rename_i hk
      subst hk
      exact List.pairwise_cons.mpr ⟨hj, ht⟩
    · refine List.pairwise_cons.mpr ⟨?_, ih ht⟩
      intro x hx
      rcases mem_putAt k v t x hx with hx | hx
      · simp only [hx]; omega
      · exact hj x hx

theorem putAll_rising {α : Type} (vs : List α) (k : Nat) (l : List (Nat × α)) (h : Rising l) : Rising (putAll k vs l) := by
  induction vs generalizing k l with
  | nil => exact h
  | cons v t ih => exact ih _ _ (putAt_rising k v l h)

theorem rising_nil {α : Type} : Rising ([] : List (Nat × α)) := List.Pairwise.nil

theorem mem_vmod_words {n : Nat} (v : Vector Bank n) (i : Fin n) (f : Bank → Bank) (P : List (Nat × Word64) → Prop)
    (hv : ∀ b ∈ v.toList.map Bank.words, P b) (hf : P (v[i]).words → P (f v[i]).words) :
    ∀ b ∈ (vmod v i f).toList.map Bank.words, P b := by
  intro b hb
  obtain ⟨x, hx, rfl⟩ := List.mem_map.mp hb
  unfold vmod at hx
  rw [Vector.mem_toList_iff] at hx
  rcases Vector.mem_or_eq_of_mem_set hx with h | h
  · exact hv _ (List.mem_map_of_mem (by rwa [Vector.mem_toList_iff]))
  · rw [h]
    exact hf (hv _ (List.mem_map_of_mem (by simp [Vector.mem_toList_iff])))

theorem modShadow_write_good (first : Bool) (k : Nat) (ws : List Word64) (s : State) :
    s.kept.Good (modShadow (fun b => b.write first k ws) s).kept := by
  refine ⟨rfl, rfl, fun h => ⟨?_, h.2⟩⟩
  refine mem_vmod_words _ _ _ Rising h.1 ?_
  intro hb
  exact putAll_rising _ _ _ (by split <;> first | exact rising_nil | exact hb)

theorem good_of_kept {a b : Kept} (h : b = a) : a.Good b := h ▸ Kept.Good.refl a

theorem planWriteBody_good (c : Ctx) (ws : List Word) (s : State) : s.kept.Good (planWriteBody c ws s).state.kept := by
  unfold planWriteBody
  simp only []
  (repeat' split)
  · exact Kept.Good.refl _
  · exact Kept.Good.refl _
  · exact modShadow_write_good _ _ _ _

theorem loadPlan_good (ws : List Word) (s : State) : s.kept.Good (loadPlan ws s).1.kept := by
  have k := modShadow_write_good true 0 (pairWords ws) s
  have v := planValidateBody_kept (replayCtx []) [0] (modShadow (fun b => b.write true 0 (pairWords ws)) s)
  unfold loadPlan
  simp only []
  split
  · rename_i hr; rw [hr] at v
    exact k.trans (good_of_kept v)
  · exact k

theorem bootPlan_good (img : Option (List Word)) (s : State) : s.kept.Good (bootPlan img s).kept := by
  unfold bootPlan
  split
  · exact good_of_kept (by simp)
  · rename_i ws
    simp only []
    split <;> exact (loadPlan_good ws s).trans (good_of_kept (by simp [kept_lists]))

theorem loadCheckpoint_good (full : Write) (boot : List Sec) (s : State) : s.kept.Good (loadCheckpoint full boot s).kept := by
  have k := bootPlan_good ((findSection full.2 0x08).orElse fun _ => findSection boot 0x08) (loadRest (loadResume full s))
  rwa [loadRest_kept, loadResume_kept] at k

theorem loadCopies_good (a b : List Byte) (s : State) : s.kept.Good (loadCopies a b s).kept := by
  unfold loadCopies
  split
  · exact good_of_kept (by simp)
  · rename_i ss s1 h
    have k := applyCopies_kept _ _ _ h
    simp only [] at k
    rw [← k]
    split
    · exact good_of_kept (by simp [kept_words])
    · exact bootPlan_good _ _

theorem loadConfig_good (a b : List Byte) (s : State) : s.kept.Good (loadConfig a b s).kept := by
  unfold loadConfig
  split
  · exact good_of_kept (by simp)
  · split
    · split
      · exact loadCheckpoint_good _ _ _
      · exact loadCopies_good _ _ _
    · exact loadCopies_good _ _ _

theorem resumeClaim_good (s : State) : s.kept.Good (resumeClaim s).kept := by
  unfold resumeClaim
  split
  · split
    · exact Kept.Good.refl _
    · refine (good_of_kept ?_).trans (loadConfig_good _ _ _)
      simp
  · exact Kept.Good.refl _

theorem takeoverPlan_good (a b : List Byte) (s : State) : s.kept.Good (takeoverPlan a b s).kept := by
  unfold takeoverPlan
  split
  · exact loadPlan_good _ _
  · exact Kept.Good.refl _

theorem loadPlanSection_good (ss : List Sec) (s : State) : s.kept.Good (loadPlanSection ss s).kept := by
  unfold loadPlanSection
  split
  · exact loadPlan_good _ _
  · exact Kept.Good.refl _

theorem coreLoss_good (s : State) : s.kept.Good (coreLoss s).kept :=
  ⟨rfl, rfl, fun _ => ⟨fun b hb => by
    have : b = [] := by
      have e : (coreLoss s).kept.banks = [[], []] := rfl
      rw [e] at hb; simpa using hb
    exact this ▸ rising_nil, rising_nil, rising_nil, rising_nil⟩⟩

theorem enterHibernate_good (s : State) : s.kept.Good (enterHibernate s).kept := coreLoss_good s

theorem resetBy_good (b : Nat) (f : Sources → Sources) (s : State) : s.kept.Good (resetBy b f s).kept := by
  unfold resetBy
  simp only []
  split
  · exact Kept.Good.refl _
  · exact coreLoss_good s

theorem pulseBy_good (b : Nat) (f : Sources → Sources) (s : State) : s.kept.Good (pulseBy b f s).kept :=
  (resetBy_good b f s).trans (good_of_kept (by simp [pulseBy]))

theorem goTo_good (w : Word) (s : State) : s.kept.Good (goTo w s).kept := by
  unfold goTo
  split
  · exact enterHibernate_good s
  · exact good_of_kept (by (repeat' split) <;> simp)
  · exact good_of_kept (by simp)
  · exact good_of_kept (by simp)

theorem sysModeSetBody_good (c : Ctx) (ws : List Word) (s : State) : s.kept.Good (sysModeSetBody c ws s).state.kept := by
  unfold sysModeSetBody
  simp only []
  split
  · exact Kept.Good.refl _
  · exact goTo_good _ _

theorem modFab_good (s t : State) (f : Fab → Fab) (ht : s.kept.Good t.kept)
    (h : Rising s.kept.img → Rising (f t.fab).stagedWords) : s.kept.Good (t.modFab f).kept :=
  ⟨ht.factory, ht.pending, fun k => ⟨(ht.rising k).1, (ht.rising k).2.1, (ht.rising k).2.2.1, h k.2.2.2⟩⟩

theorem fabPublishBody_good (c : Ctx) (ws : List Word) (s : State) : s.kept.Good (fabPublishBody c ws s).state.kept := by
  have a : ∀ old k l o, (Rising s.kept.img → Rising old) → s.kept.Good (s.modFab fun f =>
      { f with staged := some { words := putAll k l old, applyTk := o } }).kept :=
    fun old k l o h => modFab_good s s _ (Kept.Good.refl _) (fun hs => putAll_rising _ _ _ (h hs))
  have b : ∀ old k l o n, (Rising s.kept.img → Rising old) → s.kept.Good ((s.modFab fun f =>
      { f with staged := some { words := putAll k l old, applyTk := o } }).modFab fun f => { f with staged := none, next := n }).kept :=
    fun old k l o n h => modFab_good s _ _ (a old k l o h) (fun _ => rising_nil)
  unfold fabPublishBody
  simp only []
  (repeat' split) <;> simp only [res_refuse, res_done, distribute_kept] <;> first
    | exact Kept.Good.refl _
    | exact a _ _ _ _ (fun _ => rising_nil)
    | exact a _ _ _ _ id
    | exact b _ _ _ _ _ (fun _ => rising_nil)
    | exact b _ _ _ _ _ id

theorem modOwl_good (s t : State) (f : Owl → Owl) (ht : s.kept.Good t.kept)
    (h : Rising s.kept.owl → Rising (f t.owl).staged) : s.kept.Good (t.modOwl f).kept :=
  ⟨ht.factory, ht.pending, fun k => ⟨(ht.rising k).1, h k.2.1, (ht.rising k).2.2⟩⟩

theorem safeParamBody_good (c : Ctx) (ws : List Word) (s : State) : s.kept.Good (safeParamBody c ws s).state.kept := by
  have k : (withdrawProposals isCommission s).kept = s.kept := by simp
  unfold safeParamBody
  simp only []
  generalize withdrawProposals isCommission s = t at k ⊢
  split
  · exact Kept.Good.refl _
  · rw [res_done]
    refine modOwl_good s t _ (good_of_kept k) (fun h => putAll_rising _ _ _ ?_)
    have e : t.owl.staged = s.kept.owl := by rw [kept_owl, k]
    split
    · exact rising_nil
    · rw [e]; exact h

theorem storeChunk_rising (first : Bool) (k : Nat) (ws : List Word) (p : Prot) (h : Rising p.staged) :
    Rising (storeChunk first k ws p).staged := by
  unfold storeChunk
  (repeat' split)
  · exact putAll_rising _ _ _ rising_nil
  · exact h
  · exact putAll_rising _ _ _ h

theorem fwStageBody_good (c : Ctx) (ws : List Word) (s : State) : s.kept.Good (fwStageBody c ws s).state.kept := by
  have k : ∀ first at_ l t, t.kept = s.kept → s.kept.Good (State.modProt t (storeChunk first at_ l)).kept := by
    intro first at_ l t ht
    rw [State.modProt_kept, ht]
    refine ⟨rfl, rfl, fun h => ⟨h.1, h.2.1, storeChunk_rising _ _ _ _ ?_, h.2.2.2⟩⟩
    have : t.prot.staged = s.kept.prot := by rw [← ht]; rfl
    rw [this]; exact h.2.2.1
  unfold fwStageBody
  simp only []
  split
  · exact Kept.Good.refl _
  · (repeat' split) <;> simp only [res_done, checkStaged_kept] <;> exact k _ _ _ _ (by simp)

theorem standDown_good (s : State) : s.kept.Good (standDown s).kept := by
  unfold standDown
  simp only [State.modPair_kept]
  refine Kept.Good.trans (good_of_kept ?_) (enterHibernate_good _)
  simp

theorem beginFull_good (s : State) : s.kept.Good (beginFull s).kept := by
  unfold beginFull
  split
  · exact standDown_good s
  · exact good_of_kept (by simp)

theorem askWrite_good (full : Bool) (s : State) : s.kept.Good (askWrite full s).kept := by
  unfold askWrite
  (repeat' split)
  · exact good_of_kept (by simp)
  · exact beginFull_good s
  · exact good_of_kept (by simp)

theorem nextWrite_good (full : Bool) (s : State) : s.kept.Good (nextWrite full s).kept := by
  unfold nextWrite
  simp only []
  (repeat' split) <;> first
    | exact Kept.Good.refl _
    | exact beginFull_good s
    | exact good_of_kept (by simp)

theorem checkpointNowBody_good (c : Ctx) (ws : List Word) (s : State) : s.kept.Good (checkpointNowBody c ws s).state.kept := by
  unfold checkpointNowBody
  simp only []
  split
  · exact Kept.Good.refl _
  split
  · exact Kept.Good.refl _
  · rw [res_deferred]
    split
    · refine Kept.Good.trans (good_of_kept ?_) (askWrite_good _ _)
      simp
    · exact good_of_kept (by simp)

theorem serve_good (sp : CmdSpec) (h : ∀ c ws (s : State), s.kept.Good (sp.body c ws s).state.kept) (p : Packet) (s : State) :
    s.kept.Good (Out.settle (serve sp p s) s).kept :=
  serveState_holds (s.kept.Good ·) sp p s (fun c t ht => ht.trans (h c _ t)) (Kept.Good.refl _)

theorem canonical_iff (s : State) : s.Canonical ↔ s.kept.rising := by
  have e : s.kept.banks = [(s.plan.banks[(0 : Fin 2)]).words, (s.plan.banks[(1 : Fin 2)]).words] := by
    simp only [State.kept, Plan.lists]
    apply List.ext_getElem
    · simp
    · intro i h1 h2
      have : i = 0 ∨ i = 1 := by simp at h2; omega
      rcases this with rfl | rfl <;> simp
  unfold State.Canonical Kept.rising
  rw [e]
  simp only [List.mem_cons, List.not_mem_nil, or_false, forall_eq_or_imp, forall_eq]
  constructor
  · rintro ⟨h, k⟩
    exact ⟨⟨h 0, h 1⟩, k⟩
  · rintro ⟨⟨a, b⟩, k⟩
    refine ⟨fun i => ?_, k⟩
    match i with
    | 0 => exact a
    | 1 => exact b

end Sys2Proof.Machine
end

