-- ==== Sys2Proof/Machine/Pcs.lean ====
section
/-!
DEFINITION. The bits of a lane: 66-bit blocks and their scrambler, the monitors of sync headers, the PRBS patterns and their
checker, error injection, and the taps of the transmitter. No command carries the bits of a lane, so nothing here changes the
state: the rows of the lanes tell what these rules decide (log entry 222).
-/

namespace Sys2Proof.Machine

/-! Blocks and the scrambler (R377, R378). -/

/-- A 64-bit block (R377). -/
structure PcsBlock where
  control : Bool
  payload : Word64
  deriving DecidableEq, Repr

/-- The sync header: 0b01 for a data block, 0b10 for a control block (R377). -/
def PcsBlock.header (b : PcsBlock) : BitVec 2 := if b.control then 2 else 1

/-- 0b00 and 0b11 are invalid (R377). -/
def headerValid (h : BitVec 2) : Bool := h == 1 || h == 2

/-- The block type: the first payload byte of a control block (R378). -/
def PcsBlock.type (b : PcsBlock) : Option Byte := if b.control then some (b.payload.extractLsb' 0 8) else none

/-- The IDLE and QUIET blocks (R378). -/
def idleBlock : PcsBlock := { control := true, payload := 0x1E }
def quietBlock : PcsBlock := { control := true, payload := 0x2D }

/-- A data block in the sense of the lane layer: header 0b01, or a control block other than IDLE and QUIET (R378). -/
def PcsBlock.isData (b : PcsBlock) : Bool := b.type != some 0x1E && b.type != some 0x2D

/-- One bit through the scrambler x^58 + x^39 + 1; its state holds the last 58 bits sent, the newest in bit 0 (R377). -/
def scrambleBit (r : BitVec 58) (b : Bool) : BitVec 58 × Bool :=
  let o := b ^^ (r.getLsbD 38 ^^ r.getLsbD 57)
  ((r <<< 1) ||| (BitVec.ofBool o).setWidth 58, o)

/-- One bit through the descrambler, whose state holds the last 58 bits received (R377). -/
def descrambleBit (r : BitVec 58) (b : Bool) : BitVec 58 × Bool :=
  ((r <<< 1) ||| (BitVec.ofBool b).setWidth 58, b ^^ (r.getLsbD 38 ^^ r.getLsbD 57))

/-- Bits through a stage that keeps a state. -/
def throughBits {α : Type} (f : α → Bool → α × Bool) : α → List Bool → α × List Bool
  | r, [] => (r, [])
  | r, b :: t =>
    let x := f r b
    let y := throughBits f x.1 t
    (y.1, x.2 :: y.2)

/-- The bits of a number, least significant first. -/
def lsbFirst (n : Nat) (v : BitVec n) : List Bool := (List.range n).map v.getLsbD

/-- The 66 bits of a block as sent: the sync header first and unscrambled, then the scrambled payload, each least significant
bit first (R377). -/
def sendBlock (r : BitVec 58) (b : PcsBlock) : BitVec 58 × List Bool :=
  let x := throughBits scrambleBit r (lsbFirst 64 b.payload)
  (x.1, lsbFirst 2 b.header ++ x.2)

/-- A block as received: its header, and its payload bits descrambled (R377). -/
def receiveBlock (r : BitVec 58) (bits : List Bool) : BitVec 58 × BitVec 2 × List Bool :=
  let x := throughBits descrambleBit r (bits.drop 2)
  (x.1, BitVec.ofNat 2 (b2n (bits.getD 0 false) + 2 * b2n (bits.getD 1 false)), x.2)

/-! Frames as blocks (R407). -/

/-- The types of the TERM blocks that carry 0 to 7 bytes (R407). -/
def termTypes : List Byte := [0x87, 0x99, 0xAA, 0xB4, 0xCC, 0xD2, 0xE1, 0xFF]

/-- A block of a type byte and up to 7 more bytes; what is left is 0. -/
def controlBlock (ty : Byte) (bs : List Byte) : PcsBlock := { control := true, payload := BitVec.ofNat 64 (leNat (ty :: bs.take 7)) }

/-- The data blocks of 8 bytes and the TERM block of what is left (R407). The first operand bounds their number. -/
def dataBlocks : Nat → List Byte → List PcsBlock
  | 0, bs => [controlBlock (termTypes.getD bs.length 0x87) bs]
  | n + 1, bs =>
    if bs.length < 8 then [controlBlock (termTypes.getD bs.length 0x87) bs]
    else { control := false, payload := BitVec.ofNat 64 (leNat (bs.take 8)) } :: dataBlocks n (bs.drop 8)

/-- The bytes of a frame on the line (R405). -/
def lineBytes (f : Frame) : List Byte := bytesOfWords ([f.w0, f.w1, f.w2, f.w3] ++ f.payload ++ [f.crc])

/-- A frame as blocks: START with bytes 0 to 6, data blocks, TERM with the last bytes (R407). -/
def frameBlocks (bs : List Byte) : List PcsBlock := controlBlock 0x78 (bs.take 7) :: dataBlocks bs.length (bs.drop 7)

/-- A LINK_CTL block (R407). -/
def linkBlock (b : BitVec 56) : PcsBlock := { control := true, payload := (b ++ (0x4B : Byte)) }

/-! Sync headers (R379). -/

/-- What a receiver knows of the headers: the newest 64 first, true for a valid one (R379). -/
def seeHeader (h : BitVec 2) (seen : List Bool) : List Bool := (headerValid h :: seen).take 64

/-- Block lock is gained: 64 consecutive valid headers (R379). -/
def lockGained (seen : List Bool) : Bool := seen.length == 64 && seen.all id

/-- Block lock is lost: 16 of the last 64 headers are invalid (R379). -/
def lockLost (seen : List Bool) : Bool := decide (16 ≤ seen.countP fun v => !v)

/-- The HI_BER window of a rate in ns, and the invalid headers within it that raise HI_BER (R379). -/
def hiBerWindow (rate : Bool) : Nat × Nat := if rate then (2000000, 97) else (125000, 16)

/-- HI_BER is raised, or stays, by the invalid headers of one window (R379). -/
def hiBerRaised (rate : Bool) (invalid : Nat) : Bool := decide ((hiBerWindow rate).2 ≤ invalid)

/-! PRBS patterns (R393, R394). -/

/-- The taps n and m of the polynomial x^n + x^m + 1 of a pattern (R393). -/
def prbsTaps (pat : BitVec 2) : Nat × Nat :=
  match pat.toNat with
  | 0 => (7, 6)
  | 1 => (15, 14)
  | 2 => (23, 18)
  | _ => (31, 28)

/-- The next bit of a pattern after the bits before it, the newest in bit 0 (R393). -/
def prbsNext (pat : BitVec 2) (r : BitVec 31) : Bool := r.getLsbD ((prbsTaps pat).1 - 1) ^^ r.getLsbD ((prbsTaps pat).2 - 1)

/-- One step of the generator: what it keeps, and what it sends, inverted with TX_PINV (R393). -/
def prbsStep (pat : BitVec 2) (invert : Bool) (r : BitVec 31) : BitVec 31 × Bool :=
  let b := prbsNext pat r
  ((r <<< 1) ||| (BitVec.ofBool b).setWidth 31, b ^^ invert)

/-- A received bit is in error: it differs from what the bits before it predict (R394). -/
def prbsError (pat : BitVec 2) (r : BitVec 31) (b : Bool) : Bool := b != prbsNext pat r

/-- The checker locks after 64 consecutive error-free bits, the newest first (R394). -/
def checkerLocks (errs : List Bool) : Bool := decide (64 ≤ errs.length) && (errs.take 64).all (!·)

/-- The checker loses lock when 256 or more of the last 1,024 bits are in error (R394). -/
def checkerLoses (errs : List Bool) : Bool := decide (256 ≤ (errs.take 1024).countP id)

/-! Error injection (R395). -/

/-- Bit i after INJ_GO is inverted: it lies in one of the INJ_COUNT bursts, 2^INTERVAL_LOG2 bits apart (R395). -/
def injects (burst count interval i : Nat) : Bool := decide (i / 2 ^ interval < count) && decide (i % 2 ^ interval < burst)

/-- A stream of bits with the injections in it (R395). -/
def injectBits (burst count interval : Nat) (bits : List Bool) : List Bool :=
  bits.mapIdx fun i b => b ^^ injects burst count interval i

/-! The transmitter (R384). -/

/-- A bit as the FIR takes it. -/
def bitSign (b : Bool) : Int := if b then 1 else -1

/-- The level that the transmitter drives for a bit, in 1/63 of the full swing: MAIN times the bit less PRE times the bit after
it and POST times the bit before it; inverted with TX_INV (R384, R400). -/
def txLevel (t : TxTaps) (invert : Bool) (before bit after : Bool) : Int :=
  (if invert then -1 else 1) * (t.main.toNat * bitSign bit - t.pre.toNat * bitSign after - t.post.toNat * bitSign before)

/-- What the transmitter of a port drives: nothing while it is OFF or in electrical idle (R382, R384, R389). -/
def State.txDrives (s : State) (p : Port) (before bit after : Bool) : Option Int :=
  let l := s.lane p
  if l.tx == .on || l.tx == .prbs then some (txLevel l.tapsNow (l.settings.getLsbD 5) before bit after) else none

end Sys2Proof.Machine
end

