-- ==== Sys2Proof/Laws/Pcs.lean ====
section
/-! SUPPORT. The descrambler undoes the scrambler from equal states, so a block is received as it was sent (R377). -/

namespace Sys2Proof.Laws

open Machine

/-- One bit comes back, and both states agree again. -/
theorem descramble_scramble (r : BitVec 58) (b : Bool) :
    descrambleBit r (scrambleBit r b).2 = ((scrambleBit r b).1, b) := by
  simp [descrambleBit, scrambleBit]

/-- All bits come back. -/
theorem descramble_all (r : BitVec 58) (l : List Bool) :
    throughBits descrambleBit r (throughBits scrambleBit r l).2 = ((throughBits scrambleBit r l).1, l) := by
  induction l generalizing r with
  | nil => rfl
  | cons b t ih => simp [throughBits, descramble_scramble, ih]

/-- A block is received with its header and its payload (R377). -/
theorem receive_send (r : BitVec 58) (b : PcsBlock) :
    receiveBlock r (sendBlock r b).2 = ((sendBlock r b).1, b.header, lsbFirst 64 b.payload) := by
  have h1 : lsbFirst 2 1#2 = [true, false] := by decide
  have h2 : lsbFirst 2 2#2 = [false, true] := by decide
  cases hc : b.control <;> simp [receiveBlock, sendBlock, h1, h2, descramble_all, PcsBlock.header, hc, b2n]

/-- The header that a block carries is valid. -/
theorem header_valid (b : PcsBlock) : headerValid b.header = true := by
  cases hc : b.control <;> simp [PcsBlock.header, headerValid, hc]

/-- The number of blocks after START. -/
theorem dataBlocks_length (n : Nat) : ∀ bs : List Byte, bs.length ≤ n → (dataBlocks n bs).length = 1 + bs.length / 8 := by
  induction n with
  | zero => intro bs h; cases bs <;> simp_all [dataBlocks]
  | succ n ih =>
    intro bs h
    unfold dataBlocks
    split
    · simp; omega
    · have h2 : (bs.drop 8).length ≤ n := by simp; omega
      simp only [List.length_cons, ih _ h2, List.length_drop]; omega

/-- A frame of B bytes takes 2 + ⌊(B − 7)/8⌋ blocks (R407). -/
theorem frameBlocks_length (bs : List Byte) : (frameBlocks bs).length = 2 + (bs.length - 7) / 8 := by
  have h : (bs.drop 7).length ≤ bs.length := by simp
  simp only [frameBlocks, List.length_cons, dataBlocks_length _ _ h, List.length_drop]; omega

end Sys2Proof.Laws
end

