-- ==== Sys2Proof/Machine/Pins.lean ====
section
/-!
DEFINITION. What the balls carry, read from the state: which the hub drives and at what level, the reads of the boot flash and
the writes of the pair memory. Nothing here changes the state: a command that changes what a ball carries changes the fields
that these functions read.
-/

namespace Sys2Proof.Machine

/-! The control port and the safety outputs (R50, R59). -/

/-- CTL_IRQ_N is pulled low: a notice is unacknowledged and the control balls are released from isolation (R50, R59). -/
def State.irqPulled (s : State) : Bool := s.portLive && !s.ctlIrqN

/-- SO_n is high: energised, with the driver out of isolation (R50, R59). -/
def State.soHigh (s : State) (n : Fin 8) : Bool := s.served && (s.owl.sos[n]).energised

/-! The pair balls (R55, R59, R529). -/

/-- PAIR_SPI_SCK, PAIR_SPI_CS_N and PAIR_SPI_MOSI are driven: only while this hub holds ownership; else high impedance (R55). -/
def State.spiDriven (s : State) : Bool := s.served && s.pair.owns

/-- PAIR_OWN is driven high (R529); else released. -/
def State.ownDriven (s : State) : Bool := s.pair.owns

/-- PAIR_HB_OUT is driven: in Start-up, Service, Safe-Core and Test (R59). -/
def State.heartbeatDriven (s : State) : Bool := s.served

/-! Writes of the pair memory (R527, R531, R538). -/

/-- Bytes from an address on as write instructions: each ends at the next 256-byte boundary at the latest, so none holds more
than 256 bytes and none crosses a boundary. The first operand bounds their number. -/
def spiChunks : Nat → Nat → List Byte → List (Nat × List Byte)
  | _, _, [] => []
  | 0, _, _ => []
  | n + 1, addr, b :: t =>
    let k := 256 - addr % 256
    (addr, (b :: t).take k) :: spiChunks n (addr + k) ((b :: t).drop k)

/-- The write instructions 0x02 that put bytes at an address, in order (R527). -/
def spiWrites (addr : Nat) (bytes : List Byte) : List (Nat × List Byte) := spiChunks bytes.length addr bytes

/-- Addresses of the checkpoint slots: full 0 and 1, delta 0 and 1 (R538). -/
def slotAddr (i : Fin 4) : Nat :=
  match i with
  | 0 => 0x010000
  | 1 => 0x068000
  | 2 => 0x0C0000
  | 3 => 0x0E0000

/-- Addresses of the ownership word and of its copy (R531). -/
def ownAddr (i : Fin 2) : Nat := if i = 0 then 0x000000 else 0x000020

/-- The instructions of the checkpoint write in progress (R527, R539). -/
def State.checkpointWrites (s : State) : List (Nat × List Byte) :=
  match s.pair.writing with
  | none => []
  | some c => if s.spiDriven then spiWrites (slotAddr (s.pair.slotFor c.isFull)) (bytesOfWords c.words) else []

/-- The instructions with which a claim writes the ownership word and its copy (R529, R531). -/
def claimWrites (words : List Word) : List (Nat × List Byte) :=
  spiWrites (ownAddr 0) (bytesOfWords words) ++ spiWrites (ownAddr 1) (bytesOfWords words)

/-! The boot flash (R96). -/

/-- BOOT_SCK, BOOT_CS_N and BOOT_IO are driven: only while the hub reads the flash for the firmware, the boot configuration or
the plan of a takeover (R88, R89, R96, R536, R544). -/
def State.bootDriven (s : State) : Bool := s.readingFlash || s.readingConfig || s.wantsPlan

/-- The one instruction that the hub issues to the flash: the quad I/O read. It never writes (R96). -/
def State.bootInstruction (s : State) : Option Byte := if s.bootDriven then some 0xEB else none

/-- The part of the flash that is read: address and size (R96). -/
def State.bootPart (s : State) : List (Nat × Nat) :=
  if s.readingFlash then [flashFirmware] else if s.readingConfig || s.wantsPlan then [flashCopyA, flashCopyB] else []

/-! The analogue balls (R59, R103, R115, R116). -/

/-- The pull resistors of an input pair are connected: the channel is enabled with OPEN_DET and its balls are out of isolation
(R103). -/
def State.pullsConnected (s : State) (c : Chan) : Bool := (s.chans[c]).enable && (s.chans[c]).openDet && s.frontPins

/-- V_SET in volts (R115). -/
def vSet (vcode : Byte) : Rat := 1 + 7 / 2 * (vcode.toNat : Rat) / 255

/-- The highest V_OUT that the driver reaches at a level of VDD_EXC, in volts (R115). -/
def driverReach (vddExc : Rat) : Rat := min (2 * vddExc - 27 / 5) (23 / 5)

/-- What a driver holds at V_SET (R116). -/
inductive RegPoint
  /-- OFF: nothing, the driver is high impedance -/
  | none
  /-- REMOTE_REG: SNS_P less SNS_N -/
  | sense
  /-- RATIO: EXC_P less EXC_N -/
  | output
  deriving DecidableEq, Repr

/-- The regulated point of an excitation mode; 0b11 is never held (R116, R131). -/
def regPoint (mode : BitVec 2) : RegPoint := if mode = 1 then .sense else if mode = 2 then .output else .none

/-- V_OUT of a driver that is on, for a lead drop: V_SET at the regulated point, within the driver's reach (R115, R116). -/
def vOut (mode : BitVec 2) (vcode : Byte) (lead vddExc : Rat) : Rat :=
  min (vSet vcode + (if regPoint mode = .sense then lead else 0)) (driverReach vddExc)

/-- Levels of EXC_P and EXC_N in volts; none while they are high impedance (R115, R116). -/
def State.excLevels (s : State) (k : SettId) (lead vddExc : Rat) : Option (Rat × Rat) :=
  let x := s.setts[k]
  if x.driving && x.excMode != 0 then
    let v := vOut x.excMode x.vcode lead vddExc
    some (5 / 2 + v / 2, 5 / 2 - v / 2)
  else none

end Sys2Proof.Machine
end

