-- ==== Sys2Proof/Laws/Pins.lean ====
section
/-!
SUPPORT. The write instructions of the pair memory: they hold the bytes in order, none holds more than 256 and none crosses a
boundary (R527).
-/

namespace Sys2Proof.Laws

open Machine

theorem spiChunks_join (n : Nat) : ∀ (addr : Nat) (bytes : List Byte), bytes.length ≤ n →
    ((spiChunks n addr bytes).map (·.2)).flatten = bytes := by
  induction n with
  | zero => intro addr bytes h; cases bytes <;> simp_all [spiChunks]
  | succ n ih =>
    intro addr bytes h
    cases bytes with
    | nil => rfl
    | cons b t =>
      have hk : 0 < 256 - addr % 256 := by omega
      have h2 : ((b :: t).drop (256 - addr % 256)).length ≤ n := by
        rw [List.length_drop]; simp only [List.length_cons] at h ⊢; omega
      simp only [spiChunks, List.map_cons, List.flatten_cons, ih _ _ h2]
      exact List.take_append_drop ..

/-- The instructions hold the bytes, each once and in order. -/
theorem spiWrites_join (addr : Nat) (bytes : List Byte) : ((spiWrites addr bytes).map (·.2)).flatten = bytes :=
  spiChunks_join _ _ _ (Nat.le_refl _)

/-- Each instruction ends at its 256-byte boundary at the latest. -/
theorem spiChunks_within (n : Nat) : ∀ (addr : Nat) (bytes : List Byte), ∀ w ∈ spiChunks n addr bytes, w.1 % 256 + w.2.length ≤ 256 := by
  induction n with
  | zero => intro addr bytes w h; cases bytes <;> simp [spiChunks] at h
  | succ n ih =>
    intro addr bytes w h
    cases bytes with
    | nil => simp [spiChunks] at h
    | cons b t =>
      rcases List.mem_cons.mp h with rfl | h
      · simp only [List.length_take]; omega
      · exact ih _ _ w h

theorem spiWrites_within (addr : Nat) (bytes : List Byte) : ∀ w ∈ spiWrites addr bytes, w.1 % 256 + w.2.length ≤ 256 :=
  spiChunks_within _ _ _

end Sys2Proof.Laws
end

