-- ==== Sys2Proof/Laws/Serve.lean ====
section
/-! SUPPORT. A request that is admitted is answered by its command's own checks and effect. -/

namespace Sys2Proof.Machine

theorem macKey_putCache (q p : Packet) (c : Cache) (s : State) : (putCache q c s).macKey p = s.macKey p := by
  unfold putCache State.macKey
  cases hp : sessionIndex p.session with
  | none => rfl
  | some i =>
    cases hq : sessionIndex q.session with
    | none => simp only []; split <;> rfl
    | some j =>
      simp only [State.modSession, State.modCmd, vmod, Fin.getElem_fin, Vector.getElem_set]
      split
      · rename_i e
        have : j = i := Fin.ext e
        subst this
        simp [Option.map_map, Function.comp_def]
      · rfl

/-- What steps 4 to 8 of R450 come to for an authentic request. -/
theorem servePacket_authentic (sp : CmdSpec) (p : Packet) (s s1 : State) (c : Ctx)
    (h : authentic sp.code p s = some (c, s1)) : servePacket sp p s = afterAuth sp c p s1 := by
  unfold authentic at h
  unfold servePacket
  split at h
  · rename_i h0
    rw [if_pos h0]
    split at h
    · cases h
    · rename_i ha
      cases h
      rw [if_neg ha]
  · rename_i h0
    rw [if_neg h0]
    split at h
    · cases h
    · rename_i i x hs
      split at h
      · rename_i hc
        simp only [Bool.and_eq_true, Bool.not_eq_true'] at hc
        cases h
        simp [hs, hc.1.1, hc.1.2, hc.2]
      · cases h

/-- An admitted request executes: its own checks and effect answer it. -/
theorem serve_admitted (sp : CmdSpec) (p : Packet) (s s1 : State) (c : Ctx) (h : admitted sp.code p s = some (c, s1)) :
    serve sp p s = .next (match runSpec sp c p s1 with
      | .done st ws t =>
        if st == stOk && s1.breaksLimits t then answerWith sp.code p (s1.macKey p) stBadParam [] s1
        else answerWith sp.code p (s1.macKey p) st ws t
      | .keyed st ws k t => answerWith sp.code p (some k) st ws t
      | .deferred t => t.modCmd fun m => { m with running := m.running ++ [{ packet := p }] }) := by
  unfold admitted at h
  split at h
  · rename_i hg
    simp only [Bool.and_eq_true] at hg
    obtain ⟨⟨⟨hl, ha⟩, hf⟩, -⟩ := hg
    obtain ⟨s0, hs0, h⟩ := Option.bind_eq_some_iff.mp h
    obtain ⟨⟨c', t⟩, hc, h⟩ := Option.bind_eq_some_iff.mp h
    simp only [] at h
    split at h
    · rename_i hq
      simp only [Bool.and_eq_true, Bool.not_eq_true', beq_iff_eq, decide_eq_true_eq] at hq
      cases h
      simp only [serve, serveState, hl, ha, hf, hs0, Bool.not_true, if_true, Bool.false_eq_true, if_false]
      rw [servePacket_authentic _ _ _ _ _ hc]
      unfold afterAuth
      rw [if_neg (by simp [hq.1.1])]
      simp only [hq.1.2]
      rw [if_neg (by omega)]
      unfold execute
      simp only [macKey_putCache]
      all_goals cases runSpec sp c p (putCache p (enterCache (t.cacheOf p) p) t) <;> rfl
    · cases h
  · cases h

theorem admitted_clean {code : Nat} {p : Packet} {s s1 : State} {c : Ctx} (h : admitted code p s = some (c, s1)) :
    headerClean p = true := by
  unfold admitted at h
  split at h
  · rename_i hg
    simp only [Bool.and_eq_true] at hg
    exact hg.2
  · cases h

/-- Steps 10 to 14 of R450 for an admitted request whose access, mode and length are good. -/
theorem runSpec_admitted (sp : CmdSpec) (p : Packet) (s s1 : State) (c : Ctx) (h : admitted sp.code p s = some (c, s1))
    (ha : sp.access c p.params s1 = true) (hm : sp.mode p.params s1 = stOk) (hl : sp.length p.params = true) :
    runSpec sp c p s1 = sp.body c p.params s1 := by
  simp [runSpec, admitted_clean h, ha, hm, hl]

/-- A request whose effect answers at once. -/
theorem serve_done (sp : CmdSpec) (p : Packet) (s s1 : State) (c : Ctx) (st : Nat) (ws : List Word) (t : State)
    (h : admitted sp.code p s = some (c, s1)) (ha : sp.access c p.params s1 = true) (hm : sp.mode p.params s1 = stOk)
    (hl : sp.length p.params = true) (hb : sp.body c p.params s1 = .done st ws t)
    (hk : (st == stOk && s1.breaksLimits t) = false) : serve sp p s = replied sp.code p s1 st ws t := by
  rw [serve_admitted sp p s s1 c h, runSpec_admitted sp p s s1 c h ha hm hl, hb]
  simp [hk, replied]

/-- A request whose reply comes later. -/
theorem serve_deferred (sp : CmdSpec) (p : Packet) (s s1 : State) (c : Ctx) (t : State)
    (h : admitted sp.code p s = some (c, s1)) (ha : sp.access c p.params s1 = true) (hm : sp.mode p.params s1 = stOk)
    (hl : sp.length p.params = true) (hb : sp.body c p.params s1 = .deferred t) : serve sp p s = postponed p t := by
  rw [serve_admitted sp p s s1 c h, runSpec_admitted sp p s s1 c h ha hm hl, hb]
  rfl

/-- A request that changes nothing breaks no limit (R543). -/
@[simp] theorem State.breaksLimits_self (s : State) : s.breaksLimits s = false := by simp [State.breaksLimits]

/-- A request that leaves every resource of R543 as it was breaks no limit. -/
theorem State.breaksLimits_same {s t : State} (h : t.overLimits = s.overLimits) : s.breaksLimits t = false := by
  unfold State.breaksLimits
  rw [h]
  cases s.overLimits <;> simp

/-- A row whose condition holds has its effect. -/
theorem guardNext_pos {p : Bool} {s t : State} (h : p = true) : guardNext p s t = .next t := by simp [guardNext, h]

end Sys2Proof.Machine
end

