-- ==== Sys2Proof/Laws/State.lean ====
section
/-! SUPPORT. The fields of State after each update of State, true by definition. -/

namespace Sys2Proof.Machine

@[simp] theorem State.modSup_factory (s : State) (f : Sup → Sup) : (s.modSup f).factory = s.factory := rfl
@[simp] theorem State.modSup_sup (s : State) (f : Sup → Sup) : (s.modSup f).sup = f s.sup := rfl
@[simp] theorem State.modSup_boot (s : State) (f : Sup → Sup) : (s.modSup f).boot = s.boot := rfl
@[simp] theorem State.modSup_time (s : State) (f : Sup → Sup) : (s.modSup f).time = s.time := rfl
@[simp] theorem State.modSup_chans (s : State) (f : Sup → Sup) : (s.modSup f).chans = s.chans := rfl
@[simp] theorem State.modSup_setts (s : State) (f : Sup → Sup) : (s.modSup f).setts = s.setts := rfl
@[simp] theorem State.modSup_chains (s : State) (f : Sup → Sup) : (s.modSup f).chains = s.chains := rfl
@[simp] theorem State.modSup_coders (s : State) (f : Sup → Sup) : (s.modSup f).coders = s.coders := rfl
@[simp] theorem State.modSup_dens (s : State) (f : Sup → Sup) : (s.modSup f).dens = s.dens := rfl
@[simp] theorem State.modSup_plan (s : State) (f : Sup → Sup) : (s.modSup f).plan = s.plan := rfl
@[simp] theorem State.modSup_tdc (s : State) (f : Sup → Sup) : (s.modSup f).tdc = s.tdc := rfl
@[simp] theorem State.modSup_quad (s : State) (f : Sup → Sup) : (s.modSup f).quad = s.quad := rfl
@[simp] theorem State.modSup_red (s : State) (f : Sup → Sup) : (s.modSup f).red = s.red := rfl
@[simp] theorem State.modSup_hoard (s : State) (f : Sup → Sup) : (s.modSup f).hoard = s.hoard := rfl
@[simp] theorem State.modSup_lanes (s : State) (f : Sup → Sup) : (s.modSup f).lanes = s.lanes := rfl
@[simp] theorem State.modSup_fab (s : State) (f : Sup → Sup) : (s.modSup f).fab = s.fab := rfl
@[simp] theorem State.modSup_cmd (s : State) (f : Sup → Sup) : (s.modSup f).cmd = s.cmd := rfl
@[simp] theorem State.modSup_owl (s : State) (f : Sup → Sup) : (s.modSup f).owl = s.owl := rfl
@[simp] theorem State.modSup_prot (s : State) (f : Sup → Sup) : (s.modSup f).prot = s.prot := rfl
@[simp] theorem State.modSup_pair (s : State) (f : Sup → Sup) : (s.modSup f).pair = s.pair := rfl
@[simp] theorem State.modSup_health (s : State) (f : Sup → Sup) : (s.modSup f).health = s.health := rfl
@[simp] theorem State.modSup_free (s : State) (f : Sup → Sup) : (s.modSup f).free = s.free := rfl
@[simp] theorem State.modSup_pending (s : State) (f : Sup → Sup) : (s.modSup f).pending = s.pending := rfl

@[simp] theorem State.modBoot_factory (s : State) (f : Startup → Startup) : (s.modBoot f).factory = s.factory := rfl
@[simp] theorem State.modBoot_sup (s : State) (f : Startup → Startup) : (s.modBoot f).sup = s.sup := rfl
@[simp] theorem State.modBoot_boot (s : State) (f : Startup → Startup) : (s.modBoot f).boot = f s.boot := rfl
@[simp] theorem State.modBoot_time (s : State) (f : Startup → Startup) : (s.modBoot f).time = s.time := rfl
@[simp] theorem State.modBoot_chans (s : State) (f : Startup → Startup) : (s.modBoot f).chans = s.chans := rfl
@[simp] theorem State.modBoot_setts (s : State) (f : Startup → Startup) : (s.modBoot f).setts = s.setts := rfl
@[simp] theorem State.modBoot_chains (s : State) (f : Startup → Startup) : (s.modBoot f).chains = s.chains := rfl
@[simp] theorem State.modBoot_coders (s : State) (f : Startup → Startup) : (s.modBoot f).coders = s.coders := rfl
@[simp] theorem State.modBoot_dens (s : State) (f : Startup → Startup) : (s.modBoot f).dens = s.dens := rfl
@[simp] theorem State.modBoot_plan (s : State) (f : Startup → Startup) : (s.modBoot f).plan = s.plan := rfl
@[simp] theorem State.modBoot_tdc (s : State) (f : Startup → Startup) : (s.modBoot f).tdc = s.tdc := rfl
@[simp] theorem State.modBoot_quad (s : State) (f : Startup → Startup) : (s.modBoot f).quad = s.quad := rfl
@[simp] theorem State.modBoot_red (s : State) (f : Startup → Startup) : (s.modBoot f).red = s.red := rfl
@[simp] theorem State.modBoot_hoard (s : State) (f : Startup → Startup) : (s.modBoot f).hoard = s.hoard := rfl
@[simp] theorem State.modBoot_lanes (s : State) (f : Startup → Startup) : (s.modBoot f).lanes = s.lanes := rfl
@[simp] theorem State.modBoot_fab (s : State) (f : Startup → Startup) : (s.modBoot f).fab = s.fab := rfl
@[simp] theorem State.modBoot_cmd (s : State) (f : Startup → Startup) : (s.modBoot f).cmd = s.cmd := rfl
@[simp] theorem State.modBoot_owl (s : State) (f : Startup → Startup) : (s.modBoot f).owl = s.owl := rfl
@[simp] theorem State.modBoot_prot (s : State) (f : Startup → Startup) : (s.modBoot f).prot = s.prot := rfl
@[simp] theorem State.modBoot_pair (s : State) (f : Startup → Startup) : (s.modBoot f).pair = s.pair := rfl
@[simp] theorem State.modBoot_health (s : State) (f : Startup → Startup) : (s.modBoot f).health = s.health := rfl
@[simp] theorem State.modBoot_free (s : State) (f : Startup → Startup) : (s.modBoot f).free = s.free := rfl
@[simp] theorem State.modBoot_pending (s : State) (f : Startup → Startup) : (s.modBoot f).pending = s.pending := rfl

@[simp] theorem State.modTime_factory (s : State) (f : Time → Time) : (s.modTime f).factory = s.factory := rfl
@[simp] theorem State.modTime_sup (s : State) (f : Time → Time) : (s.modTime f).sup = s.sup := rfl
@[simp] theorem State.modTime_boot (s : State) (f : Time → Time) : (s.modTime f).boot = s.boot := rfl
@[simp] theorem State.modTime_time (s : State) (f : Time → Time) : (s.modTime f).time = f s.time := rfl
@[simp] theorem State.modTime_chans (s : State) (f : Time → Time) : (s.modTime f).chans = s.chans := rfl
@[simp] theorem State.modTime_setts (s : State) (f : Time → Time) : (s.modTime f).setts = s.setts := rfl
@[simp] theorem State.modTime_chains (s : State) (f : Time → Time) : (s.modTime f).chains = s.chains := rfl
@[simp] theorem State.modTime_coders (s : State) (f : Time → Time) : (s.modTime f).coders = s.coders := rfl
@[simp] theorem State.modTime_dens (s : State) (f : Time → Time) : (s.modTime f).dens = s.dens := rfl
@[simp] theorem State.modTime_plan (s : State) (f : Time → Time) : (s.modTime f).plan = s.plan := rfl
@[simp] theorem State.modTime_tdc (s : State) (f : Time → Time) : (s.modTime f).tdc = s.tdc := rfl
@[simp] theorem State.modTime_quad (s : State) (f : Time → Time) : (s.modTime f).quad = s.quad := rfl
@[simp] theorem State.modTime_red (s : State) (f : Time → Time) : (s.modTime f).red = s.red := rfl
@[simp] theorem State.modTime_hoard (s : State) (f : Time → Time) : (s.modTime f).hoard = s.hoard := rfl
@[simp] theorem State.modTime_lanes (s : State) (f : Time → Time) : (s.modTime f).lanes = s.lanes := rfl
@[simp] theorem State.modTime_fab (s : State) (f : Time → Time) : (s.modTime f).fab = s.fab := rfl
@[simp] theorem State.modTime_cmd (s : State) (f : Time → Time) : (s.modTime f).cmd = s.cmd := rfl
@[simp] theorem State.modTime_owl (s : State) (f : Time → Time) : (s.modTime f).owl = s.owl := rfl
@[simp] theorem State.modTime_prot (s : State) (f : Time → Time) : (s.modTime f).prot = s.prot := rfl
@[simp] theorem State.modTime_pair (s : State) (f : Time → Time) : (s.modTime f).pair = s.pair := rfl
@[simp] theorem State.modTime_health (s : State) (f : Time → Time) : (s.modTime f).health = s.health := rfl
@[simp] theorem State.modTime_free (s : State) (f : Time → Time) : (s.modTime f).free = s.free := rfl
@[simp] theorem State.modTime_pending (s : State) (f : Time → Time) : (s.modTime f).pending = s.pending := rfl

@[simp] theorem State.modChan_factory (s : State) (c : Chan) (f : Channel → Channel) :
    (s.modChan c f).factory = s.factory := rfl
@[simp] theorem State.modChan_sup (s : State) (c : Chan) (f : Channel → Channel) : (s.modChan c f).sup = s.sup := rfl
@[simp] theorem State.modChan_boot (s : State) (c : Chan) (f : Channel → Channel) : (s.modChan c f).boot = s.boot := rfl
@[simp] theorem State.modChan_time (s : State) (c : Chan) (f : Channel → Channel) : (s.modChan c f).time = s.time := rfl
@[simp] theorem State.modChan_chans (s : State) (c : Chan) (f : Channel → Channel) :
    (s.modChan c f).chans = vmod s.chans c f := rfl
@[simp] theorem State.modChan_setts (s : State) (c : Chan) (f : Channel → Channel) : (s.modChan c f).setts = s.setts := rfl
@[simp] theorem State.modChan_chains (s : State) (c : Chan) (f : Channel → Channel) :
    (s.modChan c f).chains = s.chains := rfl
@[simp] theorem State.modChan_coders (s : State) (c : Chan) (f : Channel → Channel) :
    (s.modChan c f).coders = s.coders := rfl
@[simp] theorem State.modChan_dens (s : State) (c : Chan) (f : Channel → Channel) : (s.modChan c f).dens = s.dens := rfl
@[simp] theorem State.modChan_plan (s : State) (c : Chan) (f : Channel → Channel) : (s.modChan c f).plan = s.plan := rfl
@[simp] theorem State.modChan_tdc (s : State) (c : Chan) (f : Channel → Channel) : (s.modChan c f).tdc = s.tdc := rfl
@[simp] theorem State.modChan_quad (s : State) (c : Chan) (f : Channel → Channel) : (s.modChan c f).quad = s.quad := rfl
@[simp] theorem State.modChan_red (s : State) (c : Chan) (f : Channel → Channel) : (s.modChan c f).red = s.red := rfl
@[simp] theorem State.modChan_hoard (s : State) (c : Chan) (f : Channel → Channel) : (s.modChan c f).hoard = s.hoard := rfl
@[simp] theorem State.modChan_lanes (s : State) (c : Chan) (f : Channel → Channel) : (s.modChan c f).lanes = s.lanes := rfl
@[simp] theorem State.modChan_fab (s : State) (c : Chan) (f : Channel → Channel) : (s.modChan c f).fab = s.fab := rfl
@[simp] theorem State.modChan_cmd (s : State) (c : Chan) (f : Channel → Channel) : (s.modChan c f).cmd = s.cmd := rfl
@[simp] theorem State.modChan_owl (s : State) (c : Chan) (f : Channel → Channel) : (s.modChan c f).owl = s.owl := rfl
@[simp] theorem State.modChan_prot (s : State) (c : Chan) (f : Channel → Channel) : (s.modChan c f).prot = s.prot := rfl
@[simp] theorem State.modChan_pair (s : State) (c : Chan) (f : Channel → Channel) : (s.modChan c f).pair = s.pair := rfl
@[simp] theorem State.modChan_health (s : State) (c : Chan) (f : Channel → Channel) :
    (s.modChan c f).health = s.health := rfl
@[simp] theorem State.modChan_free (s : State) (c : Chan) (f : Channel → Channel) : (s.modChan c f).free = s.free := rfl
@[simp] theorem State.modChan_pending (s : State) (c : Chan) (f : Channel → Channel) :
    (s.modChan c f).pending = s.pending := rfl

@[simp] theorem State.modSett_factory (s : State) (k : SettId) (f : Sett → Sett) : (s.modSett k f).factory = s.factory := rfl
@[simp] theorem State.modSett_sup (s : State) (k : SettId) (f : Sett → Sett) : (s.modSett k f).sup = s.sup := rfl
@[simp] theorem State.modSett_boot (s : State) (k : SettId) (f : Sett → Sett) : (s.modSett k f).boot = s.boot := rfl
@[simp] theorem State.modSett_time (s : State) (k : SettId) (f : Sett → Sett) : (s.modSett k f).time = s.time := rfl
@[simp] theorem State.modSett_chans (s : State) (k : SettId) (f : Sett → Sett) : (s.modSett k f).chans = s.chans := rfl
@[simp] theorem State.modSett_setts (s : State) (k : SettId) (f : Sett → Sett) :
    (s.modSett k f).setts = vmod s.setts k f := rfl
@[simp] theorem State.modSett_chains (s : State) (k : SettId) (f : Sett → Sett) : (s.modSett k f).chains = s.chains := rfl
@[simp] theorem State.modSett_coders (s : State) (k : SettId) (f : Sett → Sett) : (s.modSett k f).coders = s.coders := rfl
@[simp] theorem State.modSett_dens (s : State) (k : SettId) (f : Sett → Sett) : (s.modSett k f).dens = s.dens := rfl
@[simp] theorem State.modSett_plan (s : State) (k : SettId) (f : Sett → Sett) : (s.modSett k f).plan = s.plan := rfl
@[simp] theorem State.modSett_tdc (s : State) (k : SettId) (f : Sett → Sett) : (s.modSett k f).tdc = s.tdc := rfl
@[simp] theorem State.modSett_quad (s : State) (k : SettId) (f : Sett → Sett) : (s.modSett k f).quad = s.quad := rfl
@[simp] theorem State.modSett_red (s : State) (k : SettId) (f : Sett → Sett) : (s.modSett k f).red = s.red := rfl
@[simp] theorem State.modSett_hoard (s : State) (k : SettId) (f : Sett → Sett) : (s.modSett k f).hoard = s.hoard := rfl
@[simp] theorem State.modSett_lanes (s : State) (k : SettId) (f : Sett → Sett) : (s.modSett k f).lanes = s.lanes := rfl
@[simp] theorem State.modSett_fab (s : State) (k : SettId) (f : Sett → Sett) : (s.modSett k f).fab = s.fab := rfl
@[simp] theorem State.modSett_cmd (s : State) (k : SettId) (f : Sett → Sett) : (s.modSett k f).cmd = s.cmd := rfl
@[simp] theorem State.modSett_owl (s : State) (k : SettId) (f : Sett → Sett) : (s.modSett k f).owl = s.owl := rfl
@[simp] theorem State.modSett_prot (s : State) (k : SettId) (f : Sett → Sett) : (s.modSett k f).prot = s.prot := rfl
@[simp] theorem State.modSett_pair (s : State) (k : SettId) (f : Sett → Sett) : (s.modSett k f).pair = s.pair := rfl
@[simp] theorem State.modSett_health (s : State) (k : SettId) (f : Sett → Sett) : (s.modSett k f).health = s.health := rfl
@[simp] theorem State.modSett_free (s : State) (k : SettId) (f : Sett → Sett) : (s.modSett k f).free = s.free := rfl
@[simp] theorem State.modSett_pending (s : State) (k : SettId) (f : Sett → Sett) : (s.modSett k f).pending = s.pending := rfl

@[simp] theorem State.modChain_factory (s : State) (k : SettId) (f : Chain → Chain) :
    (s.modChain k f).factory = s.factory := rfl
@[simp] theorem State.modChain_sup (s : State) (k : SettId) (f : Chain → Chain) : (s.modChain k f).sup = s.sup := rfl
@[simp] theorem State.modChain_boot (s : State) (k : SettId) (f : Chain → Chain) : (s.modChain k f).boot = s.boot := rfl
@[simp] theorem State.modChain_time (s : State) (k : SettId) (f : Chain → Chain) : (s.modChain k f).time = s.time := rfl
@[simp] theorem State.modChain_chans (s : State) (k : SettId) (f : Chain → Chain) : (s.modChain k f).chans = s.chans := rfl
@[simp] theorem State.modChain_setts (s : State) (k : SettId) (f : Chain → Chain) : (s.modChain k f).setts = s.setts := rfl
@[simp] theorem State.modChain_chains (s : State) (k : SettId) (f : Chain → Chain) :
    (s.modChain k f).chains = vmod s.chains k f := rfl
@[simp] theorem State.modChain_coders (s : State) (k : SettId) (f : Chain → Chain) :
    (s.modChain k f).coders = s.coders := rfl
@[simp] theorem State.modChain_dens (s : State) (k : SettId) (f : Chain → Chain) : (s.modChain k f).dens = s.dens := rfl
@[simp] theorem State.modChain_plan (s : State) (k : SettId) (f : Chain → Chain) : (s.modChain k f).plan = s.plan := rfl
@[simp] theorem State.modChain_tdc (s : State) (k : SettId) (f : Chain → Chain) : (s.modChain k f).tdc = s.tdc := rfl
@[simp] theorem State.modChain_quad (s : State) (k : SettId) (f : Chain → Chain) : (s.modChain k f).quad = s.quad := rfl
@[simp] theorem State.modChain_red (s : State) (k : SettId) (f : Chain → Chain) : (s.modChain k f).red = s.red := rfl
@[simp] theorem State.modChain_hoard (s : State) (k : SettId) (f : Chain → Chain) : (s.modChain k f).hoard = s.hoard := rfl
@[simp] theorem State.modChain_lanes (s : State) (k : SettId) (f : Chain → Chain) : (s.modChain k f).lanes = s.lanes := rfl
@[simp] theorem State.modChain_fab (s : State) (k : SettId) (f : Chain → Chain) : (s.modChain k f).fab = s.fab := rfl
@[simp] theorem State.modChain_cmd (s : State) (k : SettId) (f : Chain → Chain) : (s.modChain k f).cmd = s.cmd := rfl
@[simp] theorem State.modChain_owl (s : State) (k : SettId) (f : Chain → Chain) : (s.modChain k f).owl = s.owl := rfl
@[simp] theorem State.modChain_prot (s : State) (k : SettId) (f : Chain → Chain) : (s.modChain k f).prot = s.prot := rfl
@[simp] theorem State.modChain_pair (s : State) (k : SettId) (f : Chain → Chain) : (s.modChain k f).pair = s.pair := rfl
@[simp] theorem State.modChain_health (s : State) (k : SettId) (f : Chain → Chain) :
    (s.modChain k f).health = s.health := rfl
@[simp] theorem State.modChain_free (s : State) (k : SettId) (f : Chain → Chain) : (s.modChain k f).free = s.free := rfl
@[simp] theorem State.modChain_pending (s : State) (k : SettId) (f : Chain → Chain) :
    (s.modChain k f).pending = s.pending := rfl

@[simp] theorem State.modCoder_factory (s : State) (k : SettId) (f : Coder → Coder) :
    (s.modCoder k f).factory = s.factory := rfl
@[simp] theorem State.modCoder_sup (s : State) (k : SettId) (f : Coder → Coder) : (s.modCoder k f).sup = s.sup := rfl
@[simp] theorem State.modCoder_boot (s : State) (k : SettId) (f : Coder → Coder) : (s.modCoder k f).boot = s.boot := rfl
@[simp] theorem State.modCoder_time (s : State) (k : SettId) (f : Coder → Coder) : (s.modCoder k f).time = s.time := rfl
@[simp] theorem State.modCoder_chans (s : State) (k : SettId) (f : Coder → Coder) : (s.modCoder k f).chans = s.chans := rfl
@[simp] theorem State.modCoder_setts (s : State) (k : SettId) (f : Coder → Coder) : (s.modCoder k f).setts = s.setts := rfl
@[simp] theorem State.modCoder_chains (s : State) (k : SettId) (f : Coder → Coder) :
    (s.modCoder k f).chains = s.chains := rfl
@[simp] theorem State.modCoder_coders (s : State) (k : SettId) (f : Coder → Coder) :
    (s.modCoder k f).coders = vmod s.coders k f := rfl
@[simp] theorem State.modCoder_dens (s : State) (k : SettId) (f : Coder → Coder) : (s.modCoder k f).dens = s.dens := rfl
@[simp] theorem State.modCoder_plan (s : State) (k : SettId) (f : Coder → Coder) : (s.modCoder k f).plan = s.plan := rfl
@[simp] theorem State.modCoder_tdc (s : State) (k : SettId) (f : Coder → Coder) : (s.modCoder k f).tdc = s.tdc := rfl
@[simp] theorem State.modCoder_quad (s : State) (k : SettId) (f : Coder → Coder) : (s.modCoder k f).quad = s.quad := rfl
@[simp] theorem State.modCoder_red (s : State) (k : SettId) (f : Coder → Coder) : (s.modCoder k f).red = s.red := rfl
@[simp] theorem State.modCoder_hoard (s : State) (k : SettId) (f : Coder → Coder) : (s.modCoder k f).hoard = s.hoard := rfl
@[simp] theorem State.modCoder_lanes (s : State) (k : SettId) (f : Coder → Coder) : (s.modCoder k f).lanes = s.lanes := rfl
@[simp] theorem State.modCoder_fab (s : State) (k : SettId) (f : Coder → Coder) : (s.modCoder k f).fab = s.fab := rfl
@[simp] theorem State.modCoder_cmd (s : State) (k : SettId) (f : Coder → Coder) : (s.modCoder k f).cmd = s.cmd := rfl
@[simp] theorem State.modCoder_owl (s : State) (k : SettId) (f : Coder → Coder) : (s.modCoder k f).owl = s.owl := rfl
@[simp] theorem State.modCoder_prot (s : State) (k : SettId) (f : Coder → Coder) : (s.modCoder k f).prot = s.prot := rfl
@[simp] theorem State.modCoder_pair (s : State) (k : SettId) (f : Coder → Coder) : (s.modCoder k f).pair = s.pair := rfl
@[simp] theorem State.modCoder_health (s : State) (k : SettId) (f : Coder → Coder) :
    (s.modCoder k f).health = s.health := rfl
@[simp] theorem State.modCoder_free (s : State) (k : SettId) (f : Coder → Coder) : (s.modCoder k f).free = s.free := rfl
@[simp] theorem State.modCoder_pending (s : State) (k : SettId) (f : Coder → Coder) :
    (s.modCoder k f).pending = s.pending := rfl

@[simp] theorem State.modDen_factory (s : State) (d : DenId) (f : Den → Den) : (s.modDen d f).factory = s.factory := rfl
@[simp] theorem State.modDen_sup (s : State) (d : DenId) (f : Den → Den) : (s.modDen d f).sup = s.sup := rfl
@[simp] theorem State.modDen_boot (s : State) (d : DenId) (f : Den → Den) : (s.modDen d f).boot = s.boot := rfl
@[simp] theorem State.modDen_time (s : State) (d : DenId) (f : Den → Den) : (s.modDen d f).time = s.time := rfl
@[simp] theorem State.modDen_chans (s : State) (d : DenId) (f : Den → Den) : (s.modDen d f).chans = s.chans := rfl
@[simp] theorem State.modDen_setts (s : State) (d : DenId) (f : Den → Den) : (s.modDen d f).setts = s.setts := rfl
@[simp] theorem State.modDen_chains (s : State) (d : DenId) (f : Den → Den) : (s.modDen d f).chains = s.chains := rfl
@[simp] theorem State.modDen_coders (s : State) (d : DenId) (f : Den → Den) : (s.modDen d f).coders = s.coders := rfl
@[simp] theorem State.modDen_dens (s : State) (d : DenId) (f : Den → Den) : (s.modDen d f).dens = vmod s.dens d f := rfl
@[simp] theorem State.modDen_plan (s : State) (d : DenId) (f : Den → Den) : (s.modDen d f).plan = s.plan := rfl
@[simp] theorem State.modDen_tdc (s : State) (d : DenId) (f : Den → Den) : (s.modDen d f).tdc = s.tdc := rfl
@[simp] theorem State.modDen_quad (s : State) (d : DenId) (f : Den → Den) : (s.modDen d f).quad = s.quad := rfl
@[simp] theorem State.modDen_red (s : State) (d : DenId) (f : Den → Den) : (s.modDen d f).red = s.red := rfl
@[simp] theorem State.modDen_hoard (s : State) (d : DenId) (f : Den → Den) : (s.modDen d f).hoard = s.hoard := rfl
@[simp] theorem State.modDen_lanes (s : State) (d : DenId) (f : Den → Den) : (s.modDen d f).lanes = s.lanes := rfl
@[simp] theorem State.modDen_fab (s : State) (d : DenId) (f : Den → Den) : (s.modDen d f).fab = s.fab := rfl
@[simp] theorem State.modDen_cmd (s : State) (d : DenId) (f : Den → Den) : (s.modDen d f).cmd = s.cmd := rfl
@[simp] theorem State.modDen_owl (s : State) (d : DenId) (f : Den → Den) : (s.modDen d f).owl = s.owl := rfl
@[simp] theorem State.modDen_prot (s : State) (d : DenId) (f : Den → Den) : (s.modDen d f).prot = s.prot := rfl
@[simp] theorem State.modDen_pair (s : State) (d : DenId) (f : Den → Den) : (s.modDen d f).pair = s.pair := rfl
@[simp] theorem State.modDen_health (s : State) (d : DenId) (f : Den → Den) : (s.modDen d f).health = s.health := rfl
@[simp] theorem State.modDen_free (s : State) (d : DenId) (f : Den → Den) : (s.modDen d f).free = s.free := rfl
@[simp] theorem State.modDen_pending (s : State) (d : DenId) (f : Den → Den) : (s.modDen d f).pending = s.pending := rfl

@[simp] theorem State.modPlan_factory (s : State) (f : Plan → Plan) : (s.modPlan f).factory = s.factory := rfl
@[simp] theorem State.modPlan_sup (s : State) (f : Plan → Plan) : (s.modPlan f).sup = s.sup := rfl
@[simp] theorem State.modPlan_boot (s : State) (f : Plan → Plan) : (s.modPlan f).boot = s.boot := rfl
@[simp] theorem State.modPlan_time (s : State) (f : Plan → Plan) : (s.modPlan f).time = s.time := rfl
@[simp] theorem State.modPlan_chans (s : State) (f : Plan → Plan) : (s.modPlan f).chans = s.chans := rfl
@[simp] theorem State.modPlan_setts (s : State) (f : Plan → Plan) : (s.modPlan f).setts = s.setts := rfl
@[simp] theorem State.modPlan_chains (s : State) (f : Plan → Plan) : (s.modPlan f).chains = s.chains := rfl
@[simp] theorem State.modPlan_coders (s : State) (f : Plan → Plan) : (s.modPlan f).coders = s.coders := rfl
@[simp] theorem State.modPlan_dens (s : State) (f : Plan → Plan) : (s.modPlan f).dens = s.dens := rfl
@[simp] theorem State.modPlan_plan (s : State) (f : Plan → Plan) : (s.modPlan f).plan = f s.plan := rfl
@[simp] theorem State.modPlan_tdc (s : State) (f : Plan → Plan) : (s.modPlan f).tdc = s.tdc := rfl
@[simp] theorem State.modPlan_quad (s : State) (f : Plan → Plan) : (s.modPlan f).quad = s.quad := rfl
@[simp] theorem State.modPlan_red (s : State) (f : Plan → Plan) : (s.modPlan f).red = s.red := rfl
@[simp] theorem State.modPlan_hoard (s : State) (f : Plan → Plan) : (s.modPlan f).hoard = s.hoard := rfl
@[simp] theorem State.modPlan_lanes (s : State) (f : Plan → Plan) : (s.modPlan f).lanes = s.lanes := rfl
@[simp] theorem State.modPlan_fab (s : State) (f : Plan → Plan) : (s.modPlan f).fab = s.fab := rfl
@[simp] theorem State.modPlan_cmd (s : State) (f : Plan → Plan) : (s.modPlan f).cmd = s.cmd := rfl
@[simp] theorem State.modPlan_owl (s : State) (f : Plan → Plan) : (s.modPlan f).owl = s.owl := rfl
@[simp] theorem State.modPlan_prot (s : State) (f : Plan → Plan) : (s.modPlan f).prot = s.prot := rfl
@[simp] theorem State.modPlan_pair (s : State) (f : Plan → Plan) : (s.modPlan f).pair = s.pair := rfl
@[simp] theorem State.modPlan_health (s : State) (f : Plan → Plan) : (s.modPlan f).health = s.health := rfl
@[simp] theorem State.modPlan_free (s : State) (f : Plan → Plan) : (s.modPlan f).free = s.free := rfl
@[simp] theorem State.modPlan_pending (s : State) (f : Plan → Plan) : (s.modPlan f).pending = s.pending := rfl

@[simp] theorem State.modTdc_factory (s : State) (f : Tdc → Tdc) : (s.modTdc f).factory = s.factory := rfl
@[simp] theorem State.modTdc_sup (s : State) (f : Tdc → Tdc) : (s.modTdc f).sup = s.sup := rfl
@[simp] theorem State.modTdc_boot (s : State) (f : Tdc → Tdc) : (s.modTdc f).boot = s.boot := rfl
@[simp] theorem State.modTdc_time (s : State) (f : Tdc → Tdc) : (s.modTdc f).time = s.time := rfl
@[simp] theorem State.modTdc_chans (s : State) (f : Tdc → Tdc) : (s.modTdc f).chans = s.chans := rfl
@[simp] theorem State.modTdc_setts (s : State) (f : Tdc → Tdc) : (s.modTdc f).setts = s.setts := rfl
@[simp] theorem State.modTdc_chains (s : State) (f : Tdc → Tdc) : (s.modTdc f).chains = s.chains := rfl
@[simp] theorem State.modTdc_coders (s : State) (f : Tdc → Tdc) : (s.modTdc f).coders = s.coders := rfl
@[simp] theorem State.modTdc_dens (s : State) (f : Tdc → Tdc) : (s.modTdc f).dens = s.dens := rfl
@[simp] theorem State.modTdc_plan (s : State) (f : Tdc → Tdc) : (s.modTdc f).plan = s.plan := rfl
@[simp] theorem State.modTdc_tdc (s : State) (f : Tdc → Tdc) : (s.modTdc f).tdc = f s.tdc := rfl
@[simp] theorem State.modTdc_quad (s : State) (f : Tdc → Tdc) : (s.modTdc f).quad = s.quad := rfl
@[simp] theorem State.modTdc_red (s : State) (f : Tdc → Tdc) : (s.modTdc f).red = s.red := rfl
@[simp] theorem State.modTdc_hoard (s : State) (f : Tdc → Tdc) : (s.modTdc f).hoard = s.hoard := rfl
@[simp] theorem State.modTdc_lanes (s : State) (f : Tdc → Tdc) : (s.modTdc f).lanes = s.lanes := rfl
@[simp] theorem State.modTdc_fab (s : State) (f : Tdc → Tdc) : (s.modTdc f).fab = s.fab := rfl
@[simp] theorem State.modTdc_cmd (s : State) (f : Tdc → Tdc) : (s.modTdc f).cmd = s.cmd := rfl
@[simp] theorem State.modTdc_owl (s : State) (f : Tdc → Tdc) : (s.modTdc f).owl = s.owl := rfl
@[simp] theorem State.modTdc_prot (s : State) (f : Tdc → Tdc) : (s.modTdc f).prot = s.prot := rfl
@[simp] theorem State.modTdc_pair (s : State) (f : Tdc → Tdc) : (s.modTdc f).pair = s.pair := rfl
@[simp] theorem State.modTdc_health (s : State) (f : Tdc → Tdc) : (s.modTdc f).health = s.health := rfl
@[simp] theorem State.modTdc_free (s : State) (f : Tdc → Tdc) : (s.modTdc f).free = s.free := rfl
@[simp] theorem State.modTdc_pending (s : State) (f : Tdc → Tdc) : (s.modTdc f).pending = s.pending := rfl

@[simp] theorem State.modSlot_factory (s : State) (q : Fin 24) (f : Slot → Slot) : (s.modSlot q f).factory = s.factory := rfl
@[simp] theorem State.modSlot_sup (s : State) (q : Fin 24) (f : Slot → Slot) : (s.modSlot q f).sup = s.sup := rfl
@[simp] theorem State.modSlot_boot (s : State) (q : Fin 24) (f : Slot → Slot) : (s.modSlot q f).boot = s.boot := rfl
@[simp] theorem State.modSlot_time (s : State) (q : Fin 24) (f : Slot → Slot) : (s.modSlot q f).time = s.time := rfl
@[simp] theorem State.modSlot_chans (s : State) (q : Fin 24) (f : Slot → Slot) : (s.modSlot q f).chans = s.chans := rfl
@[simp] theorem State.modSlot_setts (s : State) (q : Fin 24) (f : Slot → Slot) : (s.modSlot q f).setts = s.setts := rfl
@[simp] theorem State.modSlot_chains (s : State) (q : Fin 24) (f : Slot → Slot) : (s.modSlot q f).chains = s.chains := rfl
@[simp] theorem State.modSlot_coders (s : State) (q : Fin 24) (f : Slot → Slot) : (s.modSlot q f).coders = s.coders := rfl
@[simp] theorem State.modSlot_dens (s : State) (q : Fin 24) (f : Slot → Slot) : (s.modSlot q f).dens = s.dens := rfl
@[simp] theorem State.modSlot_plan (s : State) (q : Fin 24) (f : Slot → Slot) : (s.modSlot q f).plan = s.plan := rfl
@[simp] theorem State.modSlot_tdc (s : State) (q : Fin 24) (f : Slot → Slot) : (s.modSlot q f).tdc = s.tdc := rfl
@[simp] theorem State.modSlot_quad (s : State) (q : Fin 24) (f : Slot → Slot) : (s.modSlot q f).quad = vmod s.quad q f := rfl
@[simp] theorem State.modSlot_red (s : State) (q : Fin 24) (f : Slot → Slot) : (s.modSlot q f).red = s.red := rfl
@[simp] theorem State.modSlot_hoard (s : State) (q : Fin 24) (f : Slot → Slot) : (s.modSlot q f).hoard = s.hoard := rfl
@[simp] theorem State.modSlot_lanes (s : State) (q : Fin 24) (f : Slot → Slot) : (s.modSlot q f).lanes = s.lanes := rfl
@[simp] theorem State.modSlot_fab (s : State) (q : Fin 24) (f : Slot → Slot) : (s.modSlot q f).fab = s.fab := rfl
@[simp] theorem State.modSlot_cmd (s : State) (q : Fin 24) (f : Slot → Slot) : (s.modSlot q f).cmd = s.cmd := rfl
@[simp] theorem State.modSlot_owl (s : State) (q : Fin 24) (f : Slot → Slot) : (s.modSlot q f).owl = s.owl := rfl
@[simp] theorem State.modSlot_prot (s : State) (q : Fin 24) (f : Slot → Slot) : (s.modSlot q f).prot = s.prot := rfl
@[simp] theorem State.modSlot_pair (s : State) (q : Fin 24) (f : Slot → Slot) : (s.modSlot q f).pair = s.pair := rfl
@[simp] theorem State.modSlot_health (s : State) (q : Fin 24) (f : Slot → Slot) : (s.modSlot q f).health = s.health := rfl
@[simp] theorem State.modSlot_free (s : State) (q : Fin 24) (f : Slot → Slot) : (s.modSlot q f).free = s.free := rfl
@[simp] theorem State.modSlot_pending (s : State) (q : Fin 24) (f : Slot → Slot) : (s.modSlot q f).pending = s.pending := rfl

@[simp] theorem State.modRed_factory (s : State) (f : Red → Red) : (s.modRed f).factory = s.factory := rfl
@[simp] theorem State.modRed_sup (s : State) (f : Red → Red) : (s.modRed f).sup = s.sup := rfl
@[simp] theorem State.modRed_boot (s : State) (f : Red → Red) : (s.modRed f).boot = s.boot := rfl
@[simp] theorem State.modRed_time (s : State) (f : Red → Red) : (s.modRed f).time = s.time := rfl
@[simp] theorem State.modRed_chans (s : State) (f : Red → Red) : (s.modRed f).chans = s.chans := rfl
@[simp] theorem State.modRed_setts (s : State) (f : Red → Red) : (s.modRed f).setts = s.setts := rfl
@[simp] theorem State.modRed_chains (s : State) (f : Red → Red) : (s.modRed f).chains = s.chains := rfl
@[simp] theorem State.modRed_coders (s : State) (f : Red → Red) : (s.modRed f).coders = s.coders := rfl
@[simp] theorem State.modRed_dens (s : State) (f : Red → Red) : (s.modRed f).dens = s.dens := rfl
@[simp] theorem State.modRed_plan (s : State) (f : Red → Red) : (s.modRed f).plan = s.plan := rfl
@[simp] theorem State.modRed_tdc (s : State) (f : Red → Red) : (s.modRed f).tdc = s.tdc := rfl
@[simp] theorem State.modRed_quad (s : State) (f : Red → Red) : (s.modRed f).quad = s.quad := rfl
@[simp] theorem State.modRed_red (s : State) (f : Red → Red) : (s.modRed f).red = f s.red := rfl
@[simp] theorem State.modRed_hoard (s : State) (f : Red → Red) : (s.modRed f).hoard = s.hoard := rfl
@[simp] theorem State.modRed_lanes (s : State) (f : Red → Red) : (s.modRed f).lanes = s.lanes := rfl
@[simp] theorem State.modRed_fab (s : State) (f : Red → Red) : (s.modRed f).fab = s.fab := rfl
@[simp] theorem State.modRed_cmd (s : State) (f : Red → Red) : (s.modRed f).cmd = s.cmd := rfl
@[simp] theorem State.modRed_owl (s : State) (f : Red → Red) : (s.modRed f).owl = s.owl := rfl
@[simp] theorem State.modRed_prot (s : State) (f : Red → Red) : (s.modRed f).prot = s.prot := rfl
@[simp] theorem State.modRed_pair (s : State) (f : Red → Red) : (s.modRed f).pair = s.pair := rfl
@[simp] theorem State.modRed_health (s : State) (f : Red → Red) : (s.modRed f).health = s.health := rfl
@[simp] theorem State.modRed_free (s : State) (f : Red → Red) : (s.modRed f).free = s.free := rfl
@[simp] theorem State.modRed_pending (s : State) (f : Red → Red) : (s.modRed f).pending = s.pending := rfl

@[simp] theorem State.modPrj_factory (s : State) (p : Fin 64) (f : Prj → Prj) : (s.modPrj p f).factory = s.factory := rfl
@[simp] theorem State.modPrj_sup (s : State) (p : Fin 64) (f : Prj → Prj) : (s.modPrj p f).sup = s.sup := rfl
@[simp] theorem State.modPrj_boot (s : State) (p : Fin 64) (f : Prj → Prj) : (s.modPrj p f).boot = s.boot := rfl
@[simp] theorem State.modPrj_time (s : State) (p : Fin 64) (f : Prj → Prj) : (s.modPrj p f).time = s.time := rfl
@[simp] theorem State.modPrj_chans (s : State) (p : Fin 64) (f : Prj → Prj) : (s.modPrj p f).chans = s.chans := rfl
@[simp] theorem State.modPrj_setts (s : State) (p : Fin 64) (f : Prj → Prj) : (s.modPrj p f).setts = s.setts := rfl
@[simp] theorem State.modPrj_chains (s : State) (p : Fin 64) (f : Prj → Prj) : (s.modPrj p f).chains = s.chains := rfl
@[simp] theorem State.modPrj_coders (s : State) (p : Fin 64) (f : Prj → Prj) : (s.modPrj p f).coders = s.coders := rfl
@[simp] theorem State.modPrj_dens (s : State) (p : Fin 64) (f : Prj → Prj) : (s.modPrj p f).dens = s.dens := rfl
@[simp] theorem State.modPrj_plan (s : State) (p : Fin 64) (f : Prj → Prj) : (s.modPrj p f).plan = s.plan := rfl
@[simp] theorem State.modPrj_tdc (s : State) (p : Fin 64) (f : Prj → Prj) : (s.modPrj p f).tdc = s.tdc := rfl
@[simp] theorem State.modPrj_quad (s : State) (p : Fin 64) (f : Prj → Prj) : (s.modPrj p f).quad = s.quad := rfl
@[simp] theorem State.modPrj_red (s : State) (p : Fin 64) (f : Prj → Prj) :
    (s.modPrj p f).red = { s.red with prjs := vmod s.red.prjs p f } := rfl
@[simp] theorem State.modPrj_hoard (s : State) (p : Fin 64) (f : Prj → Prj) : (s.modPrj p f).hoard = s.hoard := rfl
@[simp] theorem State.modPrj_lanes (s : State) (p : Fin 64) (f : Prj → Prj) : (s.modPrj p f).lanes = s.lanes := rfl
@[simp] theorem State.modPrj_fab (s : State) (p : Fin 64) (f : Prj → Prj) : (s.modPrj p f).fab = s.fab := rfl
@[simp] theorem State.modPrj_cmd (s : State) (p : Fin 64) (f : Prj → Prj) : (s.modPrj p f).cmd = s.cmd := rfl
@[simp] theorem State.modPrj_owl (s : State) (p : Fin 64) (f : Prj → Prj) : (s.modPrj p f).owl = s.owl := rfl
@[simp] theorem State.modPrj_prot (s : State) (p : Fin 64) (f : Prj → Prj) : (s.modPrj p f).prot = s.prot := rfl
@[simp] theorem State.modPrj_pair (s : State) (p : Fin 64) (f : Prj → Prj) : (s.modPrj p f).pair = s.pair := rfl
@[simp] theorem State.modPrj_health (s : State) (p : Fin 64) (f : Prj → Prj) : (s.modPrj p f).health = s.health := rfl
@[simp] theorem State.modPrj_free (s : State) (p : Fin 64) (f : Prj → Prj) : (s.modPrj p f).free = s.free := rfl
@[simp] theorem State.modPrj_pending (s : State) (p : Fin 64) (f : Prj → Prj) : (s.modPrj p f).pending = s.pending := rfl

@[simp] theorem State.modHoard_factory (s : State) (f : Hoard → Hoard) : (s.modHoard f).factory = s.factory := rfl
@[simp] theorem State.modHoard_sup (s : State) (f : Hoard → Hoard) : (s.modHoard f).sup = s.sup := rfl
@[simp] theorem State.modHoard_boot (s : State) (f : Hoard → Hoard) : (s.modHoard f).boot = s.boot := rfl
@[simp] theorem State.modHoard_time (s : State) (f : Hoard → Hoard) : (s.modHoard f).time = s.time := rfl
@[simp] theorem State.modHoard_chans (s : State) (f : Hoard → Hoard) : (s.modHoard f).chans = s.chans := rfl
@[simp] theorem State.modHoard_setts (s : State) (f : Hoard → Hoard) : (s.modHoard f).setts = s.setts := rfl
@[simp] theorem State.modHoard_chains (s : State) (f : Hoard → Hoard) : (s.modHoard f).chains = s.chains := rfl
@[simp] theorem State.modHoard_coders (s : State) (f : Hoard → Hoard) : (s.modHoard f).coders = s.coders := rfl
@[simp] theorem State.modHoard_dens (s : State) (f : Hoard → Hoard) : (s.modHoard f).dens = s.dens := rfl
@[simp] theorem State.modHoard_plan (s : State) (f : Hoard → Hoard) : (s.modHoard f).plan = s.plan := rfl
@[simp] theorem State.modHoard_tdc (s : State) (f : Hoard → Hoard) : (s.modHoard f).tdc = s.tdc := rfl
@[simp] theorem State.modHoard_quad (s : State) (f : Hoard → Hoard) : (s.modHoard f).quad = s.quad := rfl
@[simp] theorem State.modHoard_red (s : State) (f : Hoard → Hoard) : (s.modHoard f).red = s.red := rfl
@[simp] theorem State.modHoard_hoard (s : State) (f : Hoard → Hoard) : (s.modHoard f).hoard = f s.hoard := rfl
@[simp] theorem State.modHoard_lanes (s : State) (f : Hoard → Hoard) : (s.modHoard f).lanes = s.lanes := rfl
@[simp] theorem State.modHoard_fab (s : State) (f : Hoard → Hoard) : (s.modHoard f).fab = s.fab := rfl
@[simp] theorem State.modHoard_cmd (s : State) (f : Hoard → Hoard) : (s.modHoard f).cmd = s.cmd := rfl
@[simp] theorem State.modHoard_owl (s : State) (f : Hoard → Hoard) : (s.modHoard f).owl = s.owl := rfl
@[simp] theorem State.modHoard_prot (s : State) (f : Hoard → Hoard) : (s.modHoard f).prot = s.prot := rfl
@[simp] theorem State.modHoard_pair (s : State) (f : Hoard → Hoard) : (s.modHoard f).pair = s.pair := rfl
@[simp] theorem State.modHoard_health (s : State) (f : Hoard → Hoard) : (s.modHoard f).health = s.health := rfl
@[simp] theorem State.modHoard_free (s : State) (f : Hoard → Hoard) : (s.modHoard f).free = s.free := rfl
@[simp] theorem State.modHoard_pending (s : State) (f : Hoard → Hoard) : (s.modHoard f).pending = s.pending := rfl

@[simp] theorem State.modStream_factory (s : State) (t : Fin 54) (f : Stream → Stream) :
    (s.modStream t f).factory = s.factory := rfl
@[simp] theorem State.modStream_sup (s : State) (t : Fin 54) (f : Stream → Stream) : (s.modStream t f).sup = s.sup := rfl
@[simp] theorem State.modStream_boot (s : State) (t : Fin 54) (f : Stream → Stream) : (s.modStream t f).boot = s.boot := rfl
@[simp] theorem State.modStream_time (s : State) (t : Fin 54) (f : Stream → Stream) : (s.modStream t f).time = s.time := rfl
@[simp] theorem State.modStream_chans (s : State) (t : Fin 54) (f : Stream → Stream) :
    (s.modStream t f).chans = s.chans := rfl
@[simp] theorem State.modStream_setts (s : State) (t : Fin 54) (f : Stream → Stream) :
    (s.modStream t f).setts = s.setts := rfl
@[simp] theorem State.modStream_chains (s : State) (t : Fin 54) (f : Stream → Stream) :
    (s.modStream t f).chains = s.chains := rfl
@[simp] theorem State.modStream_coders (s : State) (t : Fin 54) (f : Stream → Stream) :
    (s.modStream t f).coders = s.coders := rfl
@[simp] theorem State.modStream_dens (s : State) (t : Fin 54) (f : Stream → Stream) : (s.modStream t f).dens = s.dens := rfl
@[simp] theorem State.modStream_plan (s : State) (t : Fin 54) (f : Stream → Stream) : (s.modStream t f).plan = s.plan := rfl
@[simp] theorem State.modStream_tdc (s : State) (t : Fin 54) (f : Stream → Stream) : (s.modStream t f).tdc = s.tdc := rfl
@[simp] theorem State.modStream_quad (s : State) (t : Fin 54) (f : Stream → Stream) : (s.modStream t f).quad = s.quad := rfl
@[simp] theorem State.modStream_red (s : State) (t : Fin 54) (f : Stream → Stream) : (s.modStream t f).red = s.red := rfl
@[simp] theorem State.modStream_hoard (s : State) (t : Fin 54) (f : Stream → Stream) :
    (s.modStream t f).hoard = { s.hoard with streams := vmod s.hoard.streams t f } := rfl
@[simp] theorem State.modStream_lanes (s : State) (t : Fin 54) (f : Stream → Stream) :
    (s.modStream t f).lanes = s.lanes := rfl
@[simp] theorem State.modStream_fab (s : State) (t : Fin 54) (f : Stream → Stream) : (s.modStream t f).fab = s.fab := rfl
@[simp] theorem State.modStream_cmd (s : State) (t : Fin 54) (f : Stream → Stream) : (s.modStream t f).cmd = s.cmd := rfl
@[simp] theorem State.modStream_owl (s : State) (t : Fin 54) (f : Stream → Stream) : (s.modStream t f).owl = s.owl := rfl
@[simp] theorem State.modStream_prot (s : State) (t : Fin 54) (f : Stream → Stream) : (s.modStream t f).prot = s.prot := rfl
@[simp] theorem State.modStream_pair (s : State) (t : Fin 54) (f : Stream → Stream) : (s.modStream t f).pair = s.pair := rfl
@[simp] theorem State.modStream_health (s : State) (t : Fin 54) (f : Stream → Stream) :
    (s.modStream t f).health = s.health := rfl
@[simp] theorem State.modStream_free (s : State) (t : Fin 54) (f : Stream → Stream) : (s.modStream t f).free = s.free := rfl
@[simp] theorem State.modStream_pending (s : State) (t : Fin 54) (f : Stream → Stream) :
    (s.modStream t f).pending = s.pending := rfl

@[simp] theorem State.modQueue_factory (s : State) (q : Fin 76) (f : Queue → Queue) :
    (s.modQueue q f).factory = s.factory := rfl
@[simp] theorem State.modQueue_sup (s : State) (q : Fin 76) (f : Queue → Queue) : (s.modQueue q f).sup = s.sup := rfl
@[simp] theorem State.modQueue_boot (s : State) (q : Fin 76) (f : Queue → Queue) : (s.modQueue q f).boot = s.boot := rfl
@[simp] theorem State.modQueue_time (s : State) (q : Fin 76) (f : Queue → Queue) : (s.modQueue q f).time = s.time := rfl
@[simp] theorem State.modQueue_chans (s : State) (q : Fin 76) (f : Queue → Queue) : (s.modQueue q f).chans = s.chans := rfl
@[simp] theorem State.modQueue_setts (s : State) (q : Fin 76) (f : Queue → Queue) : (s.modQueue q f).setts = s.setts := rfl
@[simp] theorem State.modQueue_chains (s : State) (q : Fin 76) (f : Queue → Queue) :
    (s.modQueue q f).chains = s.chains := rfl
@[simp] theorem State.modQueue_coders (s : State) (q : Fin 76) (f : Queue → Queue) :
    (s.modQueue q f).coders = s.coders := rfl
@[simp] theorem State.modQueue_dens (s : State) (q : Fin 76) (f : Queue → Queue) : (s.modQueue q f).dens = s.dens := rfl
@[simp] theorem State.modQueue_plan (s : State) (q : Fin 76) (f : Queue → Queue) : (s.modQueue q f).plan = s.plan := rfl
@[simp] theorem State.modQueue_tdc (s : State) (q : Fin 76) (f : Queue → Queue) : (s.modQueue q f).tdc = s.tdc := rfl
@[simp] theorem State.modQueue_quad (s : State) (q : Fin 76) (f : Queue → Queue) : (s.modQueue q f).quad = s.quad := rfl
@[simp] theorem State.modQueue_red (s : State) (q : Fin 76) (f : Queue → Queue) : (s.modQueue q f).red = s.red := rfl
@[simp] theorem State.modQueue_hoard (s : State) (q : Fin 76) (f : Queue → Queue) :
    (s.modQueue q f).hoard = { s.hoard with queues := vmod s.hoard.queues q f } := rfl
@[simp] theorem State.modQueue_lanes (s : State) (q : Fin 76) (f : Queue → Queue) : (s.modQueue q f).lanes = s.lanes := rfl
@[simp] theorem State.modQueue_fab (s : State) (q : Fin 76) (f : Queue → Queue) : (s.modQueue q f).fab = s.fab := rfl
@[simp] theorem State.modQueue_cmd (s : State) (q : Fin 76) (f : Queue → Queue) : (s.modQueue q f).cmd = s.cmd := rfl
@[simp] theorem State.modQueue_owl (s : State) (q : Fin 76) (f : Queue → Queue) : (s.modQueue q f).owl = s.owl := rfl
@[simp] theorem State.modQueue_prot (s : State) (q : Fin 76) (f : Queue → Queue) : (s.modQueue q f).prot = s.prot := rfl
@[simp] theorem State.modQueue_pair (s : State) (q : Fin 76) (f : Queue → Queue) : (s.modQueue q f).pair = s.pair := rfl
@[simp] theorem State.modQueue_health (s : State) (q : Fin 76) (f : Queue → Queue) :
    (s.modQueue q f).health = s.health := rfl
@[simp] theorem State.modQueue_free (s : State) (q : Fin 76) (f : Queue → Queue) : (s.modQueue q f).free = s.free := rfl
@[simp] theorem State.modQueue_pending (s : State) (q : Fin 76) (f : Queue → Queue) :
    (s.modQueue q f).pending = s.pending := rfl

@[simp] theorem State.modLane_factory (s : State) (p : Port) (f : Lane → Lane) : (s.modLane p f).factory = s.factory := rfl
@[simp] theorem State.modLane_sup (s : State) (p : Port) (f : Lane → Lane) : (s.modLane p f).sup = s.sup := rfl
@[simp] theorem State.modLane_boot (s : State) (p : Port) (f : Lane → Lane) : (s.modLane p f).boot = s.boot := rfl
@[simp] theorem State.modLane_time (s : State) (p : Port) (f : Lane → Lane) : (s.modLane p f).time = s.time := rfl
@[simp] theorem State.modLane_chans (s : State) (p : Port) (f : Lane → Lane) : (s.modLane p f).chans = s.chans := rfl
@[simp] theorem State.modLane_setts (s : State) (p : Port) (f : Lane → Lane) : (s.modLane p f).setts = s.setts := rfl
@[simp] theorem State.modLane_chains (s : State) (p : Port) (f : Lane → Lane) : (s.modLane p f).chains = s.chains := rfl
@[simp] theorem State.modLane_coders (s : State) (p : Port) (f : Lane → Lane) : (s.modLane p f).coders = s.coders := rfl
@[simp] theorem State.modLane_dens (s : State) (p : Port) (f : Lane → Lane) : (s.modLane p f).dens = s.dens := rfl
@[simp] theorem State.modLane_plan (s : State) (p : Port) (f : Lane → Lane) : (s.modLane p f).plan = s.plan := rfl
@[simp] theorem State.modLane_tdc (s : State) (p : Port) (f : Lane → Lane) : (s.modLane p f).tdc = s.tdc := rfl
@[simp] theorem State.modLane_quad (s : State) (p : Port) (f : Lane → Lane) : (s.modLane p f).quad = s.quad := rfl
@[simp] theorem State.modLane_red (s : State) (p : Port) (f : Lane → Lane) : (s.modLane p f).red = s.red := rfl
@[simp] theorem State.modLane_hoard (s : State) (p : Port) (f : Lane → Lane) : (s.modLane p f).hoard = s.hoard := rfl
@[simp] theorem State.modLane_lanes (s : State) (p : Port) (f : Lane → Lane) :
    (s.modLane p f).lanes = { s.lanes with lanes := vmod s.lanes.lanes p f } := rfl
@[simp] theorem State.modLane_fab (s : State) (p : Port) (f : Lane → Lane) : (s.modLane p f).fab = s.fab := rfl
@[simp] theorem State.modLane_cmd (s : State) (p : Port) (f : Lane → Lane) : (s.modLane p f).cmd = s.cmd := rfl
@[simp] theorem State.modLane_owl (s : State) (p : Port) (f : Lane → Lane) : (s.modLane p f).owl = s.owl := rfl
@[simp] theorem State.modLane_prot (s : State) (p : Port) (f : Lane → Lane) : (s.modLane p f).prot = s.prot := rfl
@[simp] theorem State.modLane_pair (s : State) (p : Port) (f : Lane → Lane) : (s.modLane p f).pair = s.pair := rfl
@[simp] theorem State.modLane_health (s : State) (p : Port) (f : Lane → Lane) : (s.modLane p f).health = s.health := rfl
@[simp] theorem State.modLane_free (s : State) (p : Port) (f : Lane → Lane) : (s.modLane p f).free = s.free := rfl
@[simp] theorem State.modLane_pending (s : State) (p : Port) (f : Lane → Lane) : (s.modLane p f).pending = s.pending := rfl

@[simp] theorem State.modFab_factory (s : State) (f : Fab → Fab) : (s.modFab f).factory = s.factory := rfl
@[simp] theorem State.modFab_sup (s : State) (f : Fab → Fab) : (s.modFab f).sup = s.sup := rfl
@[simp] theorem State.modFab_boot (s : State) (f : Fab → Fab) : (s.modFab f).boot = s.boot := rfl
@[simp] theorem State.modFab_time (s : State) (f : Fab → Fab) : (s.modFab f).time = s.time := rfl
@[simp] theorem State.modFab_chans (s : State) (f : Fab → Fab) : (s.modFab f).chans = s.chans := rfl
@[simp] theorem State.modFab_setts (s : State) (f : Fab → Fab) : (s.modFab f).setts = s.setts := rfl
@[simp] theorem State.modFab_chains (s : State) (f : Fab → Fab) : (s.modFab f).chains = s.chains := rfl
@[simp] theorem State.modFab_coders (s : State) (f : Fab → Fab) : (s.modFab f).coders = s.coders := rfl
@[simp] theorem State.modFab_dens (s : State) (f : Fab → Fab) : (s.modFab f).dens = s.dens := rfl
@[simp] theorem State.modFab_plan (s : State) (f : Fab → Fab) : (s.modFab f).plan = s.plan := rfl
@[simp] theorem State.modFab_tdc (s : State) (f : Fab → Fab) : (s.modFab f).tdc = s.tdc := rfl
@[simp] theorem State.modFab_quad (s : State) (f : Fab → Fab) : (s.modFab f).quad = s.quad := rfl
@[simp] theorem State.modFab_red (s : State) (f : Fab → Fab) : (s.modFab f).red = s.red := rfl
@[simp] theorem State.modFab_hoard (s : State) (f : Fab → Fab) : (s.modFab f).hoard = s.hoard := rfl
@[simp] theorem State.modFab_lanes (s : State) (f : Fab → Fab) : (s.modFab f).lanes = s.lanes := rfl
@[simp] theorem State.modFab_fab (s : State) (f : Fab → Fab) : (s.modFab f).fab = f s.fab := rfl
@[simp] theorem State.modFab_cmd (s : State) (f : Fab → Fab) : (s.modFab f).cmd = s.cmd := rfl
@[simp] theorem State.modFab_owl (s : State) (f : Fab → Fab) : (s.modFab f).owl = s.owl := rfl
@[simp] theorem State.modFab_prot (s : State) (f : Fab → Fab) : (s.modFab f).prot = s.prot := rfl
@[simp] theorem State.modFab_pair (s : State) (f : Fab → Fab) : (s.modFab f).pair = s.pair := rfl
@[simp] theorem State.modFab_health (s : State) (f : Fab → Fab) : (s.modFab f).health = s.health := rfl
@[simp] theorem State.modFab_free (s : State) (f : Fab → Fab) : (s.modFab f).free = s.free := rfl
@[simp] theorem State.modFab_pending (s : State) (f : Fab → Fab) : (s.modFab f).pending = s.pending := rfl

@[simp] theorem State.modPort_factory (s : State) (p : Port) (f : FabPort → FabPort) :
    (s.modPort p f).factory = s.factory := rfl
@[simp] theorem State.modPort_sup (s : State) (p : Port) (f : FabPort → FabPort) : (s.modPort p f).sup = s.sup := rfl
@[simp] theorem State.modPort_boot (s : State) (p : Port) (f : FabPort → FabPort) : (s.modPort p f).boot = s.boot := rfl
@[simp] theorem State.modPort_time (s : State) (p : Port) (f : FabPort → FabPort) : (s.modPort p f).time = s.time := rfl
@[simp] theorem State.modPort_chans (s : State) (p : Port) (f : FabPort → FabPort) : (s.modPort p f).chans = s.chans := rfl
@[simp] theorem State.modPort_setts (s : State) (p : Port) (f : FabPort → FabPort) : (s.modPort p f).setts = s.setts := rfl
@[simp] theorem State.modPort_chains (s : State) (p : Port) (f : FabPort → FabPort) :
    (s.modPort p f).chains = s.chains := rfl
@[simp] theorem State.modPort_coders (s : State) (p : Port) (f : FabPort → FabPort) :
    (s.modPort p f).coders = s.coders := rfl
@[simp] theorem State.modPort_dens (s : State) (p : Port) (f : FabPort → FabPort) : (s.modPort p f).dens = s.dens := rfl
@[simp] theorem State.modPort_plan (s : State) (p : Port) (f : FabPort → FabPort) : (s.modPort p f).plan = s.plan := rfl
@[simp] theorem State.modPort_tdc (s : State) (p : Port) (f : FabPort → FabPort) : (s.modPort p f).tdc = s.tdc := rfl
@[simp] theorem State.modPort_quad (s : State) (p : Port) (f : FabPort → FabPort) : (s.modPort p f).quad = s.quad := rfl
@[simp] theorem State.modPort_red (s : State) (p : Port) (f : FabPort → FabPort) : (s.modPort p f).red = s.red := rfl
@[simp] theorem State.modPort_hoard (s : State) (p : Port) (f : FabPort → FabPort) : (s.modPort p f).hoard = s.hoard := rfl
@[simp] theorem State.modPort_lanes (s : State) (p : Port) (f : FabPort → FabPort) : (s.modPort p f).lanes = s.lanes := rfl
@[simp] theorem State.modPort_fab (s : State) (p : Port) (f : FabPort → FabPort) :
    (s.modPort p f).fab = { s.fab with ports := vmod s.fab.ports p f } := rfl
@[simp] theorem State.modPort_cmd (s : State) (p : Port) (f : FabPort → FabPort) : (s.modPort p f).cmd = s.cmd := rfl
@[simp] theorem State.modPort_owl (s : State) (p : Port) (f : FabPort → FabPort) : (s.modPort p f).owl = s.owl := rfl
@[simp] theorem State.modPort_prot (s : State) (p : Port) (f : FabPort → FabPort) : (s.modPort p f).prot = s.prot := rfl
@[simp] theorem State.modPort_pair (s : State) (p : Port) (f : FabPort → FabPort) : (s.modPort p f).pair = s.pair := rfl
@[simp] theorem State.modPort_health (s : State) (p : Port) (f : FabPort → FabPort) :
    (s.modPort p f).health = s.health := rfl
@[simp] theorem State.modPort_free (s : State) (p : Port) (f : FabPort → FabPort) : (s.modPort p f).free = s.free := rfl
@[simp] theorem State.modPort_pending (s : State) (p : Port) (f : FabPort → FabPort) :
    (s.modPort p f).pending = s.pending := rfl

@[simp] theorem State.modClass_factory (s : State) (p : Port) (c : Fin 6) (f : PortClass → PortClass) :
    (s.modClass p c f).factory = s.factory := rfl
@[simp] theorem State.modClass_sup (s : State) (p : Port) (c : Fin 6) (f : PortClass → PortClass) :
    (s.modClass p c f).sup = s.sup := rfl
@[simp] theorem State.modClass_boot (s : State) (p : Port) (c : Fin 6) (f : PortClass → PortClass) :
    (s.modClass p c f).boot = s.boot := rfl
@[simp] theorem State.modClass_time (s : State) (p : Port) (c : Fin 6) (f : PortClass → PortClass) :
    (s.modClass p c f).time = s.time := rfl
@[simp] theorem State.modClass_chans (s : State) (p : Port) (c : Fin 6) (f : PortClass → PortClass) :
    (s.modClass p c f).chans = s.chans := rfl
@[simp] theorem State.modClass_setts (s : State) (p : Port) (c : Fin 6) (f : PortClass → PortClass) :
    (s.modClass p c f).setts = s.setts := rfl
@[simp] theorem State.modClass_chains (s : State) (p : Port) (c : Fin 6) (f : PortClass → PortClass) :
    (s.modClass p c f).chains = s.chains := rfl
@[simp] theorem State.modClass_coders (s : State) (p : Port) (c : Fin 6) (f : PortClass → PortClass) :
    (s.modClass p c f).coders = s.coders := rfl
@[simp] theorem State.modClass_dens (s : State) (p : Port) (c : Fin 6) (f : PortClass → PortClass) :
    (s.modClass p c f).dens = s.dens := rfl
@[simp] theorem State.modClass_plan (s : State) (p : Port) (c : Fin 6) (f : PortClass → PortClass) :
    (s.modClass p c f).plan = s.plan := rfl
@[simp] theorem State.modClass_tdc (s : State) (p : Port) (c : Fin 6) (f : PortClass → PortClass) :
    (s.modClass p c f).tdc = s.tdc := rfl
@[simp] theorem State.modClass_quad (s : State) (p : Port) (c : Fin 6) (f : PortClass → PortClass) :
    (s.modClass p c f).quad = s.quad := rfl
@[simp] theorem State.modClass_red (s : State) (p : Port) (c : Fin 6) (f : PortClass → PortClass) :
    (s.modClass p c f).red = s.red := rfl
@[simp] theorem State.modClass_hoard (s : State) (p : Port) (c : Fin 6) (f : PortClass → PortClass) :
    (s.modClass p c f).hoard = s.hoard := rfl
@[simp] theorem State.modClass_lanes (s : State) (p : Port) (c : Fin 6) (f : PortClass → PortClass) :
    (s.modClass p c f).lanes = s.lanes := rfl
@[simp] theorem State.modClass_fab (s : State) (p : Port) (c : Fin 6) (f : PortClass → PortClass) :
    (s.modClass p c f).fab = { s.fab with ports := vmod s.fab.ports p fun q => { q with classes := vmod q.classes c f } } := rfl
@[simp] theorem State.modClass_cmd (s : State) (p : Port) (c : Fin 6) (f : PortClass → PortClass) :
    (s.modClass p c f).cmd = s.cmd := rfl
@[simp] theorem State.modClass_owl (s : State) (p : Port) (c : Fin 6) (f : PortClass → PortClass) :
    (s.modClass p c f).owl = s.owl := rfl
@[simp] theorem State.modClass_prot (s : State) (p : Port) (c : Fin 6) (f : PortClass → PortClass) :
    (s.modClass p c f).prot = s.prot := rfl
@[simp] theorem State.modClass_pair (s : State) (p : Port) (c : Fin 6) (f : PortClass → PortClass) :
    (s.modClass p c f).pair = s.pair := rfl
@[simp] theorem State.modClass_health (s : State) (p : Port) (c : Fin 6) (f : PortClass → PortClass) :
    (s.modClass p c f).health = s.health := rfl
@[simp] theorem State.modClass_free (s : State) (p : Port) (c : Fin 6) (f : PortClass → PortClass) :
    (s.modClass p c f).free = s.free := rfl
@[simp] theorem State.modClass_pending (s : State) (p : Port) (c : Fin 6) (f : PortClass → PortClass) :
    (s.modClass p c f).pending = s.pending := rfl

@[simp] theorem State.modUplink_factory (s : State) (u : Fin 8) (f : Uplink → Uplink) :
    (s.modUplink u f).factory = s.factory := rfl
@[simp] theorem State.modUplink_sup (s : State) (u : Fin 8) (f : Uplink → Uplink) : (s.modUplink u f).sup = s.sup := rfl
@[simp] theorem State.modUplink_boot (s : State) (u : Fin 8) (f : Uplink → Uplink) : (s.modUplink u f).boot = s.boot := rfl
@[simp] theorem State.modUplink_time (s : State) (u : Fin 8) (f : Uplink → Uplink) : (s.modUplink u f).time = s.time := rfl
@[simp] theorem State.modUplink_chans (s : State) (u : Fin 8) (f : Uplink → Uplink) :
    (s.modUplink u f).chans = s.chans := rfl
@[simp] theorem State.modUplink_setts (s : State) (u : Fin 8) (f : Uplink → Uplink) :
    (s.modUplink u f).setts = s.setts := rfl
@[simp] theorem State.modUplink_chains (s : State) (u : Fin 8) (f : Uplink → Uplink) :
    (s.modUplink u f).chains = s.chains := rfl
@[simp] theorem State.modUplink_coders (s : State) (u : Fin 8) (f : Uplink → Uplink) :
    (s.modUplink u f).coders = s.coders := rfl
@[simp] theorem State.modUplink_dens (s : State) (u : Fin 8) (f : Uplink → Uplink) : (s.modUplink u f).dens = s.dens := rfl
@[simp] theorem State.modUplink_plan (s : State) (u : Fin 8) (f : Uplink → Uplink) : (s.modUplink u f).plan = s.plan := rfl
@[simp] theorem State.modUplink_tdc (s : State) (u : Fin 8) (f : Uplink → Uplink) : (s.modUplink u f).tdc = s.tdc := rfl
@[simp] theorem State.modUplink_quad (s : State) (u : Fin 8) (f : Uplink → Uplink) : (s.modUplink u f).quad = s.quad := rfl
@[simp] theorem State.modUplink_red (s : State) (u : Fin 8) (f : Uplink → Uplink) : (s.modUplink u f).red = s.red := rfl
@[simp] theorem State.modUplink_hoard (s : State) (u : Fin 8) (f : Uplink → Uplink) :
    (s.modUplink u f).hoard = s.hoard := rfl
@[simp] theorem State.modUplink_lanes (s : State) (u : Fin 8) (f : Uplink → Uplink) :
    (s.modUplink u f).lanes = s.lanes := rfl
@[simp] theorem State.modUplink_fab (s : State) (u : Fin 8) (f : Uplink → Uplink) :
    (s.modUplink u f).fab = { s.fab with uplinks := vmod s.fab.uplinks u f } := rfl
@[simp] theorem State.modUplink_cmd (s : State) (u : Fin 8) (f : Uplink → Uplink) : (s.modUplink u f).cmd = s.cmd := rfl
@[simp] theorem State.modUplink_owl (s : State) (u : Fin 8) (f : Uplink → Uplink) : (s.modUplink u f).owl = s.owl := rfl
@[simp] theorem State.modUplink_prot (s : State) (u : Fin 8) (f : Uplink → Uplink) : (s.modUplink u f).prot = s.prot := rfl
@[simp] theorem State.modUplink_pair (s : State) (u : Fin 8) (f : Uplink → Uplink) : (s.modUplink u f).pair = s.pair := rfl
@[simp] theorem State.modUplink_health (s : State) (u : Fin 8) (f : Uplink → Uplink) :
    (s.modUplink u f).health = s.health := rfl
@[simp] theorem State.modUplink_free (s : State) (u : Fin 8) (f : Uplink → Uplink) : (s.modUplink u f).free = s.free := rfl
@[simp] theorem State.modUplink_pending (s : State) (u : Fin 8) (f : Uplink → Uplink) :
    (s.modUplink u f).pending = s.pending := rfl

@[simp] theorem State.modCmd_factory (s : State) (f : Cmd → Cmd) : (s.modCmd f).factory = s.factory := rfl
@[simp] theorem State.modCmd_sup (s : State) (f : Cmd → Cmd) : (s.modCmd f).sup = s.sup := rfl
@[simp] theorem State.modCmd_boot (s : State) (f : Cmd → Cmd) : (s.modCmd f).boot = s.boot := rfl
@[simp] theorem State.modCmd_time (s : State) (f : Cmd → Cmd) : (s.modCmd f).time = s.time := rfl
@[simp] theorem State.modCmd_chans (s : State) (f : Cmd → Cmd) : (s.modCmd f).chans = s.chans := rfl
@[simp] theorem State.modCmd_setts (s : State) (f : Cmd → Cmd) : (s.modCmd f).setts = s.setts := rfl
@[simp] theorem State.modCmd_chains (s : State) (f : Cmd → Cmd) : (s.modCmd f).chains = s.chains := rfl
@[simp] theorem State.modCmd_coders (s : State) (f : Cmd → Cmd) : (s.modCmd f).coders = s.coders := rfl
@[simp] theorem State.modCmd_dens (s : State) (f : Cmd → Cmd) : (s.modCmd f).dens = s.dens := rfl
@[simp] theorem State.modCmd_plan (s : State) (f : Cmd → Cmd) : (s.modCmd f).plan = s.plan := rfl
@[simp] theorem State.modCmd_tdc (s : State) (f : Cmd → Cmd) : (s.modCmd f).tdc = s.tdc := rfl
@[simp] theorem State.modCmd_quad (s : State) (f : Cmd → Cmd) : (s.modCmd f).quad = s.quad := rfl
@[simp] theorem State.modCmd_red (s : State) (f : Cmd → Cmd) : (s.modCmd f).red = s.red := rfl
@[simp] theorem State.modCmd_hoard (s : State) (f : Cmd → Cmd) : (s.modCmd f).hoard = s.hoard := rfl
@[simp] theorem State.modCmd_lanes (s : State) (f : Cmd → Cmd) : (s.modCmd f).lanes = s.lanes := rfl
@[simp] theorem State.modCmd_fab (s : State) (f : Cmd → Cmd) : (s.modCmd f).fab = s.fab := rfl
@[simp] theorem State.modCmd_cmd (s : State) (f : Cmd → Cmd) : (s.modCmd f).cmd = f s.cmd := rfl
@[simp] theorem State.modCmd_owl (s : State) (f : Cmd → Cmd) : (s.modCmd f).owl = s.owl := rfl
@[simp] theorem State.modCmd_prot (s : State) (f : Cmd → Cmd) : (s.modCmd f).prot = s.prot := rfl
@[simp] theorem State.modCmd_pair (s : State) (f : Cmd → Cmd) : (s.modCmd f).pair = s.pair := rfl
@[simp] theorem State.modCmd_health (s : State) (f : Cmd → Cmd) : (s.modCmd f).health = s.health := rfl
@[simp] theorem State.modCmd_free (s : State) (f : Cmd → Cmd) : (s.modCmd f).free = s.free := rfl
@[simp] theorem State.modCmd_pending (s : State) (f : Cmd → Cmd) : (s.modCmd f).pending = s.pending := rfl

@[simp] theorem State.modOwl_factory (s : State) (f : Owl → Owl) : (s.modOwl f).factory = s.factory := rfl
@[simp] theorem State.modOwl_sup (s : State) (f : Owl → Owl) : (s.modOwl f).sup = s.sup := rfl
@[simp] theorem State.modOwl_boot (s : State) (f : Owl → Owl) : (s.modOwl f).boot = s.boot := rfl
@[simp] theorem State.modOwl_time (s : State) (f : Owl → Owl) : (s.modOwl f).time = s.time := rfl
@[simp] theorem State.modOwl_chans (s : State) (f : Owl → Owl) : (s.modOwl f).chans = s.chans := rfl
@[simp] theorem State.modOwl_setts (s : State) (f : Owl → Owl) : (s.modOwl f).setts = s.setts := rfl
@[simp] theorem State.modOwl_chains (s : State) (f : Owl → Owl) : (s.modOwl f).chains = s.chains := rfl
@[simp] theorem State.modOwl_coders (s : State) (f : Owl → Owl) : (s.modOwl f).coders = s.coders := rfl
@[simp] theorem State.modOwl_dens (s : State) (f : Owl → Owl) : (s.modOwl f).dens = s.dens := rfl
@[simp] theorem State.modOwl_plan (s : State) (f : Owl → Owl) : (s.modOwl f).plan = s.plan := rfl
@[simp] theorem State.modOwl_tdc (s : State) (f : Owl → Owl) : (s.modOwl f).tdc = s.tdc := rfl
@[simp] theorem State.modOwl_quad (s : State) (f : Owl → Owl) : (s.modOwl f).quad = s.quad := rfl
@[simp] theorem State.modOwl_red (s : State) (f : Owl → Owl) : (s.modOwl f).red = s.red := rfl
@[simp] theorem State.modOwl_hoard (s : State) (f : Owl → Owl) : (s.modOwl f).hoard = s.hoard := rfl
@[simp] theorem State.modOwl_lanes (s : State) (f : Owl → Owl) : (s.modOwl f).lanes = s.lanes := rfl
@[simp] theorem State.modOwl_fab (s : State) (f : Owl → Owl) : (s.modOwl f).fab = s.fab := rfl
@[simp] theorem State.modOwl_cmd (s : State) (f : Owl → Owl) : (s.modOwl f).cmd = s.cmd := rfl
@[simp] theorem State.modOwl_owl (s : State) (f : Owl → Owl) : (s.modOwl f).owl = f s.owl := rfl
@[simp] theorem State.modOwl_prot (s : State) (f : Owl → Owl) : (s.modOwl f).prot = s.prot := rfl
@[simp] theorem State.modOwl_pair (s : State) (f : Owl → Owl) : (s.modOwl f).pair = s.pair := rfl
@[simp] theorem State.modOwl_health (s : State) (f : Owl → Owl) : (s.modOwl f).health = s.health := rfl
@[simp] theorem State.modOwl_free (s : State) (f : Owl → Owl) : (s.modOwl f).free = s.free := rfl
@[simp] theorem State.modOwl_pending (s : State) (f : Owl → Owl) : (s.modOwl f).pending = s.pending := rfl

@[simp] theorem State.modProt_factory (s : State) (f : Prot → Prot) : (s.modProt f).factory = s.factory := rfl
@[simp] theorem State.modProt_sup (s : State) (f : Prot → Prot) : (s.modProt f).sup = s.sup := rfl
@[simp] theorem State.modProt_boot (s : State) (f : Prot → Prot) : (s.modProt f).boot = s.boot := rfl
@[simp] theorem State.modProt_time (s : State) (f : Prot → Prot) : (s.modProt f).time = s.time := rfl
@[simp] theorem State.modProt_chans (s : State) (f : Prot → Prot) : (s.modProt f).chans = s.chans := rfl
@[simp] theorem State.modProt_setts (s : State) (f : Prot → Prot) : (s.modProt f).setts = s.setts := rfl
@[simp] theorem State.modProt_chains (s : State) (f : Prot → Prot) : (s.modProt f).chains = s.chains := rfl
@[simp] theorem State.modProt_coders (s : State) (f : Prot → Prot) : (s.modProt f).coders = s.coders := rfl
@[simp] theorem State.modProt_dens (s : State) (f : Prot → Prot) : (s.modProt f).dens = s.dens := rfl
@[simp] theorem State.modProt_plan (s : State) (f : Prot → Prot) : (s.modProt f).plan = s.plan := rfl
@[simp] theorem State.modProt_tdc (s : State) (f : Prot → Prot) : (s.modProt f).tdc = s.tdc := rfl
@[simp] theorem State.modProt_quad (s : State) (f : Prot → Prot) : (s.modProt f).quad = s.quad := rfl
@[simp] theorem State.modProt_red (s : State) (f : Prot → Prot) : (s.modProt f).red = s.red := rfl
@[simp] theorem State.modProt_hoard (s : State) (f : Prot → Prot) : (s.modProt f).hoard = s.hoard := rfl
@[simp] theorem State.modProt_lanes (s : State) (f : Prot → Prot) : (s.modProt f).lanes = s.lanes := rfl
@[simp] theorem State.modProt_fab (s : State) (f : Prot → Prot) : (s.modProt f).fab = s.fab := rfl
@[simp] theorem State.modProt_cmd (s : State) (f : Prot → Prot) : (s.modProt f).cmd = s.cmd := rfl
@[simp] theorem State.modProt_owl (s : State) (f : Prot → Prot) : (s.modProt f).owl = s.owl := rfl
@[simp] theorem State.modProt_prot (s : State) (f : Prot → Prot) : (s.modProt f).prot = f s.prot := rfl
@[simp] theorem State.modProt_pair (s : State) (f : Prot → Prot) : (s.modProt f).pair = s.pair := rfl
@[simp] theorem State.modProt_health (s : State) (f : Prot → Prot) : (s.modProt f).health = s.health := rfl
@[simp] theorem State.modProt_free (s : State) (f : Prot → Prot) : (s.modProt f).free = s.free := rfl
@[simp] theorem State.modProt_pending (s : State) (f : Prot → Prot) : (s.modProt f).pending = s.pending := rfl

@[simp] theorem State.modPair_factory (s : State) (f : Pair → Pair) : (s.modPair f).factory = s.factory := rfl
@[simp] theorem State.modPair_sup (s : State) (f : Pair → Pair) : (s.modPair f).sup = s.sup := rfl
@[simp] theorem State.modPair_boot (s : State) (f : Pair → Pair) : (s.modPair f).boot = s.boot := rfl
@[simp] theorem State.modPair_time (s : State) (f : Pair → Pair) : (s.modPair f).time = s.time := rfl
@[simp] theorem State.modPair_chans (s : State) (f : Pair → Pair) : (s.modPair f).chans = s.chans := rfl
@[simp] theorem State.modPair_setts (s : State) (f : Pair → Pair) : (s.modPair f).setts = s.setts := rfl
@[simp] theorem State.modPair_chains (s : State) (f : Pair → Pair) : (s.modPair f).chains = s.chains := rfl
@[simp] theorem State.modPair_coders (s : State) (f : Pair → Pair) : (s.modPair f).coders = s.coders := rfl
@[simp] theorem State.modPair_dens (s : State) (f : Pair → Pair) : (s.modPair f).dens = s.dens := rfl
@[simp] theorem State.modPair_plan (s : State) (f : Pair → Pair) : (s.modPair f).plan = s.plan := rfl
@[simp] theorem State.modPair_tdc (s : State) (f : Pair → Pair) : (s.modPair f).tdc = s.tdc := rfl
@[simp] theorem State.modPair_quad (s : State) (f : Pair → Pair) : (s.modPair f).quad = s.quad := rfl
@[simp] theorem State.modPair_red (s : State) (f : Pair → Pair) : (s.modPair f).red = s.red := rfl
@[simp] theorem State.modPair_hoard (s : State) (f : Pair → Pair) : (s.modPair f).hoard = s.hoard := rfl
@[simp] theorem State.modPair_lanes (s : State) (f : Pair → Pair) : (s.modPair f).lanes = s.lanes := rfl
@[simp] theorem State.modPair_fab (s : State) (f : Pair → Pair) : (s.modPair f).fab = s.fab := rfl
@[simp] theorem State.modPair_cmd (s : State) (f : Pair → Pair) : (s.modPair f).cmd = s.cmd := rfl
@[simp] theorem State.modPair_owl (s : State) (f : Pair → Pair) : (s.modPair f).owl = s.owl := rfl
@[simp] theorem State.modPair_prot (s : State) (f : Pair → Pair) : (s.modPair f).prot = s.prot := rfl
@[simp] theorem State.modPair_pair (s : State) (f : Pair → Pair) : (s.modPair f).pair = f s.pair := rfl
@[simp] theorem State.modPair_health (s : State) (f : Pair → Pair) : (s.modPair f).health = s.health := rfl
@[simp] theorem State.modPair_free (s : State) (f : Pair → Pair) : (s.modPair f).free = s.free := rfl
@[simp] theorem State.modPair_pending (s : State) (f : Pair → Pair) : (s.modPair f).pending = s.pending := rfl

@[simp] theorem State.modHealth_factory (s : State) (f : Health → Health) : (s.modHealth f).factory = s.factory := rfl
@[simp] theorem State.modHealth_sup (s : State) (f : Health → Health) : (s.modHealth f).sup = s.sup := rfl
@[simp] theorem State.modHealth_boot (s : State) (f : Health → Health) : (s.modHealth f).boot = s.boot := rfl
@[simp] theorem State.modHealth_time (s : State) (f : Health → Health) : (s.modHealth f).time = s.time := rfl
@[simp] theorem State.modHealth_chans (s : State) (f : Health → Health) : (s.modHealth f).chans = s.chans := rfl
@[simp] theorem State.modHealth_setts (s : State) (f : Health → Health) : (s.modHealth f).setts = s.setts := rfl
@[simp] theorem State.modHealth_chains (s : State) (f : Health → Health) : (s.modHealth f).chains = s.chains := rfl
@[simp] theorem State.modHealth_coders (s : State) (f : Health → Health) : (s.modHealth f).coders = s.coders := rfl
@[simp] theorem State.modHealth_dens (s : State) (f : Health → Health) : (s.modHealth f).dens = s.dens := rfl
@[simp] theorem State.modHealth_plan (s : State) (f : Health → Health) : (s.modHealth f).plan = s.plan := rfl
@[simp] theorem State.modHealth_tdc (s : State) (f : Health → Health) : (s.modHealth f).tdc = s.tdc := rfl
@[simp] theorem State.modHealth_quad (s : State) (f : Health → Health) : (s.modHealth f).quad = s.quad := rfl
@[simp] theorem State.modHealth_red (s : State) (f : Health → Health) : (s.modHealth f).red = s.red := rfl
@[simp] theorem State.modHealth_hoard (s : State) (f : Health → Health) : (s.modHealth f).hoard = s.hoard := rfl
@[simp] theorem State.modHealth_lanes (s : State) (f : Health → Health) : (s.modHealth f).lanes = s.lanes := rfl
@[simp] theorem State.modHealth_fab (s : State) (f : Health → Health) : (s.modHealth f).fab = s.fab := rfl
@[simp] theorem State.modHealth_cmd (s : State) (f : Health → Health) : (s.modHealth f).cmd = s.cmd := rfl
@[simp] theorem State.modHealth_owl (s : State) (f : Health → Health) : (s.modHealth f).owl = s.owl := rfl
@[simp] theorem State.modHealth_prot (s : State) (f : Health → Health) : (s.modHealth f).prot = s.prot := rfl
@[simp] theorem State.modHealth_pair (s : State) (f : Health → Health) : (s.modHealth f).pair = s.pair := rfl
@[simp] theorem State.modHealth_health (s : State) (f : Health → Health) : (s.modHealth f).health = f s.health := rfl
@[simp] theorem State.modHealth_free (s : State) (f : Health → Health) : (s.modHealth f).free = s.free := rfl
@[simp] theorem State.modHealth_pending (s : State) (f : Health → Health) : (s.modHealth f).pending = s.pending := rfl

end Sys2Proof.Machine
end

