-- ==== Sys2Proof/WellFormed.lean ====
section
/-! DEFINITION. Which commands can be given at all: the sizes that the framing has checked before a command exists. -/

namespace Sys2Proof

/-- A packet as steps 1 and 2 of R450 let it through: at most 2,012 parameter bytes with a MAC of 16 bytes when AUTH is
1, at most 2,028 without one otherwise (R443). -/
def Packet.wf (p : Packet) : Bool :=
  if p.flags.getLsbD 1 then decide (p.mac.length = 16) && decide (4 * p.params.length ≤ 2012)
  else p.mac.isEmpty && decide (4 * p.params.length ≤ 2028)

/-- A frame as long as its LENGTH can say: at most 2,048 payload bytes (R405). -/
def Frame.wf (f : Frame) : Bool := decide (f.payload.length ≤ 512)

/-- The command is one that can be given. A margin scan's points are 65 and 127 (R397); a stamp and a code histogram
need no check. -/
def Instr.wf : Instr → Bool
  | .sysInfo p | .sysModeSet p | .sysReset p | .sysEventsRead p | .sysConfigRead p | .afeConfig p | .afeRange p
  | .excConfig p | .afeDiag p | .convMode p | .convInject p | .calStart p | .calPoint p | .calCommit p | .calRead p
  | .rawTap p | .fltPreset p | .fltCoefLoad p | .fltStart p | .fltStop p | .fltGrowth p | .planWrite p
  | .planValidate p | .planSwap p | .planRead p | .planStatus p | .timeRead p | .timeServoConfig p | .timeRole p
  | .timeStepPolicy p | .delayTapSet p | .tdcConfig p | .tdcWindow p | .tdcRead p | .tdcCal p | .quadConfig p
  | .quadStatus p | .prjDefine p | .prjEnable p | .accConfig p | .minmaxRead p | .subOpen p | .subAck p | .subClose p
  | .markSet p | .rewind p | .hoardStatus p | .queueConfig p | .coderConfig p | .coderStatus p | .decodeTest p
  | .laneConfig p | .laneEq p | .lanePrbs p | .laneMargin p | .laneSleep p | .fabJoin p | .fabRoute p | .fabStatus p
  | .fabConfigPublish p | .ethConfig p | .safeParamWrite p | .safeCommission p | .safeStatus p | .safePulseConfig p
  | .safeResetReq p | .protPropose p | .protConfirm p | .protAbort p | .keyInstall p | .fwStage p | .fwActivate p
  | .sessionOpen p | .sessionClose p | .pairConfig p | .pairStatus p | .pairCheckpointNow p | .pairYield p
  | .healthReport p | .marginPlan p | .chanRetire p | .chanRestore p | .countersRead p | .countersClear p => p.wf
  | .frameForward _ f | .beaconRx _ f => f.wf
  | .laneMarginDone _ e | .ageingEyeScan _ e => decide (e.horizontal.length = 65) && decide (e.vertical.length = 127)
  | .udpDatagramRx _ d => match d.frame with
    | some f => f.wf
    | none => true
  | .regWrite a _ => a.getLsbD 0 == false && a.getLsbD 1 == false
  | _ => true

end Sys2Proof
end

