-- ==== Sys2Proof/Tests/Slice0.lean ====
section
/-! SUPPORT. Tests: ill-formed terms that the checks refuse, single steps, and for every statement with hypotheses a
state and operands that meet them. -/

namespace Sys2Proof.Tests

open Machine

set_option Elab.async false

/-! States and packets that the tests share. -/

/-- A powered hub in a mode, its firmware running, its clocks released, every rail good. -/
def hub (m : Mode) : State :=
  { State.reset with
    sup := { State.reset.sup with mode := m }
    boot := { State.reset.boot with
      domains := true, plls := true, fwMem := true, sram := true, owlTest := true, dram := true, dens := 0xF, interp := true
      fwLoaded := true, fwRuns := true, cfgApplied := true, frontOn := true }
    time := { State.reset.time with tclk := true, sclk := true } }

/-- The hub in Service. -/
def svc : State := hub .service

/-- A request of session 0 on the control port, with LOCAL set. -/
def ask (params : List Word) : Packet :=
  { origin := .controlPort, ep := none, flags := 4, session := 0, reqId := 1, hubId := 0, resv := 0, word3 := 0,
    params := params, mac := [], crc := 0 }

/-- The key of session 1 in the tests. -/
def key1 : List Byte := List.replicate 32 7

/-- A session 1 open for key slot 0, with every role. -/
def opened (s : State) : State :=
  { s with
    cmd := { s.cmd with
      inbox := [], held := 0, running := []
      sessions := vset s.cmd.sessions 0 (some { slot := 0, key := key1, usedAt := s.lcN, cache := Cache.empty }) }
    prot := { s.prot with
      switching := false
      slots := vmod s.prot.slots 0 fun k => { k with roles := 0xF, fails := 0, lockedUntil := none } } }

/-- A request of session 1 on the control port before its MAC is there. -/
def unsigned (params : List Word) : Packet :=
  { origin := .controlPort, ep := none, flags := 6, session := 1, reqId := 1, hubId := 0, resv := 0, word3 := 0,
    params := params, mac := [], crc := 0 }

/-- A request of session 1 with its MAC (R452). -/
def signed (code : Nat) (params : List Word) : Packet :=
  { unsigned params with mac := (hmac key1 (bytesOfWords (requestHeader code (unsigned params) ++ params))).take 16 }

/-- The context of a request of session 1. -/
def ctx1 (code : Nat) (params : List Word) : Ctx :=
  { packet := signed code params, session := some 0, slot := some 0, roles := 0xF, replay := false }

/-- The state in which a request of session 1 begins its own checks. -/
def ready (code : Nat) (params : List Word) (s : State) : State :=
  let s1 := (passAuth 0 ((opened s).modCmd fun c => { c with held := c.held + 1 })).modSession 0 fun y => { y with usedAt := s.lcN }
  putCache (signed code params) (enterCache (s1.cacheOf (signed code params)) (signed code params)) s1

theorem macOk_signed (code : Nat) (params : List Word) : macOk code (signed code params) key1 = true := beq_self_eq_true _

theorem lockedOut_opened (s : State) : (opened s).lockedOut 0 = false := by
  simp [State.lockedOut, opened, vmod]

/-- A signed request of session 1 is admitted wherever packets are accepted. -/
theorem admitted_signed (code : Nat) (params : List Word) (s : State) (hl : s.portLive = true)
    (hm : s.boot.fwMem = true) (hf : s.boot.fwRuns = true) (hr : s.sup.lastSysReset = none) :
    admitted code (signed code params) (opened s) = some (ctx1 code params, ready code params s) := by
  have hs : s.served = true := by
    unfold State.portLive at hl
    simp only [Bool.and_eq_true] at hl
    exact hl.1
  have h1 : (opened s).portLive = true := hl
  have h2 : (opened s).accepting = true := by
    show ((opened s).served && (opened s).boot.fwMem && !(opened s).prot.switching) = true
    have : (opened s).served = true := hs
    rw [this]
    show (true && s.boot.fwMem && !false) = true
    rw [hm]; rfl
  have h3 : takeUp code (signed code params) (opened s) = some ((opened s).modCmd fun c => { c with held := c.held + 1 }) := by
    unfold takeUp
    have hp : (opened s).pktReady = true := by
      unfold State.pktReady
      rw [h2]; rfl
    simp only []
    rw [if_neg (by show ¬ List.contains [] _ = true; simp), if_pos (show (signed code params).origin = .controlPort from rfl), if_pos hp]
  have h4 : authentic code (signed code params) ((opened s).modCmd fun c => { c with held := c.held + 1 }) =
      some (ctx1 code params, (passAuth 0 ((opened s).modCmd fun c => { c with held := c.held + 1 })).modSession 0
        fun y => { y with usedAt := s.lcN }) := by
    unfold authentic
    have h0 : ¬ (signed code params).session = 0 := by show ¬ (1 : Byte) = 0; decide
    rw [if_neg h0]
    have ho : ((opened s).modCmd fun c => { c with held := c.held + 1 }).openSession 0 =
        some { slot := 0, key := key1, usedAt := s.lcN, cache := Cache.empty } := by
      unfold State.openSession
      have : ((opened s).modCmd fun c => { c with held := c.held + 1 }).cmd.sessions[(0 : Fin 8)] =
          some { slot := 0, key := key1, usedAt := s.lcN, cache := Cache.empty } := by
        simp [opened, vset, State.modCmd]
      rw [this]
      have hl : ((opened s).modCmd fun c => { c with held := c.held + 1 }).lcN = s.lcN := rfl
      simp [hl]
    have hi : sessionIndex (signed code params).session = some 0 := rfl
    rw [hi]
    simp only [Option.bind_some, ho, Option.map_some]
    have ha : reqAuth (signed code params) = true := by show (6 : Byte).getLsbD 1 = true; decide
    have hk : ((opened s).modCmd fun c => { c with held := c.held + 1 }).lockedOut 0 = false := lockedOut_opened s
    simp only [ha, hk, macOk_signed, Bool.not_false, Bool.and_self, if_true]
    have hr : ((opened s).modCmd fun c => { c with held := c.held + 1 }).prot.slots[(0 : Fin 8)].roles = 0xF := by
      simp [opened, vmod, State.modCmd]
    rw [hr]; rfl
  have hc : headerClean (signed code params) = true := by
    show ((6 : Byte) &&& 0xF9 == 0 && (0 : BitVec 6) == 0 && (0 : Word) == 0) = true
    decide
  unfold admitted
  rw [if_pos (by rw [h1, h2]; show (true && true && s.boot.fwRuns && headerClean (signed code params)) = true; rw [hf, hc]; rfl)]
  rw [h3]
  simp only [Option.bind_some]
  rw [h4]
  simp only [Option.bind_some]
  have hca : ((passAuth 0 ((opened s).modCmd fun c => { c with held := c.held + 1 })).modSession 0
        fun y => { y with usedAt := s.lcN }).cacheOf (signed code params) = Cache.empty := by
    unfold State.cacheOf
    have hi : sessionIndex (signed code params).session = some 0 := rfl
    simp [hi, State.modSession, State.modCmd, passAuth, State.modSlotKey, State.modProt, opened, vmod, vset]
  have hrep : ∀ t : State, t.sup.lastSysReset = none → t.resetRepeated code (signed code params) = false := by
    intro t ht
    simp [State.resetRepeated, ht]
  rw [hrep _ (by exact hr), hca]
  have hrun : ((passAuth 0 ((opened s).modCmd fun c => { c with held := c.held + 1 })).modSession 0
        fun y => { y with usedAt := s.lcN }).cmd.running.length < 16 := by
    show (0 : Nat) < 16
    decide
  have hlook : lookCache Cache.empty (signed code params) = .fresh := by
    simp [lookCache, cacheAge, cacheHigh, Cache.empty, signed, unsigned]
  rw [hlook]
  simp only [hrun, decide_true, Bool.not_false, beq_self_eq_true, Bool.and_self, if_true]
  unfold ready
  simp only []
  rw [hca]


/-- A plan of these entries with 2,000 ticks to the frame, active and in both banks. -/
def planned (es : List Word64) (s : State) : State :=
  let b : Bank := { words := (1, BitVec.ofNat 64 (2000 + es.length * 2 ^ 32)) :: (es.zipIdx.map fun e => (8 + e.2, e.1))
                    state := .valid, upsets := [], peakMa := 0 }
  s.modPlan fun p => { p with active := true, stopped := false, banks := Vector.replicate 2 b }

/-- An entry of a type with a target and an argument, at a tick of its frame. -/
def entryOf (type tick target arg : Nat) : Word64 := BitVec.ofNat 64 (type + 16 * tick + 2 ^ 25 * target + 2 ^ 32 * arg)

/-- Lane p up in SWL, its link's credits exchanged. -/
def linked (p : Port) (s : State) : State :=
  (s.modLane p fun l => { l with settings := 0x03, rx := .up, tx := .on }).modPort p fun x =>
    { x with initTx := true, classes := x.classes.map fun c => { c with initRx := true } }

/-- Lane p up in Ethernet. -/
def ethernet (p : Port) (s : State) : State := s.modLane p fun l => { l with settings := 0x07, rx := .up, tx := .on }

/-! Ill-formed terms, each refused by its check (R443, R450, R405, R397, R465). -/

/-- A request without authentication. -/
def plain (params : List Word) : Packet := { unsigned params with flags := 0, session := 0 }

/-- A frame with this payload. -/
def frameOf (payload : List Word) : Frame := { w0 := 0, w1 := 0, w2 := 0, w3 := 0, payload := payload, crc := 0 }

theorem test_wf_good : Instr.wf (.sysInfo (plain [])) = true ∧
    Instr.wf (.calCommit { unsigned [0xD5] with mac := List.replicate 16 0 }) = true ∧
    Instr.wf (.frameForward 0 (frameOf (List.replicate 512 0))) = true ∧ Instr.wf (.regWrite 0x24 [0]) = true := by decide +kernel
theorem test_wf_auth_without_mac : Instr.wf (.sysInfo (unsigned [])) = false := by decide +kernel
theorem test_wf_auth_too_long :
    Instr.wf (.planWrite { unsigned (List.replicate 504 0) with mac := List.replicate 16 0 }) = false := by decide +kernel
theorem test_wf_mac_without_auth : Instr.wf (.sysInfo { plain [] with mac := [0] }) = false := by decide +kernel
theorem test_wf_plain_too_long : Instr.wf (.sysInfo (plain (List.replicate 508 0))) = false := by decide +kernel
theorem test_wf_frame_too_long : Instr.wf (.frameForward 3 (frameOf (List.replicate 513 0))) = false ∧
    Instr.wf (.beaconRx 3 (frameOf (List.replicate 513 0))) = false := by decide +kernel
theorem test_wf_datagram_frame_too_long :
    Instr.wf (.udpDatagramRx 0
      { srcIp := 0, srcUdp := 0, dstIp := 0, dstUdp := 0, fragment := false, options := false, tagged := false,
        pause := false, checksumOk := true, frame := some (frameOf (List.replicate 513 0)) }) = false := by decide +kernel
theorem test_wf_scan_points :
    Instr.wf (.laneMarginDone 0 { horizontal := List.replicate 64 true, vertical := List.replicate 127 true }) = false ∧
    Instr.wf (.ageingEyeScan 0 { horizontal := List.replicate 65 true, vertical := List.replicate 126 true }) = false := by
  decide +kernel
theorem test_wf_unaligned_write : Instr.wf (.regWrite 0x26 [0]) = false := by decide +kernel

/-! Published check values of the algorithms that the spec names. -/

/-- "123456789". -/
def digits : List Byte := [0x31, 0x32, 0x33, 0x34, 0x35, 0x36, 0x37, 0x38, 0x39]

theorem test_crc32c : crc32c digits = 0xE3069283 := by decide +kernel
theorem test_sha256_abc : beWords (sha256 [0x61, 0x62, 0x63]) =
    [0xBA7816BF, 0x8F01CFEA, 0x414140DE, 0x5DAE2223, 0xB00361A3, 0x96177A9C, 0xB410FF61, 0xF20015AD] := by decide +kernel

/-! Worked examples of the spec. -/

/-- The entries of R201's example. -/
theorem test_entry_burst : eType 0x00001FFF00000A04 = 4 ∧ eOffset 0x00001FFF00000A04 = 160 ∧
    eTarget 0x00001FFF00000A04 = 0 ∧ eMask 0x00001FFF00000A04 = 0xFFF ∧ burstLen (eCode 0x00001FFF00000A04) = 1024 := by
  decide +kernel
theorem test_entry_exc_on : eType 0x000000FF04005041 = 1 ∧ eOffset 0x000000FF04005041 = 1284 ∧
    (eSetts 0x000000FF04005041).map Fin.val = [24, 25, 26, 27, 28, 29, 30, 31] := by decide +kernel

/-- MU_0 of the example of chapter 09: BIPOLAR, W_PRE 20 ns, W_POST 200 ns. -/
def muExample : MeasUnit := { MeasUnit.reset with enable := true, bipolar := true, startIn := 7, stopIn := 3, wPre := 20, wPost := 200 }

/-- A stop at 100.000 is held, and the start at 112.500 gives −3,200 (R271). -/
theorem test_mu_held_stop : (muEdge 7 true 28800 (muEdge 3 true 25600 muExample).1).2 = some { start := 28800, value := -3200 } := by
  decide +kernel
/-- Starts at 600.000 and 650.250, a stop at 701.1328125: 13,026, and one START_ORPHAN (R270, R271). -/
theorem test_mu_orphan : let u := (muEdge 7 true 166464 (muEdge 7 true 153600 muExample).1).1
    (muEdge 3 true 179490 u).2 = some { start := 166464, value := 13026 } ∧ u.startOrphan = 1 := by decide +kernel

/-- The trims of the example of chapter 10: OX −10,066 and OY +6,711 codes at 64 codes a tap (R282). -/
theorem test_trim_shares : (trimShare (BitVec.ofInt 32 (-10066 * 256)) (256 * 64)).toInt = -157 ∧
    (trimShare (BitVec.ofInt 32 (6711 * 256)) (256 * 64)).toInt = 105 := by decide +kernel
/-- The ramp intervals of that example: 157, 105, 335 and 365 (R286). -/
theorem test_ramp_intervals : offsetIntervals 0 0 (BitVec.ofInt 32 (-10066 * 256)) 64 = 157 ∧
    offsetIntervals 0 0 (BitVec.ofInt 32 (6711 * 256)) 64 = 105 ∧ intervalsFor 1073741824 1095654922 65536 = 335 ∧
    intervalsFor 0 23860929 65536 = 365 := by decide +kernel

/-- The samples of the example of chapter 13: 1,879,048 + 300n + a·(−1)^n. -/
def ripple (a : Int) : List (Option Int) :=
  (List.range 32).map fun (n : Nat) => some (1879048 + 300 * (n : Int) + if n % 2 = 0 then a else -a)

theorem test_coder_lossless : searchDepth 9 none (ripple 40) = (0, 2, 9) := by decide +kernel
theorem test_coder_rounded : searchDepth 9 none (ripple 201) = (2, 1, 9) := by decide +kernel
theorem test_coder_block : let n := blockNumber 2 1 9 none 0 0 (codedValues 2 none (ripple 201))
    n % 2 ^ 24 = 0x000649 ∧ n / 2 ^ 80 % 2 ^ 24 = 0x072B34 ∧ n / 2 ^ 104 % 2 ^ 9 = 0x1E7 := by decide +kernel

/-- The header bytes of the CAL_COMMIT request of the example of chapter 16 (R443). -/
theorem test_request_bytes :
    bytesOfWords (requestHeader 0x0304
      { plain [0xD5] with flags := 2, session := 3, reqId := 1000, hubId := 17 } ++ [0xD5]) =
    [0x04, 0x03, 0x02, 0x03, 0xE8, 0x03, 0x00, 0x00, 0x04, 0x00, 0x11, 0x00, 0, 0, 0, 0, 0xD5, 0, 0, 0] := by decide +kernel

/-! The plan of the example of chapter 07. -/

/-- Groups A, B and C as (den, mask) pairs. -/
def groupA : List (Nat × Nat) := [(0, 0xFFF), (1, 0x00F)]
def groupB : List (Nat × Nat) := [(1, 0xFF0), (2, 0x0FF)]
def groupC : List (Nat × Nat) := [(2, 0xF00), (3, 0xFFF)]

/-- EXC_ON and SETTLE of LENGTH 160 for each den of a group, then BURST B_1024, then EXC_OFF. -/
def groupOn (tick : Nat) (g : List (Nat × Nat)) : List Word64 :=
  g.map (fun d => entryOf 1 tick d.1 d.2) ++ g.map fun d => entryOf 3 tick d.1 (d.2 + 160 * 2 ^ 12)
def groupBurst (tick : Nat) (g : List (Nat × Nat)) : List Word64 := g.map fun d => entryOf 4 tick d.1 (d.2 + 2 ^ 12)
def groupOff (tick : Nat) (g : List (Nat × Nat)) : List Word64 := g.map fun d => entryOf 2 tick d.1 d.2

/-- The 29 entries, with group B on from a tick. -/
def threeGroups (onB : Nat) : List Word64 :=
  groupOn 0 groupA ++ groupBurst 160 groupA ++ groupOff 1184 groupA ++ groupOn onB groupB ++ groupBurst 1444 groupB ++
  groupOff 2468 groupB ++ groupOn 2568 groupC ++ groupBurst 2728 groupC ++ [entryOf 8 3000 0 0, entryOf 8 3000 2 0] ++
  [entryOf 8 3400 1 0, entryOf 8 3400 3 0] ++ groupOff 3752 groupC ++ [0xC]

/-- The cycle of these entries with FRAME_TICKS 4,000. -/
def threeCycle (onB : Nat) : Cycle :=
  Bank.asCycle { words := (1, BitVec.ofNat 64 (4000 + 29 * 2 ^ 32)) :: ((threeGroups onB).zipIdx.map fun e => (8 + e.2, e.1))
                 state := .written, upsets := [], peakMa := 0 }

/-- Every sett drives a bridge with ILIM 35 mA, in burst conversion. -/
def bridges : State :=
  { svc with setts := svc.setts.map fun x => { x with excMode := 1, ilim := 7, burstMode := true } }

/-- PLAN_VALIDATE of the example: PEAK_MA 560, CYCLE_FRAMES 1, and every check of a sett passes (R209, R222). -/
theorem test_plan_peak : bridges.peakMa (threeCycle 1284) [] = 560 ∧ (threeCycle 1284).frames.length = 1 := by decide +kernel
theorem test_plan_setts : ((bridges.settChecks (threeCycle 1284)).all fun f => overSetts allSetts f == none) = true := by
  decide +kernel
/-- Group B on with group A's tail: code 0x0F at entry 8, offset 1,184 (R209). -/
theorem test_plan_over_budget : bridges.budgetError (threeCycle 1184) 0xF 800 [] =
    some { code := 0x0F, idx := 8, offset := 1184 } := by decide +kernel

/-! Single steps. -/

/-- VDD_AON good takes the hub from Off to Hibernate (R30, R63). -/
theorem test_step_vdd_aon : (match step { State.reset with pending := [.vddAonGood] } with
    | .next s => s.sup.mode == .hibernate && s.pending == []
    | _ => false) = true := by decide +kernel

/-! Witnesses of the statements. -/

theorem witness_FrontCommandRuns : ({ State.reset with pending := [.lcWrap, .beaconTx] } : State).pending = .lcWrap :: [.beaconTx] := rfl

theorem witness_EveryCommandAnswers : (Instr.lcWrap).isDebugOp = false ∧ (Instr.jtagInstruction .extest []).isDebugOp = false := ⟨rfl, rfl⟩

theorem witness_SparseMemoriesStayCanonical : State.reset.Canonical ∧ ∃ t, step State.reset = .next t :=
  ⟨⟨by decide, by decide, by decide, by decide⟩, ⟨_, rfl⟩⟩

theorem witness_RunsNeverStop : ∀ c ∈ ({ State.reset with pending := [.vddAonGood, .lcWrap] } : State).pending, c.isDebugOp = false := by
  decide

theorem witness_NoticesTouchOnlyStreamsAndWindow : State.reset.boot.fwRuns = false := rfl

theorem witness_TimePassesAlone : State.reset.time.sclk = false ∧ (State.reset.modTime fun t => { t with sclk := true }).time.sclk = true := ⟨rfl, rfl⟩

theorem witness_RepliesTouchOnlyTheWayOut (code : Nat) (s : State) :
    (replayPacket []).origin = .controlPort := rfl

theorem witness_AdmissionTouchesOnlyTheRequest :
    ∃ c s1, admitted 0x0100 (ask [0]) svc = some (c, s1) := by
  exact ⟨_, _, rfl⟩

/-- One cache for each branch: empty, HIGH far ahead, and the REQ_ID there with another CRC, executing, and answered. -/
theorem witness_ReplayCacheRule :
    State.resetRepeated svc 0x0100 (ask []) = false ∧ svc.cacheOf (ask []) = Cache.empty ∧ svc.cmd.running.length < 16 ∧
    lookCache { high := some 65, entries := [] } (ask []) = .stale ∧
    lookCache { high := some 1, entries := [{ reqId := 1, crc := 5, reply := none }] } (ask []) = .reuse ∧
    lookCache { high := some 1, entries := [{ reqId := 1, crc := 0, reply := none }] } (ask []) = .executing ∧
    (lookCache { high := some 64, entries := [{ reqId := 1, crc := 0, reply := some (0, false, []) }] } (ask [])) =
      .duplicate { reqId := 1, crc := 0, reply := some (0, false, []) } := by
  decide

/-- AFE_CONFIG on session 0 lacks access; PLAN_WRITE with no words lacks its length; RAW_TAP outside its modes. -/
theorem witness_ChecksBeforeEffect :
    (∃ c s1, admitted afeConfigSpec.code (ask []) svc = some (c, s1) ∧ afeConfigSpec.access c [] s1 = false) ∧
    (∃ c s1, admitted sysInfoSpec.code (ask []) svc = some (c, s1) ∧ sysInfoSpec.access c [] s1 = true ∧
      sysInfoSpec.mode [] s1 = stOk ∧ sysInfoSpec.length [] = false) ∧
    (∃ c s1, admitted sysConfigSpec.code (ask [0, 0]) (hub .safeCore) = some (c, s1) ∧ sysConfigSpec.access c [0, 0] s1 = true ∧
      sysConfigSpec.mode [0, 0] s1 ≠ stOk) := by
  exact ⟨⟨_, _, rfl, rfl⟩, ⟨_, _, rfl, rfl, rfl, rfl⟩, ⟨_, _, rfl, rfl, by decide⟩⟩

theorem witness_RailsAndHotEn :
    State.reset.sup.mode = .off ∧ svc.sup.mode ≠ .off ∧ svc.sup.railGood.getLsbD 12 = false ∧
    ((svc.modSup fun u => { u with bankLevel := vset u.bankLevel 3 (some true) }).sup.bankLevel[(3 : Fin 4)]).isSome = true ∧
    (svc.modSup fun u => { u with railGood := 0x1000 }).sup.railGood.getLsbD 12 = true ∧
    svc.sup.bankLevel[(0 : Fin 4)] = none ∧ svc.sup.hotQualified = false := by
  refine ⟨rfl, by decide, by decide, by decide, by decide, by decide, rfl⟩

theorem witness_ResetLosesEveryDomainButAon :
    (svc.modSup fun u => { u with inReset := false }).sup.inReset = false ∧ State.reset.sup.inReset = true := ⟨rfl, rfl⟩

/-- A hub in reset, every source ended, and the straps latched. -/
def resetHub : State :=
  State.reset.modSup fun u => { u with mode := .hibernate, src := Sources.none, seen := 8, straps := { u.straps with latched := true } }

theorem witness_ResetSourcesAndRelease :
    (svc.sup.mode ≠ .off ∧ svc.sup.src.pin = false) ∧
    (svc.modSup fun u => { u with src := { Sources.none with pin := true, cmd := true, clock := true } }).sup.src =
      { Sources.none with pin := true, cmd := true, clock := true } ∧
    ((resetHub.modSup fun u => { u with straps := { u.straps with latched := false } }).sup.seen.getLsbD 3 = true) ∧
    (resetHub.sup.inReset = true ∧ resetHub.sup.src.ended = true ∧ resetHub.sup.startConditions true = false) ∧
    (resetHub.modSup fun u => { u with railGood := 0x1FFF, hotQualified := true }).sup.startConditions true = true ∧
    (svc.modSup fun u => { u with sysResetDue := some (false, 5) }).sup.sysResetDue = some (false, 5) ∧
    (svc.modSup fun u => { u with pllLocked := 0xF }).sup.pllLocked.getLsbD 2 = true := by
  refine ⟨⟨by decide, by decide⟩, rfl, by decide, ⟨rfl, by decide, by decide⟩, by decide, rfl, by decide⟩

theorem witness_ResetSourcesAndRelease_sysReset (w : Word) (hw : w = 1 ∨ w = 0) :
    admitted 0x0102 (signed 0x0102 [w]) (opened svc) = some (ctx1 0x0102 [w], ready 0x0102 [w] svc) ∧
    accEng (ctx1 0x0102 [w]) = true ∧ resv w 31 1 = true ∧ (ready 0x0102 [w] svc).pair.paired = false ∧
    (ready 0x0102 [w] svc).sup.sysResetDue = none := by
  rcases hw with rfl | rfl <;> exact ⟨admitted_signed _ _ svc rfl rfl rfl rfl, rfl, by decide, rfl, rfl⟩

theorem witness_ClocksAndTemperature :
    (svc.served = true ∧ svc.sup.sysrefOk = true) ∧
    (svc.modSup fun u => { u with pllLocked := 0xF }).sup.pllLocked.getLsbD (pllBit .memory) = true ∧
    (svc.modHealth fun h => { h with vcoreAt := some 7 }).health.vcoreAt = some 7 ∧
    vcoreNear 0x0A 0x0A = true ∧ vcoreNear 0x0A 0x00 = false ∧
    ({ svc with lanes := { svc.lanes with pll := vset svc.lanes.pll 3 true } } : State).lanes.pll[pllIndex 1 true] = true := by
  refine ⟨⟨rfl, rfl⟩, by decide, rfl, by decide, by decide, by decide⟩

theorem witness_ModeSet :
    admitted 0x0101 (signed 0x0101 [5]) (opened svc) = some (ctx1 0x0101 [5], ready 0x0101 [5] svc) ∧
    accEng (ctx1 0x0101 [5]) = true ∧ accOp (ctx1 0x0101 [1]) = true ∧ resv 5 31 4 = true ∧
    (ready 0x0101 [5] svc).sup.mode = .service ∧ (ready 0x0101 [1] svc).pair.paired = false ∧
    (ready 0x0101 [3] (hub .test)).sup.mode = .test ∧ (ready 0x0101 [3] (hub .safeCore)).sup.causes &&& 0xE = 0 ∧
    (ready 0x0101 [4] svc).working = true :=
  ⟨admitted_signed _ _ svc rfl rfl rfl rfl, rfl, rfl, by decide, rfl, rfl, rfl, by decide, rfl⟩

/-- A hub in step 0x2 of a start. -/
def bootHub : State := State.reset.modSup fun u => { u with mode := .startup, inReset := false }

theorem witness_StartupHardwareSteps :
    (bootHub.booting = true ∧ bootHub.boot.domains = false ∧ bootHub.sup.sysrefOk = true ∧ bootHub.boot.plls = false) ∧
    ((bootHub.modBoot fun b => { b with plls := true }).booting = true ∧ bootHub.boot.fwMem = false ∧ bootHub.boot.owlTest = false ∧
      bootHub.boot.dram = false ∧ bootHub.boot.interp = false ∧ bootHub.boot.dens.getLsbD 0 = false) ∧
    ((bootHub.modBoot fun b => { b with plls := true, fwMem := true }).boot.sram = false) ∧
    (bootHub.served = true ∧ (bootHub.dens[(0 : DenId)]).settled = false) ∧
    bootHub.overdue .domains = true ∧ (bootHub.modBoot fun b => { b with domains := true }).overdue .timePll = true ∧
    (bootHub.modBoot fun b => { b with plls := true }).overdue .sram = true ∧
    (bootHub.modBoot fun b => { b with plls := true }).overdue .dram = true ∧
    (bootHub.modBoot fun b => { b with plls := true }).overdue .owl = true ∧
    (bootHub.modBoot fun b => { b with plls := true }).overdue .interpolator = true ∧
    (bootHub.modBoot fun b => { b with fwMem := true }).overdue .flash = true ∧
    (bootHub.modBoot fun b => { b with takeStep := 9 }).overdue .takeover = true := by
  refine ⟨⟨rfl, rfl, rfl, rfl⟩, ⟨rfl, rfl, rfl, rfl, rfl, by decide⟩, rfl, ⟨rfl, by decide⟩, rfl, rfl, rfl, rfl, rfl, rfl, by decide, by decide⟩

theorem witness_StartupHardwareSteps_histogram : (List.replicate 66 [1048576]).any histBad = true ∧
    (List.replicate 66 (List.replicate 4 262144)).length = 66 := ⟨by decide, by decide⟩

theorem witness_StartupHardwareSteps_goodHistogram : (List.replicate 66 (List.replicate 4 262144)).any histBad = false := by
  rw [List.any_replicate]
  decide

/-- A start whose step 0x6 has a plan due, the hardware of step 0x4 complete. -/
def frontHub : State :=
  { hub .startup with
    sup := { (hub .startup).sup with inReset := false, tjSamples := 8 }
    plan := { State.reset.plan with active := true }
    boot := { (hub .startup).boot with frontOn := false } }

theorem witness_StartupFirmwareAndConfiguration :
    (bootHub.modBoot fun b => { b with fwMem := true }).readingFlash = true ∧
    fwCheck 0 0 (wordsOfBytes []) ≠ 0 ∧
    (bootHub.booting = true ∧ (bootHub.modBoot fun b => { b with fwLoaded := true }).boot.fwRuns = false) ∧
    ((bootHub.modBoot fun b => { b with fwRuns := true }).wantsPlan = false ∧ bootHub.mustClaim [] [] = false ∧ bootHub.boot.claimWait = none) ∧
    bootOrder [] [] = [] ∧
    (bootHub.modBoot fun b => { b with takeStep := 0xB }).wantsPlan = true ∧
    ((bootHub.modPlan fun p => { p with swap := some 5 }).plan.swap = some 5 ∧ bootHub.plan.active = false) ∧
    (frontHub.readyForFront = true ∧ frontHub.boot.frontOn = false ∧ frontHub.sup.tjSamples = 8 ∧ frontHub.sup.overtemp = false) ∧
    (frontHub.boot.takeStep = 0 ∧ frontHub.warm = true) := by
  refine ⟨by decide, by decide, ⟨rfl, rfl⟩, ⟨rfl, by decide, rfl⟩, by decide, by decide, ⟨rfl, rfl⟩, ⟨by decide, rfl, rfl, rfl⟩, rfl, by decide⟩

theorem witness_WatchdogAndJtag :
    (svc.served = true ∧ svc.boot.plls = true) ∧
    ((svc.modSup fun u => { u with railGood := 0x3FFF }).sup.railGood.getLsbD 9 = true ∧
      (svc.modSup fun u => { u with railGood := 0x3FFF }).sup.railGood.getLsbD 0 = true) ∧
    svc.debugOpen = false ∧ (svc.modProt fun p => { p with debugUntil := some 5 }).debugOpen = true := by
  refine ⟨⟨rfl, rfl⟩, ⟨by decide, by decide⟩, rfl, by decide⟩

/-- A cold standby with everything a takeover needs. -/
def standbyHub : State :=
  { State.reset with
    sup := { State.reset.sup with mode := .hibernate, inReset := false, railGood := 0x3FFF, hotQualified := true, src := Sources.none }
    pair := { State.reset.pair with cold := true, armed := true } }

/-- A standby sync whose steps have run. -/
def syncHub : State :=
  { hub .startup with
    sup := { (hub .startup).sup with inReset := false }
    boot := { (hub .startup).boot with takeStep := 0xE }
    pair := { State.reset.pair with syncing := true } }

theorem witness_HeartbeatAndStandby :
    (svc.served = true ∧ svc.sup.mode ≠ .off ∧ hbValid 0 = false ∧ hbValid (hbFrame 1 3 0) = true) ∧
    (standbyHub.sup.mode ≠ .off ∧ standbyHub.pair.armed = true ∧ standbyHub.takesOver = true) ∧
    (standbyHub.pair.owns = false ∧ svc.takesOver = false ∧ svc.boot.claimWait = none) ∧
    ((svc.modPair fun p => { p with owns := true, hbHeard := true, partner := .ready, partnerSent := 3 }).pair.partner = .ready) ∧
    (standbyHub.isStandby = true ∧ standbyHub.sup.inReset = false ∧ standbyHub.sup.startConditions false = true) ∧
    (syncHub.syncRan = true ∧ syncHub.pair.coldNext = none ∧ syncHub.pair.unfit = false ∧ syncHub.pair.tqGaveUp = false ∧
      syncHub.time.tq ≠ 3 ∧ syncHub.lanesUp = true ∧ syncHub.fabricLeader.isSome = true) ∧
    (syncHub.modPair fun p => { p with coldNext := some 4 }).pair.coldNext = some 4 := by
  refine ⟨⟨rfl, by decide, by decide +kernel, by decide +kernel⟩, ⟨by decide, rfl, by decide⟩, ⟨rfl, by decide, rfl⟩, rfl, ⟨rfl, rfl, by decide⟩,
    ⟨by decide, rfl, rfl, rfl, by decide, List.all_eq_true.mpr fun p _ => by simp [State.lane, syncHub, hub, State.reset, Lanes.reset, Lane.reset, Lane.enable], rfl⟩, rfl⟩

/-- A hub in a step of a takeover. -/
def takeHub (n : BitVec 4) : State :=
  { hub .startup with
    sup := { (hub .startup).sup with inReset := false }
    boot := { (hub .startup).boot with takeStep := n, takeover := true }
    plan := { State.reset.plan with banks := State.reset.plan.banks.map fun b => { b with state := .valid } } }

theorem witness_TakeoverSteps :
    ((takeHub 9).atTakeStep 9 = true ∧ (takeHub 9).sup.sysrefOk = true) ∧
    ((takeHub 0xA).atTakeStep 0xA = true ∧ (takeHub 0xA).pair.ownLine = false) ∧
    ((takeHub 0xB).atTakeStep 0xB = true ∧ ((takeHub 0xB).modTime fun t => { t with tq := 2 }).fabricTime = true) ∧
    ((takeHub 0xC).atTakeStep 0xC = true ∧ (takeHub 0xC).plan.shadow.state = .valid ∧ (takeHub 0xC).plan.stopped = false) ∧
    ((takeHub 0xD).deferring = true ∧ (takeHub 0xD).boot.fwRuns = true ∧ (takeHub 0xD).boot.dram = true ∧ (takeHub 0xD).boot.interp = true) ∧
    (takeHub 9).pair.restore = none := by
  refine ⟨⟨by decide, rfl⟩, ⟨by decide, rfl⟩, ⟨by decide, by decide⟩, ⟨by decide, by decide +kernel, rfl⟩, ⟨by decide, rfl, rfl, rfl⟩, rfl⟩

/-- An owner in Service whose partner is READY. -/
def ownerHub : State := svc.modPair fun p => { p with owns := true, ownLine := true, partner := .ready }

theorem allStopped_owner : (ownerHub.modPair fun p => { p with yieldStep := .stopping }).allStopped = true :=
  List.all_eq_true.mpr fun k _ => by
    simp [ownerHub, svc, hub, State.modPair, State.reset, Sett.reset, Chain.reset]

theorem displaced_owner : (ownerHub.modPair fun p => { p with ownWords := Vector.replicate 2 (ownWord 7 0 0) }).displaced = true := by decide +kernel

theorem witness_CheckpointsAndYield :
    (ownerHub.writes true = true ∧ ownerHub.writes false = true) ∧
    (ownerHub.modPair fun p => { p with writing := some { isFull := true, words := [1], since := 0, final := false } }).pair.writing =
      some { isFull := true, words := [1], since := 0, final := false } ∧
    (ownerHub.pair.writing = none ∧ ownerHub.displaced = false ∧
      (ownerHub.modPair fun p => { p with ownWords := Vector.replicate 2 (ownWord 7 0 0) }).displaced = true) ∧
    (ownerHub.served = true ∧ ownerHub.time.tclk = true ∧ ownerHub.pair.stale = false) ∧
    (ownerHub.modPair fun p => { p with yieldStep := .stopping }).allStopped = true ∧
    (ownerHub.modPair fun p => { p with yieldStep := .sending }).pair.yieldStep = .sending := by
  refine ⟨⟨by decide, by decide⟩, rfl, ⟨rfl, by decide, displaced_owner⟩, ⟨rfl, rfl, rfl⟩, allStopped_owner, rfl⟩

theorem witness_CheckpointsAndYield_commands :
    (admitted 0x0F01 (signed 0x0F01 [0]) (opened svc) = some (ctx1 0x0F01 [0], ready 0x0F01 [0] svc) ∧ accAny (ctx1 0x0F01 [0]) = true) ∧
    (admitted 0x0F02 (signed 0x0F02 [0]) (opened ownerHub) = some (ctx1 0x0F02 [0], ready 0x0F02 [0] ownerHub) ∧
      accEng (ctx1 0x0F02 [0]) = true ∧ (ready 0x0F02 [0] ownerHub).pair.owns = true ∧
      (ready 0x0F02 [0] ownerHub).pair.writingFull = false) ∧
    (admitted 0x0F03 (signed 0x0F03 [0]) (opened ownerHub) = some (ctx1 0x0F03 [0], ready 0x0F03 [0] ownerHub) ∧
      (ready 0x0F03 [0] ownerHub).mayYield = true) :=
  ⟨⟨admitted_signed _ _ svc rfl rfl rfl rfl, rfl⟩, ⟨admitted_signed _ _ ownerHub rfl rfl rfl rfl, rfl, rfl, rfl⟩,
    admitted_signed _ _ ownerHub rfl rfl rfl rfl, rfl⟩

theorem witness_RegisterWindow :
    (splitLive .lc svc = true ∧ splitLive .nt svc = true ∧ snapWords svc.cmd.snap .nt = none ∧
      snapWords (takeSnap .nt svc).cmd.snap .nt = some [0, 0, 0]) ∧
    (svc.portLive = true ∧ (0x034 : BitVec 12).toNat % 4 = 0 ∧ (0x035 : BitVec 12).toNat % 4 ≠ 0) ∧
    (writable 0 = none ∧ writable 0x03C = some (0xFFFFFFFC, false)) ∧
    (svc.boot.fwRuns = true ∧ (svc.modBoot fun b => { b with fwRuns := false }).portLive = true ∧ (5 : Word) &&& 0xFFFF0000 = 0) ∧
    (¬ ((0 : Byte) = 0x05 ∨ (0 : Byte) = 0x12 ∨ (0 : Byte) = 0x13 ∨ (((0 : Byte) = 0x0B ∨ (0 : Byte) = 0x02) ∧ (0 : BitVec 16) &&& 0xF003 = 0))) ∧
    (svc.modCmd fun c => { c with replies := [[1, 2]] }).cmd.replies = [[1, 2]] := by
  refine ⟨⟨rfl, rfl, rfl, by decide +kernel⟩, ⟨rfl, by decide, by decide⟩, ⟨rfl, rfl⟩, ⟨rfl, rfl, by decide⟩, by decide, rfl⟩

/-- A packet with the good size and CRC for SYS_INFO on this hub, and one for another hub. -/
def wirePacket (flags : Byte) : List Byte :=
  let b : List Byte := [0x00, 0x01, flags, 0x00, 1, 0, 0, 0, 4, 0, 7, 0, 0, 0, 0, 0, 0, 0, 0, 0]
  b ++ wordBytes (crc32c b)

theorem witness_PacketsAndForwarding :
    (svc.portLive = true ∧ (svc.modCmd fun c => { c with held := 4 }).pktReady = false ∧ svc.pktReady = true) ∧
    (sizeOk [] = false ∧ sizeOk (wirePacket 4) = true ∧ packetCrcOk (wirePacket 4) = true ∧ packetCrcOk (List.replicate 20 1) = false ∧
      sizeOk ([0, 0, 0, 0] ++ List.replicate 16 0) = true) ∧
    (reqLocal (parsePacket .controlPort none (wirePacket 4)).2 = true ∧ opcodes.contains (parsePacket .controlPort none (wirePacket 4)).1 = true ∧
      reqLocal (parsePacket .controlPort none (wirePacket 0)).2 = false ∧ svc.fab.hubIdSet = false ∧ (hub .safeCore).sup.mode = .safeCore) ∧
    ([({ session := 1, reqId := 2, header := [], since := 0 } : Forwarded)].any (awaited 1 2) = true) ∧
    ((opened svc).cmd.sessions[(0 : Fin 8)]).isSome = true := by
  refine ⟨⟨rfl, by decide, rfl⟩, ⟨by decide, by decide +kernel, by decide +kernel, by decide +kernel, by decide +kernel⟩,
    ⟨by decide +kernel, by decide +kernel, by decide +kernel, rfl, rfl⟩, by decide, by decide +kernel⟩

/-- A hub whose id is 1, with every route on its port 0. -/
def routedHub : State :=
  { svc with
    lanes := { svc.lanes with lanes := vmod svc.lanes.lanes 0 fun l => { l with settings := 4, rx := .up } }
    fab := { svc.fab with hubId := 1, hubIdSet := true, routes := Vector.replicate 1024 (0, 0) } }

theorem witness_PacketsAndForwarding_route : (routedHub.route 7 2).isSome = true := by decide +kernel

/-- A hub with a key in slot 0 and a nonce that is still good, and a request that proves the key. -/
def openHub : State :=
  (svc.modProt fun p => { p with slots := vmod p.slots 0 fun k => { k with key := some key1 } }).modCmd fun c =>
    { c with nonces := [{ origin := .controlPort, value := 0, since := 0 }] }

def openWords : List Word :=
  [1, 0, 0, 0, 0, 0, 0, 0, 0] ++ wordsOfBytes ((hmac key1 (ascii "NH384PF" ++ List.replicate 33 0)).take 16)

theorem openProof :
    (hmac key1 (ascii "NH384PF" ++ List.replicate 33 0)).take 16 = bytesOfWords (openWords.drop 9) := by decide +kernel

theorem witness_SystemCommands_open :
    ∃ c s1, admitted 0x0E10 (ask openWords) openHub = some (c, s1) ∧ c.session = none ∧ openWords.length = 13 ∧
      s1.lockedOut 0 = false ∧ s1.cmd.nonces.any (nonceGood c.packet.origin 0 s1.lcN) = true ∧
      (s1.prot.slots[(0 : Fin 8)]).key = some key1 ∧ (s1.openSession 0).isNone = true := by
  refine ⟨_, _, rfl, rfl, by decide +kernel, rfl, rfl, rfl, rfl⟩

theorem witness_SystemCommands :
    (∃ c s1, admitted 0x0100 (ask [0]) svc = some (c, s1) ∧ accAny c = true) ∧
    (admitted 0x0103 (signed 0x0103 [0x21]) (opened svc) = some (ctx1 0x0103 [0x21], ready 0x0103 [0x21] svc) ∧
      accOp (ctx1 0x0103 [0x21]) = true ∧ resv 0x21 31 6 = true ∧ bits 0x21 4 0 = 1) ∧
    (∃ c s1, admitted 0x0104 (ask [0x10100000, 1]) svc = some (c, s1) ∧ s1.sup.mode ≠ .safeCore ∧ s1.boot.fwRuns = true ∧
      resv 0x10100000 31 29 = true ∧ bits 0x10100000 19 0 % 4 = 0 ∧ bits 0x10100000 27 20 = 1 ∧ bit 0x10100000 28 = true) ∧
    (∃ c s1, admitted 0x0E10 (ask [0]) svc = some (c, s1) ∧ c.session = none) ∧
    (admitted 0x0E11 (signed 0x0E11 [2]) (opened svc) = some (ctx1 0x0E11 [2], ready 0x0E11 [2] svc) ∧
      accSvc (ctx1 0x0E11 [2]) = true ∧ bits 2 7 0 = (1 : Fin 8).val + 1 ∧ resv 2 31 8 = true) :=
  ⟨⟨_, _, rfl, rfl⟩, ⟨admitted_signed _ _ svc rfl rfl rfl rfl, rfl, by decide, by decide⟩,
    ⟨_, _, rfl, by decide, rfl, by decide, by decide, by decide, by decide⟩, ⟨_, _, rfl, rfl⟩,
    admitted_signed _ _ svc rfl rfl rfl rfl, rfl, by decide, by decide⟩

theorem witness_FrontEndCommands :
    (admitted 0x0200 (signed 0x0200 [0, 1]) (opened svc) = some (ctx1 0x0200 [0, 1], ready 0x0200 [0, 1] svc) ∧ chanAt (bits 0 8 0) = some 0 ∧
      resv 0 31 10 = true ∧ resv 1 31 6 = true ∧ bits 1 3 1 = 0 ∧ (ready 0x0200 [0, 1] svc).plan.swap = none) ∧
    (admitted 0x0201 (signed 0x0201 [0x600]) (opened svc) = some (ctx1 0x0201 [0x600], ready 0x0201 [0x600] svc) ∧ bit 0x600 9 = true ∧
      bits 0x600 12 10 = 1 ∧ bit 0 9 = false ∧ resv 0x600 31 13 = true) ∧
    (admitted 0x0202 (signed 0x0202 [0x40, 0x400]) (opened svc) = some (ctx1 0x0202 [0x40, 0x400], ready 0x0202 [0x40, 0x400] svc) ∧
      bit 0x40 6 = true ∧ bit 0x400 10 = true ∧ finOf 48 (bits 0x40 5 0) = some 0 ∧ resv 0x40 31 7 = true ∧ resv 0x900 31 15 = true ∧
      bits 0x900 9 8 = 1 ∧ bits 0x900 14 11 = 1) ∧
    (admitted 0x0203 (signed 0x0203 [0x200]) (opened svc) = some (ctx1 0x0203 [0x200], ready 0x0203 [0x200] svc) ∧ bit 0x200 9 = true ∧
      chanAt (bits 0x200 8 0) = some 0 ∧ resv 0x200 31 10 = true) :=
  ⟨⟨admitted_signed _ _ svc rfl rfl rfl rfl, rfl, by decide, by decide, by decide, rfl⟩,
    ⟨admitted_signed _ _ svc rfl rfl rfl rfl, by decide, by decide, by decide, by decide⟩,
    ⟨admitted_signed _ _ svc rfl rfl rfl rfl, by decide, by decide, by decide, by decide, by decide, by decide, by decide⟩,
    admitted_signed _ _ svc rfl rfl rfl rfl, by decide, by decide, by decide⟩

theorem witness_FrontEndCommands_state :
    (svc.setts[settOf 0]).run = false ∧ (svc.chans[(0 : Chan)]).actTest = none ∧ (svc.chans[(0 : Chan)]).scale.toNat = 0 ∧
    ((svc.modChan 0 fun x => { x with actTest := some { packet := ask [0x200], key := none } }).chans[(0 : Chan)]).actTest =
      some { packet := ask [0x200], key := none } := by
  refine ⟨rfl, rfl, rfl, rfl⟩

/-- A hub whose sett 0 runs and drives, its channel 0 enabled. -/
def runHub : State :=
  { svc with
    setts := vmod svc.setts 0 fun x => { x with run := true, driving := true, excMode := 1 }
    chans := vmod svc.chans 0 fun x => { x with enable := true } }

theorem witness_FrontEndEvents :
    (runHub.modulating 0 = true ∧ ((runHub.modChan 0 fun x => { x with recovering := true, cm := 1 }).chans[(0 : Chan)]).recovering = true) ∧
    ((runHub.chans[(0 : Chan)]).cm.getLsbD 0 = false ∧ ((runHub.modChan 0 fun x => { x with cm := 1 }).chans[(0 : Chan)]).cm.getLsbD 0 = true) ∧
    ((runHub.setts[(0 : SettId)]).driving = true ∧ (runHub.setts[(0 : SettId)]).regLost = false ∧ (runHub.setts[(1 : SettId)]).contention = false ∧
      (runHub.setts[(1 : SettId)]).driving = false ∧ (runHub.setts[(0 : SettId)]).shed = false ∧ runHub.settOut 0 = false) ∧
    (settsOf 0).any (fun k => (runHub.setts[k]).driving) = true ∧
    permanent { counts := Vector.replicate 3 0, last := some 5, prev := some 4, old := none } 7 = true := by
  decide +kernel

theorem witness_ConversionCommands :
    (admitted 0x0300 (signed 0x0300 [0x40]) (opened svc) = some (ctx1 0x0300 [0x40], ready 0x0300 [0x40] svc) ∧ bit 0x40 6 = true ∧
      bit 0 6 = false ∧ finOf 48 (bits 0x40 5 0) = some 0 ∧ resv 0x40 31 9 = true ∧ presetPermitted 2 false false = true ∧
      (svc.setts[(0 : SettId)]).run = false ∧ svc.plan.swap = none) ∧
    (admitted 0x0301 (signed 0x0301 [0]) (opened svc) = some (ctx1 0x0301 [0], ready 0x0301 [0] svc) ∧ accOp (ctx1 0x0301 [0]) = true ∧
      chanAt (bits 0 8 0) = some 0 ∧ resv 0 31 9 = true ∧ (svc.setts[settOf 0]).shed = false ∧ (svc.chans[(0 : Chan)]).inject = none) ∧
    (admitted 0x0302 (signed 0x0302 [0]) (opened svc) = some (ctx1 0x0302 [0], ready 0x0302 [0] svc) ∧ resv 0 31 13 = true ∧
      bits 0 12 10 = 0 ∧ svc.slotOf 0 = none ∧ (svc.chans[(0 : Chan)]).cal.inProgress = false) ∧
    (admitted 0x0303 (signed 0x0303 [0x2000, 0]) (opened svc) = some (ctx1 0x0303 [0x2000, 0], ready 0x0303 [0x2000, 0] svc) ∧
      calChans 0x2000 = [0] ∧ resv 0x2000 31 16 = true ∧ bits 0x2000 15 11 = 4) ∧
    (admitted 0x0305 (signed 0x0305 [0x200]) (opened svc) = some (ctx1 0x0305 [0x200], ready 0x0305 [0x200] svc) ∧
      finOf 5 (bits 0x200 11 9) = some 1 ∧ resv 0x200 31 12 = true) ∧
    (admitted 0x0306 (signed 0x0306 [4]) (opened (hub .test)) = some (ctx1 0x0306 [4], ready 0x0306 [4] (hub .test)) ∧
      bit 4 2 = true ∧ bits 4 1 0 = 0 ∧ finOf 48 (bits 4 8 3) = some 0 ∧ resv 4 31 20 = true) := by
  refine ⟨⟨admitted_signed _ _ svc rfl rfl rfl rfl, ?_⟩, ⟨admitted_signed _ _ svc rfl rfl rfl rfl, ?_⟩,
    ⟨admitted_signed _ _ svc rfl rfl rfl rfl, ?_⟩, ⟨admitted_signed _ _ svc rfl rfl rfl rfl, ?_⟩,
    ⟨admitted_signed _ _ svc rfl rfl rfl rfl, ?_⟩, ⟨admitted_signed _ _ (hub .test) rfl rfl rfl rfl, ?_⟩⟩ <;> decide +kernel

theorem witness_ConversionCommands_plan :
    ((planned [entryOf 7 0 0 1] svc).plan.hasInject (settOf 0) = true ∧ (planned [entryOf 7 0 0 1] svc).injections < 64) ∧
    (∀ x ∈ [(0 : Chan)], svc.safeLocked (svc.usesChan x) = false) ∧
    ((svc.modCal 0 fun y => { y with state := .opened }).chans[(0 : Chan)]).cal.inProgress = true := by
  refine ⟨by decide +kernel, by decide +kernel, by decide +kernel⟩

theorem witness_CalibrationAndInjectionRows :
    (∃ i j, (({ svc with chans := vmod svc.chans 0 fun x =>
        { x with inject := some { req := { packet := ask [0], key := none }, acceptTk := 0,
                                  slot := some { range := 0, len := 1, startTk := 10, startLc := 128000, covered := true, coef := CoefSet.reset } } } } : State).chans[(0 : Chan)]).inject = some i ∧ i.slot = some j) ∧
    (((svc.modCal 0 fun y => { y with state := .pending }).modChan 0 fun x => { x with inject := some { req := { packet := ask [0], key := none }, acceptTk := 0, slot := none } }).chans[(0 : Chan)]).cal.state = .pending ∧
    ((svc.modCal 0 fun y => { y with state := .measuring, point := some { req := { packet := ask [], key := none }, full := false, target := 0, left := 0, count := 16, sum := 5, flagged := false, ranged := false, answered := false } }).chans[(0 : Chan)]).cal.point.isSome = true ∧
    (admitted 0x0304 (signed 0x0304 [0x400]) (opened svc) = some (ctx1 0x0304 [0x400], ready 0x0304 [0x400] svc) ∧ calChans 0x400 ≠ [] ∧
      resv 0x400 31 19 = true ∧ bit 0x400 10 = true ∧ bit 0 10 = false ∧
      ((svc.modCal 0 fun y => { y with state := .opened, zero := some 4 }).chans[(0 : Chan)]).cal.zero.isSome = true) ∧
    ((svc.modChan 0 fun x => { x with coefs := x.coefs.map fun k => { k with trimT := 9 } }).chans[(0 : Chan)]).settled = false ∧
    ((svc.modCal 0 fun y => { y with state := .opened }).chans[(0 : Chan)]).cal.inProgress = true ∧ runHub.modulating 0 = true ∧
    (List.replicate 50 (0 : Int)).length = (runHub.rawShape (settOf 0)).cicR := by
  refine ⟨⟨_, _, rfl, rfl⟩, rfl, rfl, ⟨admitted_signed _ _ svc rfl rfl rfl rfl, by decide, by decide, by decide, by decide, rfl⟩, by decide +kernel, rfl, by decide +kernel, by decide +kernel⟩

theorem witness_FilterCommands :
    (admitted 0x0400 (signed 0x0400 [0x140]) (opened svc) = some (ctx1 0x0400 [0x140], ready 0x0400 [0x140] svc) ∧ bit 0x140 6 = true ∧
      finOf 48 (bits 0x140 5 0) = some 0 ∧ resv 0x140 31 10 = true ∧ bits 0x140 9 7 = 2 ∧ bit 0 6 = false ∧
      presetPermitted 2 (svc.setts[(0 : SettId)]).burstMode (svc.setts[(0 : SettId)]).lowPower = true ∧ svc.health.presets.getLsbD 2 = true) ∧
    (admitted 0x0401 (signed 0x0401 [0x04000000, 0, 0, 0]) (opened svc) =
        some (ctx1 0x0401 [0x04000000, 0, 0, 0], ready 0x0401 [0x04000000, 0, 0, 0] svc) ∧
      coefLoadLength [0x04000000, 0, 0, 0] = true ∧ coefHeaderBad [0x04000000, 0, 0, 0] = false ∧ bit 0x04000000 26 = true ∧
      coefHeaderBad [0x40, 0, 0, 0] = false ∧ coefLoadLength [0x40, 0, 0, 0] = true ∧ bit 0x40 26 = false ∧
      coefHeaderBad [0x20000, 0, 0, 0, 5] = false ∧ coefLoadLength [0x20000, 0, 0, 0, 5] = true ∧ bit 0x20000 25 = false ∧
      coefHeaderBad [0x02000000, 4, 0, 0] = false ∧ coefLoadLength [0x02000000, 4, 0, 0] = true ∧ bit 0x02000000 25 = true) ∧
    (admitted 0x0402 (signed 0x0402 [0]) (opened (planned [] svc)) = some (ctx1 0x0402 [0], ready 0x0402 [0] (planned [] svc)) ∧
      startSetts 0 (planned [] svc) = [0] ∧ (planned [] svc).toStart 0 = true ∧ (planned [] runHub).toStart 0 = false ∧
      (planned [] svc).plan.active = true ∧ (svc.chains[(0 : SettId)]).stopAt = none ∧ (svc.chains[(0 : SettId)]).custom = none) ∧
    (admitted 0x0403 (signed 0x0403 [0]) (opened svc) = some (ctx1 0x0403 [0], ready 0x0403 [0] svc) ∧
      (startSetts 0 svc).filter (fun k => (svc.setts[k]).run) = [] ∧ (startSetts 0 runHub).filter (fun k => (runHub.setts[k]).run) = [0] ∧
      runHub.blockSett 0 = false ∧ (runHub.chains[(0 : SettId)]).startAt = none ∧
      ∀ x ∈ chansOf 0, (runHub.chans[x]).cal.state ≠ .measuring) ∧
    (admitted 0x0404 (signed 0x0404 [0x40, 0]) (opened svc) = some (ctx1 0x0404 [0x40, 0], ready 0x0404 [0x40, 0] svc) ∧
      shiftsOk (svc.shape 0) 0 = true ∧ (svc.shape 0).load (svc.setts[(0 : SettId)]).lowPower ≤ 640000000) := by
  refine ⟨⟨admitted_signed _ _ svc rfl rfl rfl rfl, ?_⟩, ⟨admitted_signed _ _ svc rfl rfl rfl rfl, ?_⟩,
    ⟨admitted_signed _ _ (planned [] svc) rfl rfl rfl rfl, ?_⟩, ⟨admitted_signed _ _ svc rfl rfl rfl rfl, ?_⟩,
    ⟨admitted_signed _ _ svc rfl rfl rfl rfl, ?_⟩⟩ <;> decide +kernel

/-- A hub whose sett 0 runs, with its next tick at 20. -/
def tickHub : State := runHub.modChain 0 fun c => { c with nextTick := some 20 }

theorem witness_FilterRows :
    ((svc.modChain 0 fun c => { c with startAt := some 2000 }).chains[(0 : SettId)]).startAt = some 2000 ∧
    ((svc.modChain 0 fun c => { c with stopAt := some 2000 }).chains[(0 : SettId)]).stopAt = some 2000 ∧
    (tickHub.chains[(0 : SettId)]).nextTick = some 20 ∧
    tickHub.producing 0 (20 + tickHub.delayNs 0 / 50) = true ∧
    ((svc.modChain 0 fun c => { c with nextTick := some 20 }).producing 0 20 = false) ∧
    ((svc.modChain 0 fun c => { c with retime := [{ stamp := 7, delay := 0, preset := 2, tick := none, tq := 0, gen := 0, words := Vector.replicate 8 0 }] }).chains[(0 : SettId)]).retime ≠ [] := by
  refine ⟨by simp [State.modChain, vmod], by simp [State.modChain, vmod], by simp [tickHub, State.modChain, vmod], by decide +kernel, by decide +kernel, by simp [State.modChain, vmod]⟩

theorem witness_PlanEntryRows :
    (planned [entryOf 1 100 0 1] runHub).entryNow 1 0 = some (entryOf 1 100 0 1) ∧
    (planned [entryOf 2 100 0 1] runHub).entryNow 2 0 = some (entryOf 2 100 0 1) ∧
    (planned [entryOf 4 100 0 1] runHub).entryNow 4 0 = some (entryOf 4 100 0 1) ∧
    (planned [entryOf 5 100 0 1] runHub).entryNow 5 0 = some (entryOf 5 100 0 1) ∧
    (planned [entryOf 6 100 0 1] runHub).entryNow 6 0 = some (entryOf 6 100 0 1) ∧ finOf 48 (eTarget (entryOf 6 100 0 1)) = some 0 ∧
    (planned [entryOf 7 100 0 1] runHub).entryNow 7 0 = some (entryOf 7 100 0 1) ∧
    (planned [entryOf 8 100 0 1] runHub).entryNow 8 0 = some (entryOf 8 100 0 1) ∧ finOf 4 (eTarget (entryOf 8 100 0 1)) = some 0 ∧
    (planned [entryOf 9 100 0 1] runHub).entryNow 9 0 = some (entryOf 9 100 0 1) ∧
    (planned [entryOf 10 100 0 1] runHub).entryNow 10 0 = some (entryOf 10 100 0 1) ∧
    runHub.entryNow 1 0 = none ∧ eSetts (entryOf 1 100 0 1) = [0] := by
  decide +kernel

theorem witness_PlanEntryRows_setts :
    ((runHub.setts[(0 : SettId)]).excMode ≠ 0 ∧ (runHub.setts[(0 : SettId)]).run = true ∧ runHub.mayDrive 0 = true ∧
      ((runHub.modSett 0 fun x => { x with driving := false }).setts[(0 : SettId)]).driving = false ∧
      (runHub.modSett 0 fun x => { x with forceOff := true }).mayDrive 0 = false) ∧
    (((runHub.modSett 0 fun x => { x with burstMode := true }).setts[(0 : SettId)]).burstMode = true ∧
      (runHub.setts[(0 : SettId)]).burst = none) ∧
    ((runHub.modChan 0 fun x => { x with blanking := true }).chans[(0 : Chan)]).blanking = true ∧
    ((runHub.modSett 0 fun x => { x with burst := some { startTk := 4, startLc := 0, len := 0, broken := false } }).setts[(0 : SettId)]).burst.isSome = true := by
  decide +kernel

theorem witness_PlanRows :
    ((planned [] svc).served = true ∧ (planned [] svc).time.sclk = true ∧ (planned [] svc).plan.active = true ∧
      (planned [] svc).plan.stopped = false ∧ ((planned [] svc).modPlan fun p => { p with firstFrame := true }).plan.firstFrame = true ∧
      (planned [] svc).plan.firstFrame = false ∧ (planned [] svc).plan.swap = none ∧ (planned [] svc).plan.bank.frameTicks = 2000) ∧
    ((planned [] svc).modPlan fun p => { p with swap := some 2000 }).plan.swap = some 2000 ∧
    ((svc.modSett 0 fun x => { x with restart := some 7 }).setts[(0 : SettId)]).restart = some 7 ∧
    ((svc.modTime fun t => { t with realign := some { stopTk := none, stopLc := 0, loaded := false, resumeFrom := 0 } }).time.realign.isSome = true) ∧
    (svc.modTime fun t => { t with realign := some { stopTk := some 5, stopLc := 0, loaded := false, resumeFrom := 0 } }).converting = false := by
  decide +kernel

theorem witness_PlanCommands :
    (admitted 0x0500 (signed 0x0500 [0x02020000, 1, 2]) (opened svc) = some (ctx1 0x0500 [0x02020000, 1, 2], ready 0x0500 [0x02020000, 1, 2] svc) ∧
      bits 0x02020000 24 17 = 1 ∧ resv 0x02020000 31 26 = true ∧ bits 0x02020000 16 0 = 0 ∧ svc.plan.swap = none) ∧
    (admitted 0x0501 (signed 0x0501 [0]) (opened svc) = some (ctx1 0x0501 [0], ready 0x0501 [0] svc) ∧
      (svc.validate svc.plan.shadow).isSome = true) ∧
    (admitted 0x0502 (signed 0x0502 [2, 0, 0]) (opened svc) = some (ctx1 0x0502 [2, 0, 0], ready 0x0502 [2, 0, 0] svc) ∧ svc.sup.mode ≠ .safeCore ∧
      resv 2 31 2 = true ∧ bit 2 1 = true ∧ bit 2 0 = false ∧ nat64 0 0 = 0 ∧ (planned [] svc).plan.shadow.state = .valid ∧
      (planned [] svc).swapLocked = false ∧ (40000 % (planned [] svc).swapGrid = 0 ∧ (planned [] svc).tkN + 20000 ≤ 40000)) ∧
    (admitted 0x0503 (signed 0x0503 [0x4000]) (opened svc) = some (ctx1 0x0503 [0x4000], ready 0x0503 [0x4000] svc) ∧
      resv 0x4000 31 23 = true ∧ bits 0x4000 21 14 = 1 ∧ bits 0x4000 13 1 = 0) ∧
    (admitted 0x0504 (signed 0x0504 [0]) (opened svc) = some (ctx1 0x0504 [0], ready 0x0504 [0] svc)) := by
  refine ⟨⟨admitted_signed _ _ svc rfl rfl rfl rfl, ?_⟩, ⟨admitted_signed _ _ svc rfl rfl rfl rfl, ?_⟩,
    ⟨admitted_signed _ _ svc rfl rfl rfl rfl, ?_⟩, ⟨admitted_signed _ _ svc rfl rfl rfl rfl, ?_⟩, admitted_signed _ _ svc rfl rfl rfl rfl⟩ <;>
    decide +kernel

theorem witness_ReductionCommands :
    (admitted 0x0800 (signed 0x0800 [0]) (opened svc) = some (ctx1 0x0800 [0], ready 0x0800 [0] svc) ∧ bit 0 6 = false ∧ resv 0 31 19 = true ∧
      prjDefOk 0 0 (prjDefOf [0xC0, 50, 1, 0, 0, 0, 0, 0, 0x00800000, 1]) = true ∧ bits 0xC0 12 7 = 1 ∧ bit 0xC0 6 = true ∧
      svc.safeLocked (fun b => b.namesPrj 0) = false ∧ (svc.prj 0).enabled = false) ∧
    (admitted 0x0801 (signed 0x0801 [1, 0, 0]) (opened svc) = some (ctx1 0x0801 [1, 0, 0], ready 0x0801 [1, 0, 0] svc) ∧ bit 0 0 = false ∧
      enableRefusal 0 (svc.modPrj 0 fun x => { x with defn := prjDefOf [0xC0, 50, 1, 0, 0, 0, 0, 0, 0x00C00000, 1] }) = stOk) ∧
    (admitted 0x0802 (signed 0x0802 [0x93000]) (opened svc) = some (ctx1 0x0802 [0x93000], ready 0x0802 [0x93000] svc) ∧
      kindAt 0x93000 = some (.channel, 0) ∧ resv 0x93000 31 28 = true ∧ bit 0x93000 12 = true ∧ accOk .channel 0x93000 = true) ∧
    (admitted 0x0803 (signed 0x0803 [0x800]) (opened svc) = some (ctx1 0x0803 [0x800], ready 0x0803 [0x800] svc) ∧
      kindAt 0x800 = some (.channel, 0) ∧ resv 0x800 31 12 = true ∧ bit 0x800 11 = true) := by
  refine ⟨⟨admitted_signed _ _ svc rfl rfl rfl rfl, ?_⟩, ⟨admitted_signed _ _ svc rfl rfl rfl rfl, ?_⟩,
    ⟨admitted_signed _ _ svc rfl rfl rfl rfl, ?_⟩, ⟨admitted_signed _ _ svc rfl rfl rfl rfl, ?_⟩⟩ <;> decide +kernel

theorem witness_ReductionRows :
    (∃ a, (svc.modRed fun r => { r with accCh := vmod r.accCh 0 fun a => { a with enable := true, nLog2 := 4, total := 16 } }).acc .channel (0 : Chan).val = some a ∧ a.full = true ∧ a.total ≠ 0) ∧
    ((svc.modRed fun r => { r with accRaw := vmod r.accRaw 0 fun a => { a with enable := true, nLog2 := 8, total := 256 } }).red.accRaw[(0 : Chan)]).full = true ∧
    (svc.modPrj 0 fun x => { x with enabled := true }).prjRuns 0 = true ∧
    setUsable [] = false ∧ setUsable [((0 : Word64), some ({ tick := 0, value := 1, flags := 0 } : InWord))] = true ∧
    (svc.modRed fun r => { r with enableAt := some (5, 1, 0) }).red.enableAt = some (5, 1, 0) ∧
    svc.boot.fwRuns = true ∧ resv 0 31 3 = true ∧ bit 4 2 = true ∧ resv 4 31 3 = true := by
  refine ⟨⟨_, rfl, by decide, by decide⟩, by decide +kernel, by decide +kernel, rfl, rfl, rfl, rfl, by decide, by decide, by decide⟩

theorem witness_HealthCommands :
    (admitted 0x1000 (signed 0x1000 [0]) (opened svc) = some (ctx1 0x1000 [0], ready 0x1000 [0] svc)) ∧
    (admitted 0x1001 (signed 0x1001 [0x20, 0, 0, 90]) (opened svc) = some (ctx1 0x1001 [0x20, 0, 0, 90], ready 0x1001 [0x20, 0, 0, 90] svc) ∧
      bits 0x20 4 0 = 0 ∧ bit 0x20 5 = true ∧ svc.working = true ∧ thresholdWorse 0 0 0 = false ∧ resv 90 31 16 = true) ∧
    (admitted 0x1002 (signed 0x1002 [4]) (opened svc) = some (ctx1 0x1002 [4], ready 0x1002 [4] svc) ∧ bits 4 1 0 = 0 ∧ bits 4 10 2 = 1 ∧
      resv 4 31 11 = true) ∧
    (admitted 0x1003 (signed 0x1003 [4]) (opened svc) = some (ctx1 0x1003 [4], ready 0x1003 [4] svc) ∧ unitOk 4 = true ∧
      svc.safetyUnit 4 = false ∧ svc.unitOut 0 1 = (false, false) ∧ (retireChannel 1 true svc).unitOut 0 1 = (true, false) ∧
      ∀ x ∈ unitChans 0 1, (svc.chans[x]).cm = 0) ∧
    (admitted 0x1004 (signed 0x1004 [0]) (opened svc) = some (ctx1 0x1004 [0], ready 0x1004 [0] svc) ∧ resv 0 31 21 = true ∧
      1 ≤ (unitCounts svc 0 0).length) ∧
    (admitted 0x1005 (signed 0x1005 [0x1000]) (opened svc) = some (ctx1 0x1005 [0x1000], ready 0x1005 [0x1000] svc) ∧ bit 0x1000 12 = true ∧
      bit 0x800 11 = true ∧ unitSize 0 ≠ 0 ∧ resv 0x1000 31 13 = true) := by
  refine ⟨admitted_signed _ _ svc rfl rfl rfl rfl, ⟨admitted_signed _ _ svc rfl rfl rfl rfl, ?_⟩,
    ⟨admitted_signed _ _ svc rfl rfl rfl rfl, ?_⟩, ⟨admitted_signed _ _ svc rfl rfl rfl rfl, ?_⟩,
    ⟨admitted_signed _ _ svc rfl rfl rfl rfl, ?_⟩, ⟨admitted_signed _ _ svc rfl rfl rfl rfl, ?_⟩⟩ <;> decide +kernel

theorem witness_HealthRows :
    (svc.served = true ∧ svc.time.tclk = true ∧ (svc.modHealth fun h => { h with baseline := true }).health.baseline = true) ∧
    (((svc.modLane 0 fun l => { l with rx := .up }).lane 0).rx = .up ∧ ((svc.modLane 0 fun l => { l with rx := .up }).lane 0).scan = none) ∧
    (((svc.modDen 0 fun x => { x with compareTk := some 7 }).dens[(0 : DenId)]).compareTk = some 7 ∧
      ((svc.modDen 0 fun x => { x with compareTk := some 7 }).dens[(0 : DenId)]).isolated = false ∧
      ((svc.modDen 0 fun x => { x with compareTk := some 7, isolated := true }).dens[(0 : DenId)]).isolated = true) ∧
    (svc.modHealth fun h => { h with restores := [(0, 1, 2000)] }).health.restores = [(0, 1, 2000)] := by
  refine ⟨⟨rfl, rfl, rfl⟩, ⟨by decide +kernel, by decide +kernel⟩, ⟨by decide +kernel, by decide +kernel, by decide +kernel⟩, rfl⟩

theorem witness_TimeCommands :
    (admitted 0x0600 (signed 0x0600 [0]) (opened svc) = some (ctx1 0x0600 [0], ready 0x0600 [0] svc)) ∧
    (admitted 0x0601 (signed 0x0601 [1, 0x131A]) (opened svc) = some (ctx1 0x0601 [1, 0x131A], ready 0x0601 [1, 0x131A] svc) ∧
      resv 1 31 7 = true ∧ bits 1 6 2 = 0 ∧ bit 1 0 = true ∧ bit 1 1 = false ∧ bit 3 1 = true ∧ bits 0x131A 2 0 ≤ 6 ∧ 2 ≤ bits 0x131A 6 3 ∧
      bits 0x131A 6 3 ≤ 8 ∧ 6 ≤ bits 0x131A 11 7 ∧ bits 0x131A 11 7 ≤ 20 ∧ bits 0x131A 15 12 = 1 ∧ resv 0x131A 31 16 = true ∧
      bits 0x7F 6 2 = 31 ∧ resv 0x7F 31 7 = true) ∧
    (admitted 0x0602 (signed 0x0602 [2, 0x10000, 0, 0]) (opened (ethernet 0 svc)) = some (ctx1 0x0602 [2, 0x10000, 0, 0], ready 0x0602 [2, 0x10000, 0, 0] (ethernet 0 svc)) ∧
      resv 2 31 15 = true ∧ bits 2 1 0 = 2 ∧ bits 0x10000 31 16 = 1 ∧ (ethernet 0 svc).isEth 0 = true ∧ (0 : Port).val = bits 2 5 3) ∧
    (admitted 0x0603 (signed 0x0603 [0x320015]) (opened svc) = some (ctx1 0x0603 [0x320015], ready 0x0603 [0x320015] svc) ∧
      resv 0x320015 31 22 = true ∧ bit 0x320015 0 = true ∧ bits 0x320015 14 1 = 10 ∧ bits 0x320015 21 15 = 100) ∧
    (admitted 0x0604 (signed 0x0604 [0x6F, 5]) (opened svc) = some (ctx1 0x0604 [0x6F, 5], ready 0x0604 [0x6F, 5] svc) ∧ bits 0x6F 5 0 = 47 ∧
      bit 0x6F 6 = true ∧ resv 0x6F 31 15 = true) ∧
    ((svc.modChain 47 fun x => { x with tapT := 5 }).chains[(47 : SettId)]).tap ≠ ((svc.modChain 47 fun x => { x with tapT := 5 }).chains[(47 : SettId)]).tapT := by
  refine ⟨admitted_signed _ _ svc rfl rfl rfl rfl, ⟨admitted_signed _ _ svc rfl rfl rfl rfl, ?_⟩, ⟨admitted_signed _ _ (ethernet 0 svc) rfl rfl rfl rfl, ?_⟩,
    ⟨admitted_signed _ _ svc rfl rfl rfl rfl, ?_⟩, ⟨admitted_signed _ _ svc rfl rfl rfl rfl, ?_⟩, ?_⟩ <;> decide +kernel

theorem witness_SyncExchange :
    let l := linked 0 { svc with fab := { svc.fab with leads := true } }
    let c : Nat → State := fun n => linked 0 { svc with time := { svc.time with tq := BitVec.ofNat 4 n, parent := some 0, exch := { Exchange.none with t1 := some 1, t2 := some 2, t3 := some 3 } } }
    l.timePort 0 = true ∧ l.time.parent ≠ some 0 ∧ l.fab.leads = true ∧ (c 1).time.parent = some 0 ∧ (c 1).timePort 0 = true ∧ (c 1).time.exch.t1 = some 1 ∧
    (c 1).time.exch.t2 = some 2 ∧ (c 1).time.exch.t3 = some 3 ∧ (c 1).time.tq = 1 ∧ (c 3).time.tq = 3 ∧ (1 : Rat) ≠ 0 ∧
    (∃ u : State, u.time.parent = some 0 ∧ u.time.offers[(0 : Port)] = some { hub := 1, hops := 3, tq := 3, term := 0, since := 0 } ∧
      u.time.offers[(1 : Port)] = some { hub := 2, hops := 1, tq := 3, term := 0, since := 0 } ∧ u.parentFit 1 = true) := by
  refine ⟨?_, ?_, ?_, ?_, ?_, ?_, ?_, ?_, ?_, ?_, ?_, ?_⟩
  case refine_12 =>
    refine ⟨linked 1 { svc with time := { svc.time with parent := some 0, offers := vset (vset svc.time.offers 0 (some { hub := 1, hops := 3, tq := 3, term := 0, since := 0 })) 1 (some { hub := 2, hops := 1, tq := 3, term := 0, since := 0 }) } }, ?_, ?_, ?_, ?_⟩ <;> decide +kernel
  all_goals decide +kernel

theorem witness_LeaderTime :
    let l (src : TimeSource) : State := ethernet 0 { svc with fab := { svc.fab with leads := true }, time := { svc.time with cfg := { svc.time.cfg with source := src } } }
    let a : Announce := { port := 0, domain := 0, clockId := 9, priority1 := 1, clockClass := 6, accuracy := 0, variance := 0, priority2 := 0, stepsRemoved := 0, utcOffset := 37 }
    (l .none).fab.leads = true ∧ svc.time.tclk = true ∧ svc.boot.fwRuns = true ∧ (l .pps).time.cfg.source = .pps ∧ (l .pps).time.srcState.lastEdge = none ∧
    (l .ptp).ptpOn a.port = true ∧ a.domain = (l .ptp).time.cfg.ptpDomain ∧ (l .ptp).time.srcState.master = none ∧
    ({ l .ptp with time := { (l .ptp).time with srcState := { (l .ptp).time.srcState with master := some a } } }.fromMaster 0 9) = true ∧
    svc.time.tq ≠ 2 := by
  refine ⟨?_, ?_, ?_, ?_, ?_, ?_, ?_, ?_, ?_, ?_⟩ <;> decide +kernel

theorem witness_EdgeCommands :
    (admitted 0x0700 (signed 0x0700 [0x1F, 8, 0]) (opened svc) = some (ctx1 0x0700 [0x1F, 8, 0], ready 0x0700 [0x1F, 8, 0] svc) ∧ bits 0x1F 3 0 = 15 ∧
      bit 0x1F 4 = true ∧ resv 0x1F 31 5 = true ∧ resv 8 31 4 = true) ∧
    (admitted 0x0701 (signed 0x0701 [0x81F, 0, 4]) (opened svc) = some (ctx1 0x0701 [0x81F, 0, 4], ready 0x0701 [0x81F, 0, 4] svc) ∧ bits 0x81F 2 0 = 7 ∧
      bit 0x81F 3 = true ∧ resv 0x81F 31 16 = true ∧ bits 0x81F 9 6 ≠ bits 0x81F 14 11 ∧ bits 4 29 0 = 4 ∧ resv 4 31 30 = true) ∧
    (admitted 0x0702 (signed 0x0702 [0x37]) (opened svc) = some (ctx1 0x0702 [0x37], ready 0x0702 [0x37] svc) ∧ bits 0x37 4 0 = 16 + 7 ∧ bits 0xF 4 0 = 15 ∧
      bit 0x37 5 = true ∧ resv 0x37 31 6 = true) ∧
    (admitted 0x0703 (signed 0x0703 [0x18001]) (opened svc) = some (ctx1 0x0703 [0x18001], ready 0x0703 [0x18001] svc) ∧ bit 0x18001 16 = true ∧
      resv 0x18001 31 17 = true ∧ ∀ i ∈ maskFins 16 (bits 0x18001 15 0), (svc.tdc.inputs[i]).calibrating = none) := by
  refine ⟨⟨admitted_signed _ _ svc rfl rfl rfl rfl, ?_⟩, ⟨admitted_signed _ _ svc rfl rfl rfl rfl, ?_⟩,
    ⟨admitted_signed _ _ svc rfl rfl rfl rfl, ?_⟩, ⟨admitted_signed _ _ svc rfl rfl rfl rfl, ?_⟩⟩ <;> decide +kernel

theorem witness_EdgeRows :
    let put : (EdgeIn → EdgeIn) → State := fun f => svc.modTdc fun t => { t with inputs := vmod t.inputs 3 f }
    let unit : (MeasUnit → MeasUnit) → State := fun f => svc.modTdc fun t => { t with units := vmod t.units 3 f }
    svc.time.tclk = true ∧ ((atLc (1000 / 256) (put fun e => { e with changeEnd := some 4 })).tdc.inputs[(3 : Fin 16)]).changeEnd = some 4 ∧ 1000 < 256 * 4 ∧
    ((atLc (1024 / 256) (put fun e => { e with lastRaw := some 1 })).tdc.inputs[(3 : Fin 16)]).lastRaw = some 1 ∧
    ((atLc (1025 / 256) (put fun e => { e with calibrating := some 7 })).tdc.inputs[(3 : Fin 16)]).calibrating.isSome = true ∧
    ((atLc (1025 / 256) svc).tdc.inputs[(3 : Fin 16)]).lastRaw = none ∧
    (((unit fun u => { u with start := some 5 }).tdc.units[(3 : Fin 8)]).start = some 5) ∧ (((unit fun u => { u with stop := some 5 }).tdc.units[(3 : Fin 8)]).stop = some 5) ∧
    ((unit id).tdc.units[(3 : Fin 8)]).start = none ∧ ((unit id).tdc.units[(3 : Fin 8)]).stop = none ∧
    ((put fun e => { e with changeEnd := some 4 }).tdc.inputs[(3 : Fin 16)]).changeEnd = some 4 ∧
    ((put fun e => { e with calibrating := some 7 }).tdc.inputs[(3 : Fin 16)]).calibrating = some 7 ∧ histBad [] = true ∧
    histBad (List.replicate 8 131072) = false ∧ ((put fun e => { e with busySince := some 7 }).tdc.inputs[(3 : Fin 16)]).busySince = some 7 ∧
    (256 * (((7 + 60000000000 : Nat)) : Int) < (256 * 60000000007 : Int) + 25600) ∧ (List.replicate 8 524288).sum = 2 ^ 22 ∧
    ((unit fun u => { u with tie := some { stamp := 5, other := 1, byStop := true, due := 9 } }).tdc.units[(3 : Fin 8)]).tie.isSome = true ∧
    ((put fun e => { e with losses := [{ first := 5, count := 1, cal := false, closed := false }] }).tdc.inputs[(3 : Fin 16)]).losses ≠ [] ∧ (svc.tdc.inputs[(3 : Fin 16)]).starved = false := by
  refine ⟨?_, ?_, ?_, ?_, ?_, ?_, ?_, ?_, ?_, ?_, ?_, ?_, ?_, ?_, ?_, ?_, ?_, ?_, ?_, ?_⟩ <;> decide +kernel

theorem witness_Quadrature :
    (admitted 0x0810 (signed 0x0810 [0xA0B7, 0x010001, 0, 0, 0, 0, 0, 0]) (opened svc) = some (ctx1 0x0810 [0xA0B7, 0x010001, 0, 0, 0, 0, 0, 0], ready 0x0810 [0xA0B7, 0x010001, 0, 0, 0, 0, 0, 0] svc) ∧
      bits 0xA0B7 4 0 = 23 ∧ bit 0xA0B7 5 = true ∧ bit 0xA0B7 6 = false ∧ 10 ≤ bits 0xA0B7 15 12 ∧ bits 0xA0B7 23 16 ≤ 191 ∧ bits 0x010001 15 0 = 1 ∧ bits 0x010001 23 16 = 1 ∧
      svc.safeLocked (fun b => b.namesSlot 23) = false) ∧
    (admitted 0x0811 (signed 0x0811 [23]) (opened svc) = some (ctx1 0x0811 [23], ready 0x0811 [23] svc) ∧ bits 23 4 0 = 23 ∧ resv 23 31 5 = true) ∧
    (let s : State := { svc with quad := vmod svc.quad 23 fun x => { x with enable := true, adapt := true, winLog2 := 10, win := { x.win with n := 1024 } } }
     (s.quad[(23 : Fin 24)]).enable = true ∧ (s.quad[(23 : Fin 24)]).adapt = true ∧ 2 ^ (s.quad[(23 : Fin 24)]).winLog2.toNat = (s.quad[(23 : Fin 24)]).win.n) ∧
    (hasF (sampleFlags 0xFFFFFFFF ||| sampleFlags 0) (flagInv ||| flagRet) = true ∧ (svc.setts[(svc.quad[(23 : Fin 24)]).sett]).shed = false) := by
  refine ⟨⟨admitted_signed _ _ svc rfl rfl rfl rfl, ?_⟩, ⟨admitted_signed _ _ svc rfl rfl rfl rfl, ?_⟩, ?_, ?_⟩ <;> decide +kernel

theorem witness_HoardCommands :
    let sub : Sub := { uplink := false, dest := 3, window := 8, maxResends := 3, ackUs := 1000, run := 0, cursors := [newCursor 0 5, newCursor 53 1], hold := none }
    (admitted 0x0900 (signed 0x0900 [0x3F, 1, 0, 0x2001, 100]) (opened svc) = some (ctx1 0x0900 [0x3F, 1, 0, 0x2001, 100], ready 0x0900 [0x3F, 1, 0, 0x2001, 100] svc) ∧
      svc.pair.syncing = false ∧ bits 0x3F 5 0 = 63 ∧ bits 0x3F 7 6 = 0 ∧ bits 0x7F 7 6 = 1 ∧ bits 0x2001 12 0 = 1 ∧ bits 0x2001 16 13 = 1 ∧ bits 100 19 0 = 100 ∧
      svc.hoard.subs[(63 : Fin 64)] = none) ∧
    (admitted 0x0901 (signed 0x0901 [0x7F, 5, 0]) (opened { svc with hoard := { svc.hoard with subs := vset svc.hoard.subs 63 (some { sub with cursors := [{ newCursor 0 5 with sentEnd := 6 }] }) } }) =
        some (ctx1 0x0901 [0x7F, 5, 0], ready 0x0901 [0x7F, 5, 0] { svc with hoard := { svc.hoard with subs := vset svc.hoard.subs 63 (some { sub with cursors := [{ newCursor 0 5 with sentEnd := 6 }] }) } }) ∧
      bits 0x7F 5 0 = 63 ∧ bits 0x7F 11 6 = 1 ∧ ackBad { sub with cursors := [{ newCursor 0 5 with sentEnd := 6 }] } (ackEntry [0x7F, 5, 0] 0) = false) ∧
    (admitted 0x0902 (signed 0x0902 [0x3F]) (opened svc) = some (ctx1 0x0902 [0x3F], ready 0x0902 [0x3F] svc)) ∧
    (admitted 0x0903 (signed 0x0903 [0xFF, 1, 0, 0, 0]) (opened svc) = some (ctx1 0x0903 [0xFF, 1, 0, 0, 0], ready 0x0903 [0xFF, 1, 0, 0, 0] svc) ∧ bits 0xFF 9 8 = 0 ∧
      bits 0xFF 22 11 = 0 ∧ bit 0xFF 10 = false ∧ bits 0x2FF 9 8 = 2) ∧
    (admitted 0x0904 (signed 0x0904 [0x4000, 0, 0]) (opened { svc with hoard := { svc.hoard with subs := vset svc.hoard.subs 0 (some sub) } }) =
        some (ctx1 0x0904 [0x4000, 0, 0], ready 0x0904 [0x4000, 0, 0] { svc with hoard := { svc.hoard with subs := vset svc.hoard.subs 0 (some sub) } }) ∧
      bit 0x4000 14 = true ∧ ∀ k ∈ rewindNames 0 0 sub none, (sub.cursor k.val).isSome = true) ∧
    (admitted 0x0905 (signed 0x0905 [53]) (opened svc) = some (ctx1 0x0905 [53], ready 0x0905 [53] svc) ∧ bits 53 7 0 = 53 ∧
      ((endRecord 53 (raise svc 0x0500 [])).hoard.streams[(53 : Fin 54)]).held.head?.isSome = true) ∧
    (admitted 0x0906 (signed 0x0906 [0x204B, 0x100042]) (opened svc) = some (ctx1 0x0906 [0x204B, 0x100042], ready 0x0906 [0x204B, 0x100042] svc) ∧
      bits 0x24B 8 7 = 0 ∧ bits 0x24B 6 0 = 75 ∧ bit 0x24B 9 = true ∧ bits 0x100042 11 6 < bits 0x100042 5 0 ∧ bits 0x100042 27 12 = 256 ∧
      bits 0x280 8 7 = 1 ∧ recMaxOk 0 62 svc = true ∧ svc.produces 0 = false ∧ svc.subscribed 0 = false ∧ spaceMib svc (some (0, 5)) svc.hoard.spillMib.toNat ≤ 4096 ∧
      bits 0x300 8 7 = 2 ∧ svc.hoard.spilled = [] ∧ spaceMib svc none 64 ≤ 4096) := by
  intro sub
  refine ⟨⟨admitted_signed _ _ svc rfl rfl rfl rfl, ?_⟩, ⟨admitted_signed _ _ _ rfl rfl rfl rfl, ?_⟩, admitted_signed _ _ svc rfl rfl rfl rfl,
    ⟨admitted_signed _ _ svc rfl rfl rfl rfl, ?_⟩, ⟨admitted_signed _ _ _ rfl rfl rfl rfl, ?_⟩, ⟨admitted_signed _ _ svc rfl rfl rfl rfl, ?_⟩,
    ⟨admitted_signed _ _ svc rfl rfl rfl rfl, ?_⟩⟩ <;> decide +kernel

theorem witness_HoardRows :
    let n := endRecord 53 (raise svc 0x0500 [])
    let x : Cursor := { newCursor 53 0 with sentAt := [(0, 9)] }
    let sub : Sub := { uplink := false, dest := 3, window := 8, maxResends := 0, ackUs := 1000, run := 0, cursors := [x], hold := none }
    let t : State := { n with hoard := { n.hoard with subs := vset n.hoard.subs 0 (some sub) } }
    ((deliver { stream := 48, stamp := 1, delay := 0, preset := 0, coded := false, count := 1, tick := none, words := [1, 2, 3, 4] } svc).hoard.streams[(48 : Fin 54)]).openRec.isSome = true ∧
    (svc.hoard.queues[ingress 48]).tailUs.toNat ≠ 0 ∧ t.hoard.subs[(0 : Fin 64)] = some sub ∧ sub.cursor 53 = some x ∧ t.delivers = true ∧
    (x.nextSend - x.acked - 1).toNat < sub.window.toNat ∧ (sendable t.hoard.streams[(53 : Fin 54)] x).isSome = true ∧
    x.oldestSent = some (0, 9) ∧ sub.gapsFirst = false ∧ { sub with hold := some 5 }.gapsFirst = true ∧ x.nextSend = x.sentEnd ∧ sub.maxResends.toNat ≤ x.consecutive ∧ 0 < { sub with maxResends := 1 }.maxResends.toNat ∧
    (sendable svc.hoard.streams[(0 : Fin 54)] (newCursor 0 0)) = none ∧ x.suspended = false := by
  refine ⟨?_, ?_, ?_, ?_, ?_, ?_, ?_, ?_, ?_, ?_, ?_, ?_, ?_, ?_, ?_⟩ <;> decide +kernel

theorem witness_FabricCommands :
    (admitted 0x0C01 (signed 0x0C01 [0x7FF, 0xFC0, 0]) (opened svc) = some (ctx1 0x0C01 [0x7FF, 0xFC0, 0], ready 0x0C01 [0x7FF, 0xFC0, 0] svc) ∧
      resv 0x7FF 31 12 = true ∧ bit 0x7FF 11 = false ∧ bit 0x7FF 10 = true ∧ bits 0xFC0 11 6 = 63 ∧ bits 0xFC0 5 0 < 32 ∧ resv 0xFC0 31 12 = true ∧
      bit 0xC1F 11 = true ∧ bits 0xC1F 4 0 = 31 ∧ bits 0xC1F 9 5 = 0 ∧ (∀ i < 6, bits 0x444444 (4 * i + 3) (4 * i) ≠ 0) ∧ bits 0x80A 7 0 = 10 ∧ bits 0x80A 15 8 = 8) ∧
    (admitted 0x0C02 (signed 0x0C02 [0x60]) (opened svc) = some (ctx1 0x0C02 [0x60], ready 0x0C02 [0x60] svc) ∧ bits 0x60 5 0 = 32 ∧ bit 0x60 6 = true ∧
      ({ svc with fab := { svc.fab with leads := true } } : State).leaderMember.isSome = true ∧ bits 31 5 0 = 31) ∧
    (admitted 0x0C03 (signed 0x0C03 [0x2020000, 0, 0, 7]) (opened svc) = some (ctx1 0x0C03 [0x2020000, 0, 0, 7], ready 0x0C03 [0x2020000, 0, 0, 7] svc) ∧
      bits 0x2020000 24 17 = 1 ∧ bit 0x2020000 25 = true ∧ bit 0x2020000 26 = false ∧ resv 0x2020000 31 28 = true ∧
      (let h : List Word := [0x4246484E, 0x100, 1, 1, 0] ++ List.replicate 9 0 ++ [crcWords [0, 0]]
       imageResult (h ++ [crcWords h, 0, 0]) 0 = 1)) ∧
    (admitted 0x0C04 (signed 0x0C04 [0x1FF, 1, 0, 0, 0]) (opened (ethernet 7 svc)) = some (ctx1 0x0C04 [0x1FF, 1, 0, 0, 0], ready 0x0C04 [0x1FF, 1, 0, 0, 0] (ethernet 7 svc)) ∧
      bits 0x1FF 2 0 = 7 ∧ bits 0x1FF 8 5 = 15 ∧ ethReserved (bit 0x1FF 4) [0x1FF, 1, 0, 0, 0] = true ∧ bit 0x1FF 3 = true ∧ (ethernet 7 svc).isEth (uplinkPort 7) = true) := by
  refine ⟨⟨admitted_signed _ _ svc rfl rfl rfl rfl, ?_⟩, ⟨admitted_signed _ _ svc rfl rfl rfl rfl, ?_⟩,
    ⟨admitted_signed _ _ svc rfl rfl rfl rfl, ?_⟩, ⟨admitted_signed _ _ _ rfl rfl rfl rfl, ?_⟩⟩ <;> decide +kernel

theorem witness_LinkRows :
    let l := linked 0 svc
    let f := (mkFrame l 3 0x01 false false 5 none [1]).seal
    let g := (mkFrame l 3 0x01 false false 0 none [1]).seal
    let q := enqueueOut 0 0 none f l
    let u := l.modClass 0 3 fun x => { x with unacked := [(f, 9)] }
    let h := { l with hoard := { l.hoard with spilled := [{ port := 0, replay := false, since := 3, frame := f }] } }
    l.served = true ∧ (l.lane 0).upForLink = true ∧ (l.lane 0).testUse = false ∧ l.isEth 0 = false ∧ f.headerOk = true ∧ sequenced f = true ∧
    f.crcOk = true ∧ f.typeOk = true ∧ f.stomped = false ∧ f.lseq = ((l.port 0).classes[f.clsFin]).rxSeq ∧ f.dst ≠ l.fab.hubId ∧ g.dst = l.fab.hubId ∧ f.hopsLeft ≠ 0 ∧
    (({ l with fab := { l.fab with routes := vset l.fab.routes 5 (0, 0) } } : State).route 5 3) = some 0 ∧ ((q.port 0).classes[(0 : Fin 6)]).queue.length = 1 ∧
    (u.port 0).classes[(3 : Fin 6)].unacked = [(f, 9)] ∧ (h.hoard.spilled.find? fun y => y.port == 0 && y.replay == false).isSome = true ∧
    (h.port 0).classes[(3 : Fin 6)].queue = [] ∧ (3 : BitVec 56).toNat % 8 = (3 : Fin 6).val ∧ (16 : BitVec 56).getLsbD 4 = true ∧ (8 : BitVec 56).getLsbD 3 = true := by
  intro l f g q u h
  refine ⟨?_, ?_, ?_, ?_, ?_, ?_, ?_, ?_, ?_, ?_, ?_, ?_, ?_, ?_, ?_, ?_, ?_, ?_, ?_, ?_, ?_⟩ <;> decide +kernel

theorem witness_MembershipRows :
    let l := linked 0 { svc with fab := { svc.fab with join := true, portMask := 1, state := 1 } }
    let f := (mkFrame { l with fab := { l.fab with hubId := 7 } } 1 0x20 false true 0 none (beaconWords { l.selfMember with hub := 7, bseq := 5 })).seal
    let m : State := { l with fab := { l.fab with members := [{ l.selfMember with hub := 7, bseq := 4 }] } }
    l.served = true ∧ l.fabricPorts ≠ [] ∧ l.linkUp 0 = true ∧ l.fab.portMask.getLsbD (0 : Port).val = true ∧ f.type = 0x20 ∧ f.src ≠ l.fab.hubId ∧
    (memberOf f l.lcN).verMajor = 1 ∧ serialOlder 4 (memberOf f l.lcN).bseq = true ∧ (m.fab.members.find? fun x => x.hub == 7).isSome = true ∧ l.fab.join = true ∧
    l.fab.state = 1 ∧ l.sup.mode ≠ .safeCore ∧ bestMember (candidates [l.selfMember]) = none ∧ (bestMember (candidates [{ l.selfMember with priority := 1 }])).isSome = true ∧
    ({ l with fab := { l.fab with next := some ([], 4) } } : State).fab.next = some ([], 4) ∧ l.fab.next = none := by
  intro l f m
  refine ⟨?_, ?_, ?_, ?_, ?_, ?_, ?_, ?_, ?_, ?_, ?_, ?_, ?_, ?_, ?_, ?_⟩ <;> decide +kernel

theorem witness_EthernetRows :
    let e := ethernet 0 svc
    let f := (mkFrame e 2 0x04 false false 9 none [1]).seal
    let d : Datagram := { srcIp := 1, srcUdp := 2, dstIp := 0, dstUdp := 40384, fragment := false, options := false, tagged := false, pause := false, checksumOk := true, frame := some f }
    let p : State := { e with fab := { e.fab with uplinks := vmod e.fab.uplinks 0 fun u => { u with eps := vset u.eps 3 { ip := 1, udp := 2, enable := true, mac := none } } } }
    e.uplinkLive 0 = true ∧ e.uplinkLive 1 = false ∧ d.dstIp = (e.fab.uplinks[(0 : Fin 8)]).ip ∧ d.dstUdp = (e.fab.uplinks[(0 : Fin 8)]).udpPort ∧
    f.headerOk = true ∧ f.crcOk = true ∧ 2 ≤ f.cls ∧ f.typeOk = true ∧ f.dst ≠ e.fab.hubId ∧ e.sup.mode ≠ .safeCore ∧
    (p.fab.uplinks[(0 : Fin 8)]).sourceEndpoint d.srcIp d.srcUdp = some 3 ∧ e.served = true := by
  intro e f d p
  refine ⟨?_, ?_, ?_, ?_, ?_, ?_, ?_, ?_, ?_, ?_, ?_, ?_⟩ <;> decide +kernel

theorem witness_LaneCommands :
    let r : State := { svc with lanes := { svc.lanes with refPresent := Vector.replicate 2 true } }
    let n : State := svc.modLane 31 fun l => { l with snapshot := some l.rxNow }
    let u : State := linked 31 { svc with time := { svc.time with cfg := { svc.time.cfg with timeEn := Vector.replicate 32 false } } }
    (admitted 0x0B00 (signed 0x0B00 [0x7F]) (opened r) = some (ctx1 0x0B00 [0x7F], ready 0x0B00 [0x7F] r) ∧ bits 0x7F 4 0 = 31 ∧ 31 / 16 = (1 : Fin 2).val ∧
      resv 0x7F 31 14 = true ∧ r.lanes.refPresent[(1 : Fin 2)] = true ∧ bit 0x7F 5 = true ∧ r.sup.mode ≠ .safeCore ∧ bit 0x7F 8 = false ∧ bits 0x7F 10 9 = 0 ∧
      (0x7F : Word).extractLsb' 6 8 ≠ (r.lane 31).settings ∧ (31 : Port) ∉ r.safetyPorts) ∧
    (admitted 0x0B01 (signed 0x0B01 [0x7F, 0x200, 0, 0]) (opened n) = some (ctx1 0x0B01 [0x7F, 0x200, 0, 0], ready 0x0B01 [0x7F, 0x200, 0, 0] n) ∧
      bits 0x7F 4 0 = 31 ∧ (n.lane 31).snapshot.isSome = true ∧ bits 0x200 3 0 + bits 0x200 14 10 + 16 ≤ bits 0x200 9 4) ∧
    (admitted 0x0B02 (signed 0x0B02 [0x207F, 0xA0101]) (opened (hub .test)) = some (ctx1 0x0B02 [0x207F, 0xA0101], ready 0x0B02 [0x207F, 0xA0101] (hub .test)) ∧
      resv 0x207F 31 14 = true ∧ resv 0xA0101 31 22 = true ∧ bits 0xA0101 15 8 = 1 ∧ bits 0xA0101 21 16 = 10 ∧ bit 0xA0101 1 = false ∧ (hub .test).sup.mode = .test) ∧
    (admitted 0x0B03 (signed 0x0B03 [0x29F]) (opened u) = some (ctx1 0x0B03 [0x29F], ready 0x0B03 [0x29F] u) ∧ bits 0x29F 4 0 = 31 ∧ bits 0x29F 10 5 = 20 ∧
      (u.lane 31).rx = .up ∧ (u.lane 31).scan = none ∧ resv 0x29F 31 11 = true) ∧
    (admitted 0x0B04 (signed 0x0B04 [0x4FF]) (opened u) = some (ctx1 0x0B04 [0x4FF], ready 0x0B04 [0x4FF] u) ∧ bits 0x4FF 15 9 = 2 ∧ (u.lane 31).tx = .on ∧
      u.isEth 31 = false ∧ u.time.cfg.timeEn[(31 : Port)] = false ∧ (31 : Port) ∉ u.safetyPorts ∧ resv 0x4FF 31 16 = true) := by
  intro r n u
  refine ⟨⟨admitted_signed _ _ _ rfl rfl rfl rfl, ?_⟩, ⟨admitted_signed _ _ _ rfl rfl rfl rfl, ?_⟩, ⟨admitted_signed _ _ _ rfl rfl rfl rfl, ?_⟩,
    ⟨admitted_signed _ _ _ rfl rfl rfl rfl, ?_⟩, ⟨admitted_signed _ _ _ rfl rfl rfl rfl, ?_⟩⟩ <;> decide +kernel

theorem witness_LaneRows :
    let r : State := { svc with lanes := { svc.lanes with refPresent := Vector.replicate 2 true } }
    let a : (Lane → Lane) → Lane := fun f => (svc.modLane 31 f).lane 31
    r.served = true ∧ r.lanes.refPresent[(1 : Fin 2)] = true ∧ (r.modLane 31 fun l => { l with settings := 1 }).pllPowered (pllIndex 1 false) = true ∧ (a fun l => { l with rx := .acquire }).rx = .acquire ∧ (a fun l => { l with rx := .locking }).rx = .locking ∧
    (a fun l => { l with rx := .up }).rx = .up ∧ (a fun l => { l with rx := .up }).scan = none ∧ (a fun l => { l with rx := .hiBer }).rx = .hiBer ∧ (a fun l => { l with txQuiet := true, tx := .on }).tx = .on ∧
    (a fun l => { l with wake := .pattern }).wake = .pattern ∧ (a fun l => { l with wake := .idles }).wake = .idles ∧
    (a fun l => { l with rx := .quiet, rxqByPeer := true }).rxqByPeer = true ∧ (a fun l => { l with rx := .locking, rxWakeAt := some 1 }).rxWakeAt.isSome = true ∧
    (a fun l => { l with tapsT := { pre := 1, main := 2, post := 3 } }).tapsNow ≠ (a fun l => { l with tapsT := { pre := 1, main := 2, post := 3 } }).tapsT ∧
    (a fun l => { l with prbs := 0x10, rx := .test }).prbsLocked = false ∧ (a fun l => { l with prbsLocked := true }).prbsLocked = true ∧
    (a fun l => { l with inj := some { line := false, burst := 1, left := 1, interval := 10 } }).inj.isSome = true ∧
    (a fun l => { l with scan := some (20, 1, { packet := ask [], key := none }) }).scan = some (20, 1, { packet := ask [], key := none }) := by
  intro r a
  refine ⟨?_, ?_, ?_, ?_, ?_, ?_, ?_, ?_, ?_, ?_, ?_, ?_, ?_, ?_, ?_, ?_, ?_, ?_⟩ <;> decide +kernel

theorem witness_BlockCoder :
    (admitted 0x0A00 (signed 0x0A00 [0x6F]) (opened svc) = some (ctx1 0x0A00 [0x6F], ready 0x0A00 [0x6F] svc) ∧ bits 0x6F 5 0 = 47 ∧ bit 0x6F 6 = true ∧
      resv 0x6F 31 15 = true ∧ bits 0x6F 9 8 = 0 ∧ coderFloor 0 ≤ (svc.hoard.streams[settStream 47]).recMax.toNat ∧ (svc.setts[(47 : SettId)]).run = false) ∧
    (admitted 0x0A01 (signed 0x0A01 [47]) (opened svc) = some (ctx1 0x0A01 [47], ready 0x0A01 [47] svc) ∧ bits 47 5 0 = 47 ∧ resv 47 31 6 = true) ∧
    (admitted 0x0A02 (signed 0x0A02 [0x100, 0, 0, 0x500]) (opened svc) = some (ctx1 0x0A02 [0x100, 0, 0, 0x500], ready 0x0A02 [0x100, 0, 0, 0x500] svc) ∧
      resv 0x100 31 9 = true ∧ bit 0x100 0 = false ∧ bits 0x100 7 3 + 1 = 1 ∧ (0x100 : Word).extractLsb' 1 2 ≠ (3 : BitVec 2) ∧ svc.sup.mode ≠ .safeCore) ∧
    ((svc.modCoder 47 fun x => { x with stalled := true }).coders[(47 : SettId)]).stalled = true ∧ coderFull 47 (svc.modCoder 47 fun x => { x with stalled := true }) = false := by
  refine ⟨⟨admitted_signed _ _ svc rfl rfl rfl rfl, ?_⟩, ⟨admitted_signed _ _ svc rfl rfl rfl rfl, ?_⟩, ⟨admitted_signed _ _ svc rfl rfl rfl rfl, ?_⟩, ?_, ?_⟩ <;> decide +kernel

/-- A safety sett 0 with one limit monitor on its channel 0, and the words of the block that names them. -/
def safeState (words : List (Nat × Word)) : State :=
  let t := planned [] (hub .test)
  { t with chans := vmod t.chans 0 (fun x => { x with enable := true }), owl := { t.owl with commEn := true, staged := words } }

def safeWords (digest : Nat) : List Word :=
  [0x5350484E, 0x100, 1, 1, 1, 0, 0, w32 digest, w32 (digest / 2 ^ 32), 184, 0, 0, 0, 0, 0, 0] ++ List.replicate 20 0 ++
  [0x80, 0x01000000, 2, 0, 0, 1, 0, 0, 0, 0]

def safeStaged : List (Nat × Word) :=
  let d := planDigest (fun k => decide (k.val = 0)) (safeState []).plan.bank
  (List.range 46).zip (safeWords d)

theorem witness_SafetyCommands_block : ((safeState safeStaged).stagedBlock.any fun b => (safeState safeStaged).matchesBlock b && b.outputs.isEmpty &&
    decide (planDigest (fun j => b.settMask.getLsbD j.val) (safeState safeStaged).plan.bank = b.planDigest.toNat)) = true := by
  decide +kernel

theorem witness_SafetyCommands :
    let t := safeState []
    let b : Block := { words := [], safetyId := 1, settMask := 0, soUsed := 1, siUsed := 0, pair01 := false, pair23 := false, discMs := 0, planDigest := 0, sos := [{ demandMask := 1, restartManual := false, widthMax := 200, periodMax := 20 }], sis := [], setts := [], prjs := [], mons := [], conns := [] }
    let u : State := { svc with owl := { svc.owl with block := some b } }
    (admitted 0x0D00 (signed 0x0D00 [0x404000, 7]) (opened svc) = some (ctx1 0x0D00 [0x404000, 7], ready 0x0D00 [0x404000, 7] svc) ∧ bits 0x404000 21 14 = 1 ∧
      resv 0x404000 31 23 = true ∧ bits 0x404000 13 0 = 0) ∧
    (admitted 0x0D01 (signed 0x0D01 [1, 0]) (opened t) = some (ctx1 0x0D01 [1, 0], ready 0x0D01 [1, 0] t) ∧ accParty 0x0D01 0 (ctx1 0x0D01 [1, 0]) = true ∧
      t.owl.commEn = true ∧ t.sup.mode = .test ∧ bit 1 0 = true ∧ ((List.finRange 8).find? fun j => (t.proposalAt j).isNone) = some 0 ∧ t.breaksLimits (commissionApply true t) = false ∧
      (∀ j, t.proposalAt j = none) ∧ t.plan.active = true) ∧
    (admitted 0x0D02 (signed 0x0D02 [0]) (opened svc) = some (ctx1 0x0D02 [0], ready 0x0D02 [0] svc)) ∧
    (admitted 0x0D03 (signed 0x0D03 [0x4C88]) (opened u) = some (ctx1 0x0D03 [0x4C88], ready 0x0D03 [0x4C88] u) ∧ bits 0x4C88 2 0 = 0 ∧ bit 0x4C88 3 = true ∧
      bits 0x4C88 13 4 = 200 ∧ bits 0x4C88 23 14 = 1 ∧ u.soAt 0 = some { demandMask := 1, restartManual := false, widthMax := 200, periodMax := 20 } ∧
      u.widthFits 0 200 = true ∧ resv 0x4C88 31 24 = true) ∧
    (admitted 0x0D04 (signed 0x0D04 [1]) (opened u) = some (ctx1 0x0D04 [1], ready 0x0D04 [1] u) ∧ u.working = true ∧ resv 1 31 17 = true) := by
  intro t b u
  refine ⟨⟨admitted_signed _ _ svc rfl rfl rfl rfl, ?_⟩, ⟨admitted_signed _ _ _ rfl rfl rfl rfl, ?_⟩, admitted_signed _ _ svc rfl rfl rfl rfl,
    ⟨admitted_signed _ _ _ rfl rfl rfl rfl, ?_⟩, ⟨admitted_signed _ _ _ rfl rfl rfl rfl, ?_⟩⟩ <;> decide +kernel

theorem witness_OwlRows :
    let m : MonEntry := { kind := 2, primary := { isPrj := false, index := 0 }, fallback := none, invTol := 0, dir := false, demandMask := 1, check := some { isPrj := false, index := 1 }, limA := 0, limB := 1, speedUs := 0, plausTol := 1, plausCyc := 1 }
    let b : Block := { words := [], safetyId := 1, settMask := 0, soUsed := 1, siUsed := 3, pair01 := true, pair23 := false, discMs := 1, planDigest := 0, sos := [{ demandMask := 1, restartManual := false, widthMax := 200, periodMax := 20 }], sis := [{ demandMask := 1, latch := true, filterCyc := 1 }, { demandMask := 1, latch := true, filterCyc := 1 }], setts := [], prjs := [], mons := [m], conns := [{ partner := 5, send := true, recv := true, sendMask := 1, acceptMask := 1, lossMask := 1 }] }
    let o : (Owl → Owl) → State := fun f => { svc with owl := f { svc.owl with running := true, block := some b } }
    let w2 : Word := 5
    (o id).served = true ∧ (o id).owl.running = true ∧ (o id).owl.fail = false ∧ (o id).monAt 0 = some m ∧
    ((o fun x => { x with mons := vmod x.mons 0 fun y => { y with invalidRun := 1, plausRun := 1 } }).owl.mons[(0 : Fin 16)]).invalidRun = 1 ∧
    (b.inputs.find? fun x => x.1 == 0).isSome = true ∧ ((o fun x => { x with sis := vmod x.sis 0 fun y => { y with run := 1 } }).owl.sis[(0 : Fin 4)]).run = 1 ∧
    b.pairOf 0 = some (0, 1) ∧ ((o fun x => { x with discSince := vset x.discSince 0 (some 3) }).owl.discSince[(0 : Fin 2)]) = some 3 ∧
    ((o id).soAt 0).isSome = true ∧ (o id).owl.soFault = false ∧
    ({ o (fun x => { x with sos := vmod x.sos 0 fun y => { y with on := true, due := true } }) with plan := { svc.plan with windows := [(1, 0, 100000)] } } : State).pulseFits 0 = true ∧
    ((o fun x => { x with sos := vmod x.sos 0 fun y => { y with pulse := some 3 } }).owl.sos[(0 : Fin 8)]).pulse = some 3 ∧
    (o id).connAt 0 = some (b, { partner := 5, send := true, recv := true, sendMask := 1, acceptMask := 1, lossMask := 1 }) ∧ (5 : BitVec 10) = w2.extractLsb' 0 10 ∧
    ((o id).owl.conns[(0 : Fin 8)]).synced = false ∧ ((o id).owl.conns[(0 : Fin 8)]).resync = false ∧
    ((1 : BitVec 16) - ((o id).owl.conns[(0 : Fin 8)]).lastSeq).toNat = 1 := by
  intro m b o w2
  refine ⟨?_, ?_, ?_, ?_, ?_, ?_, ?_, ?_, ?_, ?_, ?_, ?_, ?_, ?_, ?_, ?_, ?_, ?_⟩ <;> decide +kernel

theorem witness_TwoPartyChanges :
    let x : Proposal := { action := 1, opcode := 0x0E00, params := [0], digest := [], slot := 1, since := 0 }
    let q : State := { svc with prot := { svc.prot with proposals := vset svc.prot.proposals 7 (some x) } }
    let x0 : Proposal := { x with slot := 0 }
    (admitted 0x0C00 (signed 0x0C00 [0xC00, 0]) (opened svc) = some (ctx1 0x0C00 [0xC00, 0], ready 0x0C00 [0xC00, 0] svc) ∧ bit 0xC00 10 = true ∧ resv 0xC00 31 20 = true ∧
      (0xC00 : Word).extractLsb' 12 8 = svc.fab.leadPriority ∧ (0x1C00 : Word).extractLsb' 12 8 ≠ svc.fab.leadPriority ∧ svc.hoard.subs[(0 : Fin 64)] = none ∧
      (∀ k : Port, svc.isEth k = false) ∧ fabJoinCheck [0x1C00, 0] svc = stOk ∧ accParty 0x0C00 0 (ctx1 0x0C00 [0xC00, 0]) = true) ∧
    (((List.finRange 8).find? fun j => (svc.proposalAt j).isNone) = some 0 ∧ (ctx1 0 []).slot = some 0 ∧ (ctx1 0 []).replay = false ∧ ∀ j, svc.proposalAt j = none) ∧
    (admitted 0x0F00 (signed 0x0F00 [0x41, 0x10000]) (opened svc) = some (ctx1 0x0F00 [0x41, 0x10000], ready 0x0F00 [0x41, 0x10000] svc) ∧ svc.pairConfigurable = true ∧
      pairWordsOk [0x41, 0x10000] svc = true ∧ bit 0x41 1 = false) ∧
    (admitted 0x0E00 (signed 0x0E00 (1 :: (List.replicate 8 0 ++ [0]))) (opened svc) = some (ctx1 0x0E00 (1 :: (List.replicate 8 0 ++ [0])), ready 0x0E00 (1 :: (List.replicate 8 0 ++ [0])) svc) ∧
      bytesOfWords (wordsOfBytes (genericDigest svc 0x0E00 1 (bytesOfWords [0]))) = genericDigest svc 0x0E00 1 (bytesOfWords [0]) ∧
      (wordsOfBytes (genericDigest svc 0x0E00 1 (bytesOfWords [0]))).length = 8 ∧ cfgCheck [0] svc = stOk) ∧
    (admitted 0x0E01 (signed 0x0E01 (7 :: List.replicate 8 0)) (opened q) = some (ctx1 0x0E01 (7 :: List.replicate 8 0), ready 0x0E01 (7 :: List.replicate 8 0) q) ∧
      bits 7 2 0 = 7 ∧ q.proposalAt 7 = some x ∧ confirmRoles x (ctx1 0x0E01 []) q = true ∧ (ctx1 0x0E01 []).slot = some x0.slot ∧ x.slot ≠ 0 ∧
      (changeJudge 0x0E00 1 [0] q).1 = stOk ∧ q.pair.paired = false) ∧
    (admitted 0x0E02 (signed 0x0E02 [7]) (opened q) = some (ctx1 0x0E02 [7], ready 0x0E02 [7] q) ∧ mayAbort (ctx1 0x0E02 [7]) x = true ∧ resv 7 31 4 = true ∧ bit 7 3 = false) ∧
    (({ svc with prot := { svc.prot with slots := vmod svc.prot.slots 3 fun y => { y with lockedUntil := some 9 } } } : State).prot.slots[(3 : Fin 8)]).lockedUntil = some 9 ∧
    ({ svc with prot := { svc.prot with debugUntil := some 9 } } : State).prot.debugUntil = some 9 := by
  intro x q x0
  refine ⟨⟨admitted_signed _ _ svc rfl rfl rfl rfl, ?_⟩, ?_, ⟨admitted_signed _ _ svc rfl rfl rfl rfl, ?_⟩, ⟨admitted_signed _ _ svc rfl rfl rfl rfl, ?_⟩,
    ⟨admitted_signed _ _ _ rfl rfl rfl rfl, ?_⟩, ⟨admitted_signed _ _ _ rfl rfl rfl rfl, ?_⟩, ?_, ?_⟩ <;> decide +kernel

/-- A request of session 0 reaches its own checks. -/
theorem witness_KeysAndFirmware_first : (admitted 0x0E03 (ask (0x1E0 :: List.replicate 8 1)) { svc with owl := { svc.owl with commEn := true } }).any (fun x =>
    x.1.session.isNone && x.1.packet.origin == .controlPort && x.2.owl.commEn && decide (x.2.keyedCount < 2) &&
    keyCheck (0x1E0 :: List.replicate 8 1) x.2 == stOk && keyWordsOk (0x1E0 :: List.replicate 8 1)) = true := by decide +kernel

theorem witness_KeysAndFirmware :
    let v : State := { svc with prot := { svc.prot with stage := .verified, staged := [(0, 1), (1, 2), (2, 7)] } }
    let k : State := { svc with prot := { svc.prot with slots := svc.prot.slots.map fun y => { y with key := some key1, roles := 0xF } } }
    let sw : State := { svc with prot := { svc.prot with switching := true } }
    (admitted 0x0E03 (signed 0x0E03 (0x48 :: List.replicate 8 0)) (opened k) = some (ctx1 0x0E03 (0x48 :: List.replicate 8 0), ready 0x0E03 (0x48 :: List.replicate 8 0) k) ∧
      2 ≤ k.keyedCount ∧ keyWordsOk (0x48 :: List.replicate 8 0) = true ∧ keyCheck (0x48 :: List.replicate 8 0) k = stOk ∧
      accParty 0x0E03 0 (ctx1 0x0E03 []) = true ∧ (∀ j, k.proposalAt j = none)) ∧
    (admitted 0x0E04 (signed 0x0E04 [0x20200000, 7]) (opened svc) = some (ctx1 0x0E04 [0x20200000, 7], ready 0x0E04 [0x20200000, 7] svc) ∧ bits 0x20200000 28 21 = 1 ∧
      bit 0x20200000 31 = false ∧ bit 0x20200000 29 = true ∧ svc.sup.mode ≠ .safeCore) ∧
    (admitted 0x0E05 (signed 0x0E05 [7]) (opened v) = some (ctx1 0x0E05 [7], ready 0x0E05 [7] v) ∧ v.working = true ∧ v.stagedVersion = some (bits 7 23 0) ∧
      ((List.finRange 8).find? fun j => (v.proposalAt j).isNone) = some 0 ∧ (∀ j, v.proposalAt j = none) ∧ resv 7 31 24 = true) ∧
    sw.served = true ∧ sw.prot.switching = true ∧ sw.cmd.running = [] := by
  intro v k sw
  refine ⟨⟨admitted_signed _ _ _ rfl rfl rfl rfl, ?_⟩, ⟨admitted_signed _ _ svc rfl rfl rfl rfl, ?_⟩, ⟨admitted_signed _ _ _ rfl rfl rfl rfl, ?_⟩, ?_, ?_, ?_⟩ <;> decide +kernel

theorem witness_CodedValueOfASample :
    ((-8388608 : Int) + 2 ^ 0) / 2 ^ 1 ≤ 2 ^ 22 - 1 ∧
    (2 ^ 22 - 1 : Int) < ((8388607 : Int) + 2 ^ 0) / 2 ^ 1 ∧ (2 ^ 0 - 1 : Int) < ((8388607 : Int) + 2 ^ 22) / 2 ^ 23 := by decide

end Sys2Proof.Tests
end

namespace Sys2Proof.Machine

/-! SUPPORT. No command changes the factory data or the queue, and none leaves a sparse memory out of its canonical form.
One lemma for each row, `_kept` where the row writes none of them and `_good` where it writes a sparse memory; then the step. -/

/-! Shared operations. -/

@[simp] theorem badInstr_kept (s : State) : (badInstr s).kept = s.kept := id rfl

@[simp] theorem stampSync_kept (p : Port) (s : State) : (stampSync p s).kept = s.kept := by
  simp [stampSync]

@[simp] theorem stompLast_kept (p : Port) (c : Fin 6) (s : State) : (stompLast p c s).kept = s.kept := by
  simp [stompLast]

@[simp] theorem cutShort_kept (input : Port) (f : Frame) (s0 s : State) : (cutShort input f s0 s).kept = s.kept := by
  unfold cutShort; simp only []; (repeat' split) <;> simp

@[simp] theorem burstDone_kept (sett : SettId) (convs : Vector Conv 8) (s : State) :
    (burstDone sett convs s).kept = s.kept := by
  unfold burstDone
  split
  · rfl
  · simp [kept_factory, kept_pending, kept_banks, kept_owl, kept_prot, kept_img]

@[simp] theorem injectDone_kept (ch : Chan) (conv : Conv) (s : State) : (injectDone ch conv s).kept = s.kept := by
  unfold injectDone; split <;> simp

@[simp] theorem tickGroup_kept (sett : SettId) (convs : Vector Conv 8) (s : State) :
    (tickGroup sett convs s).kept = s.kept := by
  unfold tickGroup
  split
  · rfl
  · simp [kept_factory, kept_pending, kept_banks, kept_owl, kept_prot, kept_img]

@[simp] theorem useRaw_kept (ch : Chan) (raw : Int) (held : Bool) (tk : Nat) (s : State) :
    (useRaw ch raw held tk s).kept = s.kept := by
  simp [useRaw]

@[simp] theorem passReplay_kept (replay : Bool) (r : Record) (s : State) : (passReplay replay r s).1.kept = s.kept := by
  unfold passReplay; split <;> simp

/-- The state that a frame leaves, dropped or taken (R409). -/
def Accepted.state : Accepted → State | .dropped s => s | .taken s => s

@[simp] theorem accepted_dropped (s : State) : (Accepted.dropped s).state = s := id rfl

@[simp] theorem accepted_taken (s : State) : (Accepted.taken s).state = s := id rfl

theorem acceptFrame_kept (p : Port) (f : Frame) (s : State) : (acceptFrame p f s).state.kept = s.kept := by
  unfold acceptFrame; simp only []; (repeat' split) <;> simp

/-! From what an operation keeps to what a row answers. -/

theorem guard_good {p : Bool} {s t : State} (h : s.kept.Good t.kept) :
    s.kept.Good (Out.settle (guardNext p s t) s).kept := by
  rw [settle_guard]
  split
  · exact h
  · exact Kept.Good.refl _

theorem guard_kept {p : Bool} {s t : State} (h : t.kept = s.kept) :
    (Out.settle (guardNext p s t) s).kept = s.kept := by
  rw [settle_guard]
  split
  · exact h
  · rfl

theorem serve_keeps (sp : CmdSpec) (h : sp.keeps) (p : Packet) (s : State) :
    s.kept.Good (Out.settle (serve sp p s) s).kept :=
  serve_good sp (fun c ws t => good_of_kept (h c ws t)) p s

theorem Kept.Good.of_eq_left {a b c : Kept} (h : b = a) (k : b.Good c) : a.Good c := h ▸ k

theorem Kept.Good.of_eq_right {a b c : Kept} (k : a.Good b) (h : c = b) : a.Good c := h ▸ k

/-- A new staged configuration image leaves everything else (R433). -/
theorem good_img {a : Kept} {l : List (Nat × Word)} (h : Rising a.img → Rising l) : a.Good { a with img := l } :=
  ⟨rfl, rfl, fun ⟨hb, ho, hp, hi⟩ => ⟨hb, ho, hp, h hi⟩⟩

/-- An empty staging area of the firmware leaves everything else. -/
theorem good_prot_nil (a : Kept) : a.Good { a with prot := [] } :=
  ⟨rfl, rfl, fun ⟨hb, ho, _, hi⟩ => ⟨hb, ho, rising_nil, hi⟩⟩

theorem reset_rising : State.reset.kept.rising := by
  have e : State.reset.kept.banks = [[], []] := rfl
  refine ⟨fun b hb => ?_, rising_nil, rising_nil, rising_nil⟩
  rw [e] at hb
  have : b = [] := by simpa using hb
  exact this ▸ rising_nil

theorem timeReadSpec_keeps : timeReadSpec.keeps := fun _ _ _ => by
  simp [timeReadSpec]

theorem planStatusSpec_keeps : planStatusSpec.keeps := fun _ _ _ => by
  simp [planStatusSpec]

theorem healthReportSpec_keeps : healthReportSpec.keeps := fun _ _ _ => by
  simp [healthReportSpec]

theorem pairStatusSpec_keeps : pairStatusSpec.keeps := fun _ _ _ => by
  simp [pairStatusSpec]

/-! Rows of the register window. -/

theorem execSplitLoRead_kept (which : SplitValue) (s : State) : (Out.settle (execSplitLoRead which s) s).kept = s.kept := by
  simp [execSplitLoRead]

theorem execSplitMidRead_kept (which : SplitValue) (s : State) : (Out.settle (execSplitMidRead which s) s).kept = s.kept := by
  unfold execSplitMidRead
  simp only [settle_guard]
  (repeat' split) <;> simp

theorem execSplitLastRead_kept (which : SplitValue) (s : State) : (Out.settle (execSplitLastRead which s) s).kept = s.kept := by
  unfold execSplitLastRead
  simp only [settle_guard]
  (repeat' split) <;> simp

theorem execRegWrite_kept (addr : BitVec 12) (words : List Word) (s : State) :
    (Out.settle (execRegWrite addr words s) s).kept = s.kept := by
  simp [execRegWrite]

theorem execNqPop_kept (s : State) : (Out.settle (execNqPop s) s).kept = s.kept := by
  simp [execNqPop]

theorem execNqFlush_kept (s : State) : (Out.settle (execNqFlush s) s).kept = s.kept := by
  simp [execNqFlush]

theorem execLongResetClear_kept (s : State) : (Out.settle (execLongResetClear s) s).kept = s.kept := by
  simp [execLongResetClear]

theorem execTearClear_kept (s : State) : (Out.settle (execTearClear s) s).kept = s.kept := by
  simp [execTearClear]

theorem execWrIgnoredClear_kept (s : State) : (Out.settle (execWrIgnoredClear s) s).kept = s.kept := by
  simp [execWrIgnoredClear]

theorem execBadInstrClear_kept (s : State) : (Out.settle (execBadInstrClear s) s).kept = s.kept := by
  simp [execBadInstrClear]

theorem execEventSummaryClear_kept (mask : Word) (s : State) : (Out.settle (execEventSummaryClear mask s) s).kept = s.kept := by
  simp [execEventSummaryClear]

theorem execCntSelWrite_kept (value : Word) (s : State) : (Out.settle (execCntSelWrite value s) s).kept = s.kept := by
  simp [execCntSelWrite]

theorem execBadInstr_kept (instr : Byte) (addr : BitVec 16) (s : State) :
    (Out.settle (execBadInstr instr addr s) s).kept = s.kept := by
  simp [execBadInstr]

theorem execRplRead_kept (clocked : Nat) (s : State) : (Out.settle (execRplRead clocked s) s).kept = s.kept := by
  unfold execRplRead
  rw [settle_next]
  split <;> simp

/-! Rows of packets, sessions and forwarded requests. -/

theorem execPktWrite_kept (bytes : List Byte) (s : State) : (Out.settle (execPktWrite bytes s) s).kept = s.kept := by
  simp [execPktWrite]

theorem execSessionIdleTimeout_kept (session : Fin 8) (s : State) :
    (Out.settle (execSessionIdleTimeout session s) s).kept = s.kept := by
  unfold execSessionIdleTimeout
  rw [settle_next]
  split <;> simp

theorem execReplyRx_kept (session : Byte) (reqId : Word) (bytes : List Byte) (s : State) :
    (Out.settle (execReplyRx session reqId bytes s) s).kept = s.kept := by
  simp [execReplyRx]

theorem execForwardTimeout_kept (session : Byte) (reqId : Word) (s : State) :
    (Out.settle (execForwardTimeout session reqId s) s).kept = s.kept := by
  unfold execForwardTimeout
  rw [settle_next]
  split <;> simp

/-! Rows of time and its sources. -/

theorem execDelayTapAdjust_kept (sett : SettId) (s : State) : (Out.settle (execDelayTapAdjust sett s) s).kept = s.kept := by
  simp [execDelayTapAdjust]

theorem execSyncInterval_kept (port : Port) (s : State) : (Out.settle (execSyncInterval port s) s).kept = s.kept := by
  simp [execSyncInterval]

theorem execSyncRx_kept (port : Port) (t2 t3 : Nat) (s : State) : (Out.settle (execSyncRx port t2 t3 s) s).kept = s.kept := by
  simp [execSyncRx]

theorem execSyncFuRx_kept (port : Port) (fu : SyncFu) (s : State) : (Out.settle (execSyncFuRx port fu s) s).kept = s.kept := by
  simp [execSyncFuRx]

theorem execDelayReqRx_kept (port : Port) (t4 : Nat) (s : State) : (Out.settle (execDelayReqRx port t4 s) s).kept = s.kept := by
  simp [execDelayReqRx]

theorem execDelayRespRx_kept (port : Port) (t4 : Int) (s : State) : (Out.settle (execDelayRespRx port t4 s) s).kept = s.kept := by
  unfold execDelayRespRx
  simp only [settle_guard]
  (repeat' split) <;> simp

theorem execParentLoss_kept (s : State) : (Out.settle (execParentLoss s) s).kept = s.kept := by
  unfold execParentLoss
  rw [settle_next]
  split <;> simp

theorem execParentReselect_kept (port : Port) (s : State) : (Out.settle (execParentReselect port s) s).kept = s.kept := by
  unfold execParentReselect
  rw [settle_next]
  split <;> simp

theorem execLeaderServoUpdate_kept (s : State) : (Out.settle (execLeaderServoUpdate s) s).kept = s.kept := by
  simp [execLeaderServoUpdate]

theorem execHoldoverExpiry_kept (s : State) : (Out.settle (execHoldoverExpiry s) s).kept = s.kept := by
  unfold execHoldoverExpiry
  rw [settle_next]
  split <;> simp

theorem execTimeMapInterval_kept (s : State) : (Out.settle (execTimeMapInterval s) s).kept = s.kept := by
  simp [execTimeMapInterval]

theorem execPpsEdge_kept (stamp : Nat) (s : State) : (Out.settle (execPpsEdge stamp s) s).kept = s.kept := by
  simp [execPpsEdge]

theorem execPtpAnnounceRx_kept (a : Announce) (s : State) : (Out.settle (execPtpAnnounceRx a s) s).kept = s.kept := by
  simp [execPtpAnnounceRx]

theorem execPtpSyncRx_kept (port : Fin 8) (clockId : Word64) (seq : BitVec 16) (stamp : Nat) (s : State) :
    (Out.settle (execPtpSyncRx port clockId seq stamp s) s).kept = s.kept := by
  simp [execPtpSyncRx]

theorem execPtpFollowUpRx_kept (port : Fin 8) (clockId : Word64) (seq : BitVec 16) (origin : Int) (s : State) :
    (Out.settle (execPtpFollowUpRx port clockId seq origin s) s).kept = s.kept := by
  unfold execPtpFollowUpRx
  simp only [settle_guard]
  (repeat' split) <;> simp

theorem execPtpDelayRespRx_kept (port : Fin 8) (clockId : Word64) (seq : BitVec 16) (sent : Nat) (receive : Int) (s : State) :
    (Out.settle (execPtpDelayRespRx port clockId seq sent receive s) s).kept = s.kept := by
  unfold execPtpDelayRespRx
  simp only [settle_guard]
  (repeat' split) <;> simp

theorem execSourceLost_kept (s : State) : (Out.settle (execSourceLost s) s).kept = s.kept := by
  simp [execSourceLost]

theorem execLcWrap_kept (s : State) : (Out.settle (execLcWrap s) s).kept = s.kept := by
  simp [execLcWrap]

/-! Rows of the front end. -/

theorem execAfeDiagTestDone_kept (ch : Chan) (rPair : Nat) (overloaded : Bool) (s : State) :
    (Out.settle (execAfeDiagTestDone ch rPair overloaded s) s).kept = s.kept := by
  unfold execAfeDiagTestDone
  rw [settle_next]
  split <;> simp

theorem execModulatorInstability_kept (ch : Chan) (s : State) : (Out.settle (execModulatorInstability ch s) s).kept = s.kept := by
  simp [execModulatorInstability]

theorem execModulatorRecoveryEnd_kept (ch : Chan) (s : State) : (Out.settle (execModulatorRecoveryEnd ch s) s).kept = s.kept := by
  simp [execModulatorRecoveryEnd]

theorem execCommonModeFaultOnset_kept (ch : Chan) (detector : Fin 4) (s : State) :
    (Out.settle (execCommonModeFaultOnset ch detector s) s).kept = s.kept := by
  simp [execCommonModeFaultOnset]

theorem execCommonModeFaultClear_kept (ch : Chan) (detector : Fin 4) (s : State) :
    (Out.settle (execCommonModeFaultClear ch detector s) s).kept = s.kept := by
  simp [execCommonModeFaultClear]

theorem execOcTrip_kept (sett : SettId) (s : State) : (Out.settle (execOcTrip sett s) s).kept = s.kept := by
  simp [execOcTrip]

theorem execRegLost_kept (sett : SettId) (s : State) : (Out.settle (execRegLost sett s) s).kept = s.kept := by
  simp [execRegLost]

theorem execRegLostClear_kept (sett : SettId) (s : State) : (Out.settle (execRegLostClear sett s) s).kept = s.kept := by
  simp [execRegLostClear]

theorem execContention_kept (sett : SettId) (s : State) : (Out.settle (execContention sett s) s).kept = s.kept := by
  simp [execContention]

theorem execContentionClear_kept (sett : SettId) (s : State) : (Out.settle (execContentionClear sett s) s).kept = s.kept := by
  simp [execContentionClear]

theorem execDenExcCurrentFault_kept (den : DenId) (s : State) : (Out.settle (execDenExcCurrentFault den s) s).kept = s.kept := by
  simp [execDenExcCurrentFault]

theorem execFilterEngineError_kept (sett : SettId) (s : State) : (Out.settle (execFilterEngineError sett s) s).kept = s.kept := by
  simp [execFilterEngineError]

/-! Rows of the lanes. -/

theorem execLaneMarginDone_kept (port : Port) (scan : EyeScan) (s : State) :
    (Out.settle (execLaneMarginDone port scan s) s).kept = s.kept := by
  unfold execLaneMarginDone
  rw [settle_next]
  split <;> simp

theorem execLanePllLock_kept (group : Fin 2) (rate : Bool) (s : State) :
    (Out.settle (execLanePllLock group rate s) s).kept = s.kept := by
  simp [execLanePllLock, kept_factory, kept_pending, kept_banks, kept_owl, kept_prot, kept_img]

theorem execLaneAcquireDone_kept (port : Port) (coef : RxCoef) (s : State) :
    (Out.settle (execLaneAcquireDone port coef s) s).kept = s.kept := by
  simp [execLaneAcquireDone]

theorem execBlockLock_kept (port : Port) (s : State) : (Out.settle (execBlockLock port s) s).kept = s.kept := by
  simp [execBlockLock]

theorem execBlockLockLoss_kept (port : Port) (invalid : Nat) (s : State) :
    (Out.settle (execBlockLockLoss port invalid s) s).kept = s.kept := by
  simp [execBlockLockLoss]

theorem execLockingTimeout_kept (port : Port) (s : State) : (Out.settle (execLockingTimeout port s) s).kept = s.kept := by
  simp [execLockingTimeout]

theorem execHiBer_kept (port : Port) (invalid : Nat) (s : State) : (Out.settle (execHiBer port invalid s) s).kept = s.kept := by
  simp [execHiBer]

theorem execHiBerClear_kept (port : Port) (s : State) : (Out.settle (execHiBerClear port s) s).kept = s.kept := by
  simp [execHiBerClear]

theorem execLossOfSignal_kept (port : Port) (s : State) : (Out.settle (execLossOfSignal port s) s).kept = s.kept := by
  simp [execLossOfSignal]

theorem execLaneIntervalEnd_kept (port : Port) (dataBlocks invalid : Nat) (coef : RxCoef) (s : State) :
    (Out.settle (execLaneIntervalEnd port dataBlocks invalid coef s) s).kept = s.kept := by
  simp [execLaneIntervalEnd]

theorem execTxQuietEntry_kept (port : Port) (s : State) : (Out.settle (execTxQuietEntry port s) s).kept = s.kept := by
  simp [execTxQuietEntry]

theorem execRxQuietEntry_kept (port : Port) (s : State) : (Out.settle (execRxQuietEntry port s) s).kept = s.kept := by
  simp [execRxQuietEntry]

theorem execWakePatternEnd_kept (port : Port) (s : State) : (Out.settle (execWakePatternEnd port s) s).kept = s.kept := by
  simp [execWakePatternEnd]

theorem execWakeIdleEnd_kept (port : Port) (s : State) : (Out.settle (execWakeIdleEnd port s) s).kept = s.kept := by
  simp [execWakeIdleEnd]

theorem execWakeDetect_kept (port : Port) (s : State) : (Out.settle (execWakeDetect port s) s).kept = s.kept := by
  simp [execWakeDetect]

theorem execWakeTimeout_kept (port : Port) (s : State) : (Out.settle (execWakeTimeout port s) s).kept = s.kept := by
  simp [execWakeTimeout]

theorem execTxTapStep_kept (port : Port) (s : State) : (Out.settle (execTxTapStep port s) s).kept = s.kept := by
  simp [execTxTapStep]

theorem execPrbsCheckerLock_kept (port : Port) (s : State) : (Out.settle (execPrbsCheckerLock port s) s).kept = s.kept := by
  simp [execPrbsCheckerLock]

theorem execPrbsCheckerLoss_kept (port : Port) (bits errors : Nat) (s : State) :
    (Out.settle (execPrbsCheckerLoss port bits errors s) s).kept = s.kept := by
  simp [execPrbsCheckerLoss]

theorem execErrorInjection_kept (port : Port) (s : State) : (Out.settle (execErrorInjection port s) s).kept = s.kept := by
  unfold execErrorInjection
  rw [settle_next]
  split <;> simp

/-! Rows of links, frames and the fabric. -/

theorem execBeaconRx_kept (port : Port) (f : Frame) (s : State) : (Out.settle (execBeaconRx port f s) s).kept = s.kept := by
  have k := acceptFrame_kept port f s
  refine guard_kept ?_
  split <;> rename_i h <;> rw [h] at k
  · exact k
  · simpa using k

theorem execBeaconTx_kept (s : State) : (Out.settle (execBeaconTx s) s).kept = s.kept := by
  simp [execBeaconTx, kept_words]

theorem execMemberTimeout_kept (hub : BitVec 10) (s : State) : (Out.settle (execMemberTimeout hub s) s).kept = s.kept := by
  unfold execMemberTimeout
  rw [settle_next]
  split <;> simp [kept_words]

theorem execElectionTick_kept (s : State) : (Out.settle (execElectionTick s) s).kept = s.kept := by
  simp [execElectionTick]

theorem execJoinSettle_kept (s : State) : (Out.settle (execJoinSettle s) s).kept = s.kept := by
  simp [execJoinSettle, kept_words]

theorem execFrameForward_kept (port : Port) (f : Frame) (s : State) :
    (Out.settle (execFrameForward port f s) s).kept = s.kept := by
  have k := acceptFrame_kept port f s
  refine guard_kept ?_
  split <;> rename_i h <;> rw [h] at k
  · simpa using k
  · rw [accepted_taken] at k
    simp only []
    (repeat' split) <;> simp [k]

theorem execPortFrameStart_kept (port : Port) (s : State) : (Out.settle (execPortFrameStart port s) s).kept = s.kept := by
  unfold execPortFrameStart
  rw [settle_next]
  split <;> simp

theorem execSpillDrain_kept (port : Port) (replay : Bool) (s : State) :
    (Out.settle (execSpillDrain port replay s) s).kept = s.kept := by
  unfold execSpillDrain
  rw [settle_next]
  split <;> simp

theorem execFrameAgeDiscard_kept (port : Port) (cls : Fin 6) (s : State) :
    (Out.settle (execFrameAgeDiscard port cls s) s).kept = s.kept := by
  unfold execFrameAgeDiscard
  simp only [settle_next]
  (repeat' split) <;> simp

theorem execAckWaitExpiry_kept (port : Port) (cls : Fin 6) (s : State) :
    (Out.settle (execAckWaitExpiry port cls s) s).kept = s.kept := by
  unfold execAckWaitExpiry
  rw [settle_next]
  split <;> simp

theorem execLinkCtlRx_kept (port : Port) (block : BitVec 56) (s : State) :
    (Out.settle (execLinkCtlRx port block s) s).kept = s.kept := by
  unfold execLinkCtlRx
  rw [settle_next]
  split <;> simp

/-- A chunk of a configuration image joins the words that are staged, or the image is complete and leaves staging. -/
theorem imageChunk_good {old : List (Nat × Word)} {s : State} (h : Rising s.kept.img → Rising old) (complete : Bool)
    (k : Nat) (ws : List Word) (tk : Option Nat) (next : Option (List Word × Nat)) :
    s.kept.Good (if complete then s.modFab fun f => { f with staged := none, next := next }
      else s.modFab fun f => { f with staged := some { words := putAll k ws old, applyTk := tk } }).kept := by
  split
  · exact good_img fun _ => rising_nil
  · exact good_img fun hi => putAll_rising _ _ _ (h hi)

theorem execConfigImgRx_good (offset : Nat) (words : List Word) (applyTk : Word64) (s : State) :
    s.kept.Good (Out.settle (execConfigImgRx offset words applyTk s) s).kept := by
  refine guard_good (imageChunk_good ?_ _ _ _ _ _)
  intro h
  split
  · rename_i c hc
    have e : c.words = s.kept.img := by rw [← kept_words, hc]; rfl
    split
    · exact e ▸ h
    · exact rising_nil
  · exact rising_nil

theorem execFabConfigApply_good (s : State) : s.kept.Good (Out.settle (execFabConfigApply s) s).kept := by
  unfold execFabConfigApply
  rw [settle_next]
  split
  · rw [judgeMember_kept, State.modFab_kept, atTk_kept]
    exact good_img fun _ => rising_nil
  split
  · rw [judgeMember_kept, State.modFab_kept, atTk_kept]
    exact good_img fun _ => rising_nil
  · exact Kept.Good.refl _

theorem execUdpDatagramRx_kept (port : Fin 8) (d : Datagram) (s : State) :
    (Out.settle (execUdpDatagramRx port d s) s).kept = s.kept := by
  unfold execUdpDatagramRx
  simp only [settle_guard]
  (repeat' split) <;> simp

theorem execArpRx_kept (port : Fin 8) (a : Arp) (s : State) : (Out.settle (execArpRx port a s) s).kept = s.kept := by
  simp [execArpRx]

theorem execArpRefresh_kept (s : State) : (Out.settle (execArpRefresh s) s).kept = s.kept := by
  simp [execArpRefresh]

theorem execIcmpEchoRx_kept (port : Fin 8) (srcIp dstIp : Word) (ident seq : BitVec 16) (data : List Byte) (s : State) :
    (Out.settle (execIcmpEchoRx port srcIp dstIp ident seq data s) s).kept = s.kept := by
  simp [execIcmpEchoRx]

/-! Rows of the quadrature channels. -/

theorem execQuadWindowEnd_kept (slot : Fin 24) (lc : Nat) (s : State) :
    (Out.settle (execQuadWindowEnd slot lc s) s).kept = s.kept := by
  simp [execQuadWindowEnd]

theorem execQuadAdjustInterval_kept (slot : Fin 24) (s : State) :
    (Out.settle (execQuadAdjustInterval slot s) s).kept = s.kept := by
  simp [execQuadAdjustInterval]

/-! Rows of projections and accumulators. -/

theorem execAccWindowEnd_kept (kind : AccKind) (idx : Chan) (s : State) :
    (Out.settle (execAccWindowEnd kind idx s) s).kept = s.kept := by
  simp [execAccWindowEnd]

theorem execRawAccWindowEnd_kept (ch : Chan) (s : State) : (Out.settle (execRawAccWindowEnd ch s) s).kept = s.kept := by
  simp [execRawAccWindowEnd]

theorem execPrjCompute_kept (prj : Fin 64) (s : State) : (Out.settle (execPrjCompute prj s) s).kept = s.kept := by
  simp [execPrjCompute]

theorem execPrjEnableEffect_kept (s : State) : (Out.settle (execPrjEnableEffect s) s).kept = s.kept := by
  unfold execPrjEnableEffect
  rw [settle_next]
  split <;> simp

theorem execFeedReqRx_kept (src : BitVec 10) (words : List Word) (s : State) :
    (Out.settle (execFeedReqRx src words s) s).kept = s.kept := by
  simp [execFeedReqRx]

theorem execFeedRx_kept (src : BitVec 10) (words : List Word) (s : State) :
    (Out.settle (execFeedRx src words s) s).kept = s.kept := by
  simp [execFeedRx]

/-! Rows of conversion and calibration. -/

theorem execInjectionResult_kept (ch : Chan) (input : BurstInput) (s : State) :
    (Out.settle (execInjectionResult ch input s) s).kept = s.kept := by
  unfold execInjectionResult
  rw [settle_next]
  split <;> simp

theorem execCalPendingFrameEnd_kept (ch : Chan) (s : State) : (Out.settle (execCalPendingFrameEnd ch s) s).kept = s.kept := by
  simp [execCalPendingFrameEnd]

theorem execCalPointDone_kept (ch : Chan) (s : State) : (Out.settle (execCalPointDone ch s) s).kept = s.kept := by
  unfold execCalPointDone
  rw [settle_next]
  split <;> simp

theorem execCalTimeout_kept (ch : Chan) (s : State) : (Out.settle (execCalTimeout ch s) s).kept = s.kept := by
  simp [execCalTimeout]

theorem execCalAdjustInterval_kept (ch : Chan) (s : State) : (Out.settle (execCalAdjustInterval ch s) s).kept = s.kept := by
  simp [execCalAdjustInterval]

theorem execRawResult_kept (ch : Chan) (volts sense : List Int) (s : State) :
    (Out.settle (execRawResult ch volts sense s) s).kept = s.kept := by
  simp [execRawResult]

/-! Rows of the filters. -/

theorem execFirTickGroup_kept (sett : SettId) (beyond : Byte) (s : State) :
    (Out.settle (execFirTickGroup sett beyond s) s).kept = s.kept := by
  unfold execFirTickGroup
  rw [settle_next]
  split <;> simp

theorem execBearRetimeRelease_kept (sett : SettId) (s : State) : (Out.settle (execBearRetimeRelease sett s) s).kept = s.kept := by
  unfold execBearRetimeRelease
  rw [settle_next]
  split <;> simp

theorem execFltStartEffect_kept (sett : SettId) (s : State) : (Out.settle (execFltStartEffect sett s) s).kept = s.kept := by
  unfold execFltStartEffect
  rw [settle_next]
  split <;> simp

theorem execFltStopEffect_kept (sett : SettId) (s : State) : (Out.settle (execFltStopEffect sett s) s).kept = s.kept := by
  unfold execFltStopEffect
  rw [settle_next]
  split <;> simp

/-! Rows of the sample plan. -/

theorem execExcOn_kept (idx : Fin 8192) (s : State) : (Out.settle (execExcOn idx s) s).kept = s.kept :=
  stepEntry_kept _ _ _ _ fun _ t => forEach_kept _ _ excOnSett_kept t

theorem execExcOff_kept (idx : Fin 8192) (s : State) : (Out.settle (execExcOff idx s) s).kept = s.kept :=
  stepEntry_kept _ _ _ _ fun _ t => forEach_kept _ _ excOffSett_kept t

theorem execBurst_kept (idx : Fin 8192) (s : State) : (Out.settle (execBurst idx s) s).kept = s.kept :=
  stepEntry_kept _ _ _ _ fun e t => forEach_kept _ _ (burstSett_kept (eCode e)) t

theorem execBurstComplete_kept (sett : SettId) (inputs : Vector BurstInput 8) (s : State) :
    (Out.settle (execBurstComplete sett inputs s) s).kept = s.kept := by
  unfold execBurstComplete
  rw [settle_next]
  split <;> simp

theorem execLatch_kept (idx : Fin 8192) (s : State) : (Out.settle (execLatch idx s) s).kept = s.kept :=
  stepEntry_kept _ _ _ _ fun _ t => forEach_kept _ _ latchChan_kept t

theorem execRange_kept (idx : Fin 8192) (s : State) : (Out.settle (execRange idx s) s).kept = s.kept :=
  stepEntry_kept _ _ _ _ fun _ t => by
    split
    · exact forEach_kept _ _ (rangeChan_kept _) t
    · rfl

theorem execRangeBlankingEnd_kept (ch : Chan) (s : State) : (Out.settle (execRangeBlankingEnd ch s) s).kept = s.kept := by
  simp [execRangeBlankingEnd]

theorem execInjectSlot_kept (idx : Fin 8192) (s : State) : (Out.settle (execInjectSlot idx s) s).kept = s.kept :=
  stepEntry_kept _ _ _ _ fun _ t => forEach_kept _ _ (injectChan_kept _ _) t

theorem execCalStep_kept (idx : Fin 8192) (s : State) : (Out.settle (execCalStep idx s) s).kept = s.kept :=
  stepEntry_kept _ _ _ _ fun _ _ => by split <;> simp

theorem execPulseWin_kept (idx : Fin 8192) (s : State) : (Out.settle (execPulseWin idx s) s).kept = s.kept :=
  stepEntry_kept _ _ _ _ fun _ _ => by simp [kept_lists]

theorem execMark_kept (idx : Fin 8192) (s : State) : (Out.settle (execMark idx s) s).kept = s.kept :=
  stepEntry_kept _ _ _ _ fun _ _ => raise_kept _ _ _

theorem execPlanFrameBoundary_kept (frac : Byte) (s : State) : (Out.settle (execPlanFrameBoundary frac s) s).kept = s.kept := by
  simp [execPlanFrameBoundary, kept_lists]

theorem execPlanSwapEdge_kept (s : State) : (Out.settle (execPlanSwapEdge s) s).kept = s.kept := by
  unfold execPlanSwapEdge
  rw [settle_next]
  split <;> simp

theorem execSettRestart_kept (sett : SettId) (s : State) : (Out.settle (execSettRestart sett s) s).kept = s.kept := by
  unfold execSettRestart
  rw [settle_next]
  split <;> simp

theorem execTkAlignStop_kept (s : State) : (Out.settle (execTkAlignStop s) s).kept = s.kept := by
  unfold execTkAlignStop
  rw [settle_next]
  split <;> simp [kept_lists]

theorem execTkAlignLoad_kept (s : State) : (Out.settle (execTkAlignLoad s) s).kept = s.kept := by
  unfold execTkAlignLoad
  rw [settle_next]
  split <;> simp [kept_lists]

/-! Rows of supplies, resets and modes. -/

theorem execVddAonGood_kept (s : State) : (Out.settle (execVddAonGood s) s).kept = s.kept := by
  simp [execVddAonGood]

theorem execVddAonLoss_good (s : State) : s.kept.Good (Out.settle (execVddAonLoss s) s).kept :=
  guard_good ⟨rfl, rfl, fun _ => reset_rising⟩

theorem execRailGood_kept (rail : Fin 13) (s : State) : (Out.settle (execRailGood rail s) s).kept = s.kept := by
  simp [execRailGood]

theorem execIoBankLevel3v3_kept (bank : Fin 4) (s : State) : (Out.settle (execIoBankLevel3v3 bank s) s).kept = s.kept := by
  simp [execIoBankLevel3v3]

theorem execIoBankLevel1v8_kept (bank : Fin 4) (s : State) : (Out.settle (execIoBankLevel1v8 bank s) s).kept = s.kept := by
  simp [execIoBankLevel1v8]

theorem execRailFail_good (rail : Fin 13) (s : State) : s.kept.Good (Out.settle (execRailFail rail s) s).kept := by
  refine guard_good ((resetBy_good 1 (fun r => { r with rail := true }) s).of_eq_right ?_)
  simp only []
  split <;> simp

theorem execHotEnLow_good (s : State) : s.kept.Good (Out.settle (execHotEnLow s) s).kept :=
  guard_good (resetBy_good 2 (fun r => { r with hotEn := true }) s)

theorem execHotEnQualified_kept (s : State) : (Out.settle (execHotEnQualified s) s).kept = s.kept := by
  simp [execHotEnQualified]

theorem execResetNAssert_good (s : State) : s.kept.Good (Out.settle (execResetNAssert s) s).kept :=
  guard_good (resetBy_good 3 (fun r => { r with pin := true }) s)

theorem execResetNRelease_kept (holdAclk : Nat) (s : State) : (Out.settle (execResetNRelease holdAclk s) s).kept = s.kept := by
  simp [execResetNRelease]

theorem execStrapSample_kept (pairRole : Bool) (bootSrc : BitVec 2) (factoryTest : Bool) (s : State) :
    (Out.settle (execStrapSample pairRole bootSrc factoryTest s) s).kept = s.kept := by
  simp [execStrapSample]

theorem execInternalResetRelease_kept (pairOwnHigh : Bool) (s : State) :
    (Out.settle (execInternalResetRelease pairOwnHigh s) s).kept = s.kept := by
  simp [execInternalResetRelease]

theorem execSysResetSourceActive_good (s : State) : s.kept.Good (Out.settle (execSysResetSourceActive s) s).kept := by
  unfold execSysResetSourceActive
  rw [settle_next]
  split
  · exact Kept.Good.refl _
  · rename_i due _
    exact (pulseBy_good 4 (fun r => { r with cmd := true }) (atAon due s)).of_eq_left (atAon_kept _ _)

theorem execSysResetPulseEnd_kept (s : State) : (Out.settle (execSysResetPulseEnd s) s).kept = s.kept := by
  simp [execSysResetPulseEnd]

theorem execCoreClockLoss_good (s : State) : s.kept.Good (Out.settle (execCoreClockLoss s) s).kept :=
  guard_good (pulseBy_good 5 (fun r => { r with clock := true }) s)

theorem execClockResetPulseEnd_kept (s : State) : (Out.settle (execClockResetPulseEnd s) s).kept = s.kept := by
  simp [execClockResetPulseEnd]

theorem execSysrefLost_kept (s : State) : (Out.settle (execSysrefLost s) s).kept = s.kept := by
  simp [execSysrefLost]

theorem execPllLockLoss_kept (pll : Pll) (s : State) : (Out.settle (execPllLockLoss pll s) s).kept = s.kept := by
  simp [execPllLockLoss]

theorem execLanePllLockLoss_kept (group : Fin 2) (rate : Bool) (s : State) :
    (Out.settle (execLanePllLockLoss group rate s) s).kept = s.kept := by
  simp [execLanePllLockLoss, kept_factory, kept_pending, kept_banks, kept_owl, kept_prot, kept_img]

theorem execVcoreMiss_kept (measured : Byte) (s : State) : (Out.settle (execVcoreMiss measured s) s).kept = s.kept := by
  unfold execVcoreMiss
  rw [settle_next]
  split <;> simp

theorem execTempSample_kept (tj : BitVec 16) (s : State) : (Out.settle (execTempSample tj s) s).kept = s.kept := by
  simp [execTempSample]

/-! Rows of the safety functions. -/

theorem execOwlCycle_kept (si : BitVec 4) (sofb : Byte) (selfTestOk : Bool) (s : State) :
    (Out.settle (execOwlCycle si sofb selfTestOk s) s).kept = s.kept := by
  unfold execOwlCycle
  simp only [settle_guard]
  (repeat' split) <;> simp [kept_owl]

theorem execOwlWatchdogExpiry_kept (s : State) : (Out.settle (execOwlWatchdogExpiry s) s).kept = s.kept := by
  simp [execOwlWatchdogExpiry]

theorem execMonitorInvalidTrip_kept (mon : Fin 16) (s : State) : (Out.settle (execMonitorInvalidTrip mon s) s).kept = s.kept := by
  unfold execMonitorInvalidTrip
  rw [settle_next]
  split <;> simp

theorem execMonitorPlausTrip_kept (mon : Fin 16) (s : State) : (Out.settle (execMonitorPlausTrip mon s) s).kept = s.kept := by
  unfold execMonitorPlausTrip
  rw [settle_next]
  split <;> simp

theorem execSiFilterChange_kept (si : Fin 4) (s : State) : (Out.settle (execSiFilterChange si s) s).kept = s.kept := by
  unfold execSiFilterChange
  simp only [settle_next]
  (repeat' split) <;> simp

theorem execSiDisc_kept (pair : Fin 2) (s : State) : (Out.settle (execSiDisc pair s) s).kept = s.kept := by
  unfold execSiDisc
  simp only [settle_next]
  (repeat' split) <;> simp [kept_owl]

theorem execSoReadbackFailure_kept (so : Fin 8) (s : State) : (Out.settle (execSoReadbackFailure so s) s).kept = s.kept := by
  simp [execSoReadbackFailure, kept_owl]

theorem execOffPulseDue_kept (so : Fin 8) (s : State) : (Out.settle (execOffPulseDue so s) s).kept = s.kept := by
  simp [execOffPulseDue]

theorem execOffPulseStart_kept (so : Fin 8) (s : State) : (Out.settle (execOffPulseStart so s) s).kept = s.kept := by
  simp [execOffPulseStart]

theorem execOffPulseEnd_kept (so : Fin 8) (tFall tRise : Byte) (s : State) :
    (Out.settle (execOffPulseEnd so tFall tRise s) s).kept = s.kept := by
  unfold execOffPulseEnd
  simp only [settle_next]
  (repeat' split) <;> simp

theorem execSafetyDataTx_kept (conn : Fin 8) (s : State) : (Out.settle (execSafetyDataTx conn s) s).kept = s.kept := by
  unfold execSafetyDataTx
  rw [settle_next]
  split <;> simp

theorem execSafetyDataExtraTx_kept (conn : Fin 8) (s : State) : (Out.settle (execSafetyDataExtraTx conn s) s).kept = s.kept := by
  unfold execSafetyDataExtraTx
  rw [settle_next]
  split <;> simp

theorem execSafetyDataRx_kept (w0 w1 w2 w3 : Word) (s : State) :
    (Out.settle (execSafetyDataRx w0 w1 w2 w3 s) s).kept = s.kept := by
  unfold execSafetyDataRx
  simp only [settle_next]
  (repeat' split) <;> simp

theorem execSafetyConnLoss_kept (conn : Fin 8) (s : State) : (Out.settle (execSafetyConnLoss conn s) s).kept = s.kept := by
  unfold execSafetyConnLoss
  rw [settle_next]
  split <;> simp

/-! Rows of two-party protection. -/

theorem execProposalExpiry_kept (proposal : Fin 8) (s : State) :
    (Out.settle (execProposalExpiry proposal s) s).kept = s.kept := by
  unfold execProposalExpiry
  rw [settle_next]
  split <;> simp

theorem execLockoutEnd_kept (slot : Fin 8) (s : State) : (Out.settle (execLockoutEnd slot s) s).kept = s.kept := by
  unfold execLockoutEnd
  rw [settle_next]
  split <;> simp

theorem execDebugAccessEnd_kept (s : State) : (Out.settle (execDebugAccessEnd s) s).kept = s.kept := by
  unfold execDebugAccessEnd
  rw [settle_next]
  split <;> simp [kept_prot]

/-! Rows of the firmware switch. -/

theorem execFirmwareSwitch_kept (s : State) : (Out.settle (execFirmwareSwitch s) s).kept = s.kept := by
  simp [execFirmwareSwitch, kept_prot]

/-! Rows of edge timing. -/

theorem execTdcCalDone_kept (input : Fin 16) (hits : List (List Nat)) (s : State) :
    (Out.settle (execTdcCalDone input hits s) s).kept = s.kept := by
  unfold execTdcCalDone
  rw [settle_next]
  split <;> simp

theorem execTdcTrackUpdate_kept (id : Fin 66) (hits : List Nat) (lastHit : Nat) (s : State) :
    (Out.settle (execTdcTrackUpdate id hits lastHit s) s).kept = s.kept := by
  unfold execTdcTrackUpdate
  simp only [settle_guard]
  (repeat' split) <;> simp

theorem execTrackStarved_kept (input : Fin 16) (s : State) : (Out.settle (execTrackStarved input s) s).kept = s.kept := by
  unfold execTrackStarved
  rw [settle_next]
  split <;> simp

theorem execEdgeInput_kept (input : Fin 16) (rising : Bool) (stamp : Nat) (s : State) :
    (Out.settle (execEdgeInput input rising stamp s) s).kept = s.kept := by
  simp [execEdgeInput]

theorem execElecChangeEnd_kept (input : Fin 16) (s : State) : (Out.settle (execElecChangeEnd input s) s).kept = s.kept := by
  unfold execElecChangeEnd
  rw [settle_next]
  split <;> simp

theorem execMuWindowClose_kept (mu : Fin 8) (s : State) : (Out.settle (execMuWindowClose mu s) s).kept = s.kept := by
  unfold execMuWindowClose
  rw [settle_next]
  split <;> simp

theorem execMuHeldStopExpiry_kept (mu : Fin 8) (s : State) : (Out.settle (execMuHeldStopExpiry mu s) s).kept = s.kept := by
  unfold execMuHeldStopExpiry
  rw [settle_next]
  split <;> simp

theorem execEdgeLossEntry_kept (input : Fin 16) (s : State) : (Out.settle (execEdgeLossEntry input s) s).kept = s.kept := by
  simp [execEdgeLossEntry]

/-! Rows of health and retirement. -/

theorem execMarginSample_kept (margin : Fin 24) (value : Int) (s : State) :
    (Out.settle (execMarginSample margin value s) s).kept = s.kept := by
  unfold execMarginSample
  simp only [settle_guard]
  (repeat' split) <;> simp

theorem execAgeingEyeScan_kept (port : Port) (scan : EyeScan) (s : State) :
    (Out.settle (execAgeingEyeScan port scan s) s).kept = s.kept := by
  simp [execAgeingEyeScan]

theorem execMarginDailyFold_kept (s : State) : (Out.settle (execMarginDailyFold s) s).kept = s.kept := by
  simp [execMarginDailyFold]

theorem execBaselineEnd_kept (s : State) : (Out.settle (execBaselineEnd s) s).kept = s.kept := by
  simp [execBaselineEnd]

theorem execRefCompareDone_kept (den : DenId) (ppm : Int) (s : State) :
    (Out.settle (execRefCompareDone den ppm s) s).kept = s.kept := by
  unfold execRefCompareDone
  rw [settle_next]
  split <;> simp

theorem execChanRestoreEffect_kept (s : State) : (Out.settle (execChanRestoreEffect s) s).kept = s.kept := by
  unfold execChanRestoreEffect
  rw [settle_next]
  split <;> simp

/-! Rows of the block coder. -/

theorem execCoderResume_kept (sett : SettId) (s : State) : (Out.settle (execCoderResume sett s) s).kept = s.kept := by
  simp [execCoderResume]

/-! Rows of the Hoard. -/

theorem execTailTimeout_kept (stream : Fin 54) (s : State) : (Out.settle (execTailTimeout stream s) s).kept = s.kept := by
  simp [execTailTimeout]

theorem execSubSend_kept (sub : Fin 64) (stream : Fin 54) (readOk : Bool) (s : State) :
    (Out.settle (execSubSend sub stream readOk s) s).kept = s.kept := by
  unfold execSubSend
  simp only [settle_next]
  (repeat' split) <;> simp

theorem execAckTimeoutResend_kept (sub : Fin 64) (stream : Fin 54) (s : State) :
    (Out.settle (execAckTimeoutResend sub stream s) s).kept = s.kept := by
  unfold execAckTimeoutResend
  simp only [settle_next]
  (repeat' split) <;> simp

theorem execSpillAgeExpiry_kept (port : Port) (replay : Bool) (s : State) :
    (Out.settle (execSpillAgeExpiry port replay s) s).kept = s.kept := by
  unfold execSpillAgeExpiry
  rw [settle_next]
  split <;> simp

/-! Rows of the start-up. -/

theorem execDomainsOn_kept (s : State) : (Out.settle (execDomainsOn s) s).kept = s.kept := by
  simp [execDomainsOn]

theorem execPllLock_kept (s : State) : (Out.settle (execPllLock s) s).kept = s.kept := by
  simp [execPllLock]

theorem execSramSelfTestDone_kept (firmwareMemory pass : Bool) (s : State) :
    (Out.settle (execSramSelfTestDone firmwareMemory pass s) s).kept = s.kept := by
  simp [execSramSelfTestDone]

theorem execOwlSelfTestDone_kept (pass : Bool) (s : State) : (Out.settle (execOwlSelfTestDone pass s) s).kept = s.kept := by
  simp [execOwlSelfTestDone]

theorem execDramTrainingDone_kept (pass : Bool) (s : State) : (Out.settle (execDramTrainingDone pass s) s).kept = s.kept := by
  simp [execDramTrainingDone]

theorem execDenReferenceSettled_kept (den : DenId) (s : State) :
    (Out.settle (execDenReferenceSettled den s) s).kept = s.kept := by
  simp [execDenReferenceSettled]

theorem execDenReferenceTimeout_kept (den : DenId) (s : State) :
    (Out.settle (execDenReferenceTimeout den s) s).kept = s.kept := by
  simp [execDenReferenceTimeout]

theorem execInterpolatorCalDone_kept (hits : List (List Nat)) (s : State) :
    (Out.settle (execInterpolatorCalDone hits s) s).kept = s.kept := by
  simp [execInterpolatorCalDone]

theorem execBootFlashReadDone_kept (image : List Byte) (s : State) :
    (Out.settle (execBootFlashReadDone image s) s).kept = s.kept := by
  simp [execBootFlashReadDone, kept_prot]

theorem execBootFlashNoResponse_kept (s : State) : (Out.settle (execBootFlashNoResponse s) s).kept = s.kept := by
  simp [execBootFlashNoResponse]

theorem execFirmwareStart_good (s : State) : s.kept.Good (Out.settle (execFirmwareStart s) s).kept := by
  refine guard_good ?_
  simp only [oweCheckpointFail_kept, firstNotices_kept]
  split <;> exact good_prot_nil s.kept

theorem execBootConfigReadDone_good (copyA copyB : List Byte) (s : State) :
    s.kept.Good (Out.settle (execBootConfigReadDone copyA copyB s) s).kept := by
  unfold execBootConfigReadDone
  simp only [settle_next]
  split
  · exact takeoverPlan_good _ _ s
  split
  · split
    · exact loadConfig_good _ _ s
    · exact resumeClaim_good (s.modBoot _)
  · exact Kept.Good.refl _

theorem execStartupPlanActivate_kept (s : State) : (Out.settle (execStartupPlanActivate s) s).kept = s.kept := by
  unfold execStartupPlanActivate
  rw [settle_next]
  split <;> simp

theorem execFrontEndEnable_kept (s : State) : (Out.settle (execFrontEndEnable s) s).kept = s.kept := by
  simp [execFrontEndEnable]

theorem execStartupStepTimeout_kept (what : StepFault) (s : State) :
    (Out.settle (execStartupStepTimeout what s) s).kept = s.kept := by
  simp [execStartupStepTimeout]

theorem execControlProcessorWatchdogExpiry_kept (s : State) :
    (Out.settle (execControlProcessorWatchdogExpiry s) s).kept = s.kept := by
  simp [execControlProcessorWatchdogExpiry]

theorem execJtagInstruction_kept (op : JtagOp) (pins : List Bool) (s : State) :
    (Out.settle (execJtagInstruction op pins s) s).kept = s.kept := by
  unfold execJtagInstruction
  split
  · rfl
  cases op <;> simp only [settle_next, jtagDrive_kept, jtagCapture_kept]
  split <;> rfl

/-! Rows of the pair. -/

theorem execTkAlignResume_kept (s : State) : (Out.settle (execTkAlignResume s) s).kept = s.kept := by
  unfold execTkAlignResume
  rw [settle_next]
  split <;> simp [kept_lists]

theorem execWarmUpComplete_kept (s : State) : (Out.settle (execWarmUpComplete s) s).kept = s.kept := by
  simp [execWarmUpComplete]

theorem execHeartbeatTx_kept (s : State) : (Out.settle (execHeartbeatTx s) s).kept = s.kept := by
  simp [execHeartbeatTx]

theorem execHeartbeatRx_kept (frame : Word) (s : State) : (Out.settle (execHeartbeatRx frame s) s).kept = s.kept := by
  simp [execHeartbeatRx]

theorem execHeartbeatLoss_kept (s : State) : (Out.settle (execHeartbeatLoss s) s).kept = s.kept := by
  simp [execHeartbeatLoss]

theorem execPairOwnLow_good (s : State) : s.kept.Good (Out.settle (execPairOwnLow s) s).kept := by
  refine guard_good ?_
  simp only []
  split
  · exact good_of_kept (startTakeover_kept _)
  · exact resumeClaim_good (s.modPair _)

theorem execPartnerOverdue_kept (s : State) : (Out.settle (execPartnerOverdue s) s).kept = s.kept := by
  simp [execPartnerOverdue]

theorem execStandbySyncStart_kept (s : State) : (Out.settle (execStandbySyncStart s) s).kept = s.kept := by
  simp [execStandbySyncStart]

theorem execStandbySyncDone_kept (ownerFwVersion : BitVec 24) (s : State) :
    (Out.settle (execStandbySyncDone ownerFwVersion s) s).kept = s.kept := by
  unfold execStandbySyncDone
  simp only [settle_next]
  (repeat' split) <;> simp

theorem execStandbyTqGiveUp_kept (s : State) : (Out.settle (execStandbyTqGiveUp s) s).kept = s.kept := by
  simp [execStandbyTqGiveUp]

theorem execColdNextEnd_good (s : State) : s.kept.Good (Out.settle (execColdNextEnd s) s).kept := by
  unfold execColdNextEnd
  rw [settle_next]
  split
  · rename_i t _
    exact (enterHibernate_good (atAon (t + 1000000) s)).of_eq_left (atAon_kept _ _)
  · exact Kept.Good.refl _

theorem execCheckpointFullDue_good (s : State) : s.kept.Good (Out.settle (execCheckpointFullDue s) s).kept :=
  guard_good ((askWrite_good true _).of_eq_left (by simp))

theorem execCheckpointDeltaDue_good (s : State) : s.kept.Good (Out.settle (execCheckpointDeltaDue s) s).kept :=
  guard_good ((askWrite_good false _).of_eq_left (by simp))

theorem execCheckpointWriteDone_good (ok : Bool) (s : State) :
    s.kept.Good (Out.settle (execCheckpointWriteDone ok s) s).kept := by
  unfold execCheckpointWriteDone
  rw [settle_next]
  split
  · exact Kept.Good.refl _
  simp only []
  split
  · exact (nextWrite_good _ _).of_eq_left (by simp)
  · refine (nextWrite_good _ _).of_eq_left ?_
    split <;> simp

theorem execCheckpointStale_kept (s : State) : (Out.settle (execCheckpointStale s) s).kept = s.kept := by
  simp [execCheckpointStale]

theorem execTakeoverWake_kept (s : State) : (Out.settle (execTakeoverWake s) s).kept = s.kept := by
  simp [execTakeoverWake]

theorem execTakeoverClaim_good (s : State) : s.kept.Good (Out.settle (execTakeoverClaim s) s).kept := by
  refine guard_good ?_
  simp only []
  split
  · exact good_of_kept (by simp)
  split
  · exact good_of_kept (by simp)
  · exact (loadPlanSection_good _ _).of_eq_left (by simp)

theorem execTakeoverTime_kept (s : State) : (Out.settle (execTakeoverTime s) s).kept = s.kept := by
  simp [execTakeoverTime]

theorem execTimeWaitExpiry_kept (s : State) : (Out.settle (execTimeWaitExpiry s) s).kept = s.kept := by
  simp [execTimeWaitExpiry]

theorem execTakeoverFront_kept (s : State) : (Out.settle (execTakeoverFront s) s).kept = s.kept := by
  simp [execTakeoverFront, kept_owl]

theorem execTakeoverDeferred_kept (s : State) : (Out.settle (execTakeoverDeferred s) s).kept = s.kept := by
  simp [execTakeoverDeferred]

theorem execYieldDrainEnd_good (s : State) : s.kept.Good (Out.settle (execYieldDrainEnd s) s).kept := by
  refine guard_good ((askWrite_good true _).of_eq_left ?_)
  rw [State.modPair_kept]
  split <;> simp

theorem execYieldRelease_good (s : State) : s.kept.Good (Out.settle (execYieldRelease s) s).kept :=
  guard_good ((enterHibernate_good (atLc (s.pair.yieldAt + 1000000) s)).of_eq_left (atLc_kept _ _))

/-! Every command, and the step. -/

/-- Whatever a command answers, it has left the factory data and the queue, and kept the sparse memories canonical. -/
theorem exec_good (i : Instr) (s : State) : s.kept.Good (Out.settle (exec i s) s).kept :=
  match i with
  | .vddAonGood => good_of_kept (execVddAonGood_kept s)
  | .vddAonLoss => execVddAonLoss_good s
  | .railGood rail => good_of_kept (execRailGood_kept rail s)
  | .railFail rail => execRailFail_good rail s
  | .ioBankLevel3v3 bank => good_of_kept (execIoBankLevel3v3_kept bank s)
  | .ioBankLevel1v8 bank => good_of_kept (execIoBankLevel1v8_kept bank s)
  | .hotEnLow => execHotEnLow_good s
  | .hotEnQualified => good_of_kept (execHotEnQualified_kept s)
  | .resetNAssert => execResetNAssert_good s
  | .resetNRelease holdAclk => good_of_kept (execResetNRelease_kept holdAclk s)
  | .strapSample pairRole bootSrc factoryTest => good_of_kept (execStrapSample_kept pairRole bootSrc factoryTest s)
  | .internalResetRelease pairOwnHigh => good_of_kept (execInternalResetRelease_kept pairOwnHigh s)
  | .sysResetSourceActive => execSysResetSourceActive_good s
  | .sysResetPulseEnd => good_of_kept (execSysResetPulseEnd_kept s)
  | .coreClockLoss => execCoreClockLoss_good s
  | .clockResetPulseEnd => good_of_kept (execClockResetPulseEnd_kept s)
  | .sysrefLost => good_of_kept (execSysrefLost_kept s)
  | .pllLockLoss pll => good_of_kept (execPllLockLoss_kept pll s)
  | .lanePllLockLoss group rate => good_of_kept (execLanePllLockLoss_kept group rate s)
  | .vcoreMiss measured => good_of_kept (execVcoreMiss_kept measured s)
  | .tempSample tj => good_of_kept (execTempSample_kept tj s)
  | .domainsOn => good_of_kept (execDomainsOn_kept s)
  | .pllLock => good_of_kept (execPllLock_kept s)
  | .startupStepTimeout what => good_of_kept (execStartupStepTimeout_kept what s)
  | .sramSelfTestDone firmwareMemory pass => good_of_kept (execSramSelfTestDone_kept firmwareMemory pass s)
  | .owlSelfTestDone pass => good_of_kept (execOwlSelfTestDone_kept pass s)
  | .dramTrainingDone pass => good_of_kept (execDramTrainingDone_kept pass s)
  | .denReferenceSettled den => good_of_kept (execDenReferenceSettled_kept den s)
  | .denReferenceTimeout den => good_of_kept (execDenReferenceTimeout_kept den s)
  | .interpolatorCalDone hits => good_of_kept (execInterpolatorCalDone_kept hits s)
  | .bootFlashReadDone image => good_of_kept (execBootFlashReadDone_kept image s)
  | .bootFlashNoResponse => good_of_kept (execBootFlashNoResponse_kept s)
  | .firmwareStart => execFirmwareStart_good s
  | .bootConfigReadDone copyA copyB => execBootConfigReadDone_good copyA copyB s
  | .startupPlanActivate => good_of_kept (execStartupPlanActivate_kept s)
  | .frontEndEnable => good_of_kept (execFrontEndEnable_kept s)
  | .warmUpComplete => good_of_kept (execWarmUpComplete_kept s)
  | .sysInfo p => serve_keeps sysInfoSpec sysInfoBody_kept p s
  | .sysModeSet p => serve_good sysModeSetSpec sysModeSetBody_good p s
  | .sysReset p => serve_keeps sysResetSpec sysResetBody_kept p s
  | .sysEventsRead p => serve_keeps sysEventsSpec sysEventsBody_kept p s
  | .sysConfigRead p => serve_keeps sysConfigSpec sysConfigBody_kept p s
  | .afeConfig p => serve_keeps afeConfigSpec afeConfigBody_kept p s
  | .afeRange p => serve_keeps afeRangeSpec afeRangeBody_kept p s
  | .excConfig p => serve_keeps excConfigSpec excConfigBody_kept p s
  | .afeDiag p => serve_keeps afeDiagSpec afeDiagBody_kept p s
  | .afeDiagTestDone ch rPair overloaded => good_of_kept (execAfeDiagTestDone_kept ch rPair overloaded s)
  | .convMode p => serve_keeps convModeSpec convModeBody_kept p s
  | .convInject p => serve_keeps convInjectSpec convInjectBody_kept p s
  | .calStart p => serve_keeps calStartSpec calStartBody_kept p s
  | .calPoint p => serve_keeps calPointSpec calPointBody_kept p s
  | .calPointDone ch => good_of_kept (execCalPointDone_kept ch s)
  | .calCommit p => serve_keeps calCommitSpec calCommitBody_kept p s
  | .calRead p => serve_keeps calReadSpec calReadBody_kept p s
  | .rawTap p => serve_keeps rawTapSpec rawTapBody_kept p s
  | .fltPreset p => serve_keeps fltPresetSpec fltPresetBody_kept p s
  | .fltCoefLoad p => serve_keeps coefLoadSpec coefLoadBody_kept p s
  | .fltStart p => serve_keeps fltStartSpec fltStartBody_kept p s
  | .fltStop p => serve_keeps fltStopSpec fltStopBody_kept p s
  | .fltGrowth p => serve_keeps growthSpec growthBody_kept p s
  | .fltStartEffect sett => good_of_kept (execFltStartEffect_kept sett s)
  | .fltStopEffect sett => good_of_kept (execFltStopEffect_kept sett s)
  | .planWrite p => serve_good planWriteSpec planWriteBody_good p s
  | .planValidate p => serve_keeps planValidateSpec planValidateBody_kept p s
  | .planSwap p => serve_keeps planSwapSpec planSwapBody_kept p s
  | .planRead p => serve_keeps planReadSpec planReadBody_kept p s
  | .planStatus p => serve_keeps planStatusSpec planStatusSpec_keeps p s
  | .planSwapEdge => good_of_kept (execPlanSwapEdge_kept s)
  | .planFrameBoundary frac => good_of_kept (execPlanFrameBoundary_kept frac s)
  | .excOn idx => good_of_kept (execExcOn_kept idx s)
  | .excOff idx => good_of_kept (execExcOff_kept idx s)
  | .burst idx => good_of_kept (execBurst_kept idx s)
  | .burstComplete sett inputs => good_of_kept (execBurstComplete_kept sett inputs s)
  | .latch idx => good_of_kept (execLatch_kept idx s)
  | .range idx => good_of_kept (execRange_kept idx s)
  | .rangeBlankingEnd ch => good_of_kept (execRangeBlankingEnd_kept ch s)
  | .injectSlot idx => good_of_kept (execInjectSlot_kept idx s)
  | .injectionResult ch input => good_of_kept (execInjectionResult_kept ch input s)
  | .calPendingFrameEnd ch => good_of_kept (execCalPendingFrameEnd_kept ch s)
  | .calStep idx => good_of_kept (execCalStep_kept idx s)
  | .refCompareDone den ppm => good_of_kept (execRefCompareDone_kept den ppm s)
  | .pulseWin idx => good_of_kept (execPulseWin_kept idx s)
  | .mark idx => good_of_kept (execMark_kept idx s)
  | .calAdjustInterval ch => good_of_kept (execCalAdjustInterval_kept ch s)
  | .calTimeout ch => good_of_kept (execCalTimeout_kept ch s)
  | .firTickGroup sett beyond => good_of_kept (execFirTickGroup_kept sett beyond s)
  | .bearRetimeRelease sett => good_of_kept (execBearRetimeRelease_kept sett s)
  | .modulatorInstability ch => good_of_kept (execModulatorInstability_kept ch s)
  | .modulatorRecoveryEnd ch => good_of_kept (execModulatorRecoveryEnd_kept ch s)
  | .commonModeFaultOnset ch detector => good_of_kept (execCommonModeFaultOnset_kept ch detector s)
  | .commonModeFaultClear ch detector => good_of_kept (execCommonModeFaultClear_kept ch detector s)
  | .ocTrip sett => good_of_kept (execOcTrip_kept sett s)
  | .regLost sett => good_of_kept (execRegLost_kept sett s)
  | .regLostClear sett => good_of_kept (execRegLostClear_kept sett s)
  | .contention sett => good_of_kept (execContention_kept sett s)
  | .contentionClear sett => good_of_kept (execContentionClear_kept sett s)
  | .denExcCurrentFault den => good_of_kept (execDenExcCurrentFault_kept den s)
  | .filterEngineError sett => good_of_kept (execFilterEngineError_kept sett s)
  | .settRestart sett => good_of_kept (execSettRestart_kept sett s)
  | .rawAccWindowEnd ch => good_of_kept (execRawAccWindowEnd_kept ch s)
  | .tkAlignStop => good_of_kept (execTkAlignStop_kept s)
  | .tkAlignLoad => good_of_kept (execTkAlignLoad_kept s)
  | .tkAlignResume => good_of_kept (execTkAlignResume_kept s)
  | .timeRead p => serve_keeps timeReadSpec timeReadSpec_keeps p s
  | .timeServoConfig p => serve_keeps timeServoSpec timeServoBody_kept p s
  | .timeRole p => serve_keeps timeRoleSpec timeRoleBody_kept p s
  | .timeStepPolicy p => serve_keeps timeStepPolicySpec timeStepPolicyBody_kept p s
  | .delayTapSet p => serve_keeps delayTapSpec delayTapBody_kept p s
  | .delayTapAdjust sett => good_of_kept (execDelayTapAdjust_kept sett s)
  | .syncInterval port => good_of_kept (execSyncInterval_kept port s)
  | .syncRx port t2 t3 => good_of_kept (execSyncRx_kept port t2 t3 s)
  | .syncFuRx port fu => good_of_kept (execSyncFuRx_kept port fu s)
  | .delayReqRx port t4 => good_of_kept (execDelayReqRx_kept port t4 s)
  | .delayRespRx port t4 => good_of_kept (execDelayRespRx_kept port t4 s)
  | .parentLoss => good_of_kept (execParentLoss_kept s)
  | .parentReselect port => good_of_kept (execParentReselect_kept port s)
  | .leaderServoUpdate => good_of_kept (execLeaderServoUpdate_kept s)
  | .holdoverExpiry => good_of_kept (execHoldoverExpiry_kept s)
  | .timeMapInterval => good_of_kept (execTimeMapInterval_kept s)
  | .ppsEdge stamp => good_of_kept (execPpsEdge_kept stamp s)
  | .ptpAnnounceRx a => good_of_kept (execPtpAnnounceRx_kept a s)
  | .ptpSyncRx port clockId seq stamp => good_of_kept (execPtpSyncRx_kept port clockId seq stamp s)
  | .ptpFollowUpRx port clockId seq origin => good_of_kept (execPtpFollowUpRx_kept port clockId seq origin s)
  | .ptpDelayRespRx port clockId seq sent receive => good_of_kept (execPtpDelayRespRx_kept port clockId seq sent receive s)
  | .sourceLost => good_of_kept (execSourceLost_kept s)
  | .tdcConfig p => serve_keeps tdcConfigSpec tdcConfigBody_kept p s
  | .tdcWindow p => serve_keeps tdcWindowSpec tdcWindowBody_kept p s
  | .tdcRead p => serve_keeps tdcReadSpec tdcReadBody_kept p s
  | .tdcCal p => serve_keeps tdcCalSpec tdcCalBody_kept p s
  | .tdcCalDone input hits => good_of_kept (execTdcCalDone_kept input hits s)
  | .edgeInput input rising stamp => good_of_kept (execEdgeInput_kept input rising stamp s)
  | .elecChangeEnd input => good_of_kept (execElecChangeEnd_kept input s)
  | .muWindowClose mu => good_of_kept (execMuWindowClose_kept mu s)
  | .muHeldStopExpiry mu => good_of_kept (execMuHeldStopExpiry_kept mu s)
  | .tdcTrackUpdate id codes inl => good_of_kept (execTdcTrackUpdate_kept id codes inl s)
  | .trackStarved input => good_of_kept (execTrackStarved_kept input s)
  | .edgeLossEntry input => good_of_kept (execEdgeLossEntry_kept input s)
  | .quadConfig p => serve_keeps quadConfigSpec quadConfigBody_kept p s
  | .quadStatus p => serve_keeps quadStatusSpec quadStatusBody_kept p s
  | .quadWindowEnd slot fit => good_of_kept (execQuadWindowEnd_kept slot fit s)
  | .quadAdjustInterval slot => good_of_kept (execQuadAdjustInterval_kept slot s)
  | .prjDefine p => serve_keeps prjDefineSpec prjDefineBody_kept p s
  | .prjEnable p => serve_keeps prjEnableSpec prjEnableBody_kept p s
  | .prjEnableEffect => good_of_kept (execPrjEnableEffect_kept s)
  | .accConfig p => serve_keeps accConfigSpec accConfigBody_kept p s
  | .minmaxRead p => serve_keeps minmaxReadSpec minmaxReadBody_kept p s
  | .prjCompute prj => good_of_kept (execPrjCompute_kept prj s)
  | .accWindowEnd kind idx => good_of_kept (execAccWindowEnd_kept kind idx s)
  | .feedReqRx src words => good_of_kept (execFeedReqRx_kept src words s)
  | .feedRx src words => good_of_kept (execFeedRx_kept src words s)
  | .subOpen p => serve_keeps subOpenSpec subOpenBody_kept p s
  | .subAck p => serve_keeps subAckSpec subAckBody_kept p s
  | .subClose p => serve_keeps subCloseSpec subCloseBody_kept p s
  | .markSet p => serve_keeps markSetSpec markSetBody_kept p s
  | .rewind p => serve_keeps rewindSpec rewindBody_kept p s
  | .hoardStatus p => serve_keeps hoardStatusSpec hoardStatusBody_kept p s
  | .queueConfig p => serve_keeps queueConfigSpec queueConfigBody_kept p s
  | .tailTimeout stream => good_of_kept (execTailTimeout_kept stream s)
  | .subSend sub stream readOk => good_of_kept (execSubSend_kept sub stream readOk s)
  | .ackTimeoutResend sub stream => good_of_kept (execAckTimeoutResend_kept sub stream s)
  | .spillDrain port replay => good_of_kept (execSpillDrain_kept port replay s)
  | .spillAgeExpiry port replay => good_of_kept (execSpillAgeExpiry_kept port replay s)
  | .coderConfig p => serve_keeps coderConfigSpec coderConfigBody_kept p s
  | .coderStatus p => serve_keeps coderStatusSpec coderStatusBody_kept p s
  | .decodeTest p => serve_keeps decodeTestSpec decodeTestBody_kept p s
  | .coderResume sett => good_of_kept (execCoderResume_kept sett s)
  | .laneConfig p => serve_keeps laneConfigSpec laneConfigBody_kept p s
  | .laneEq p => serve_keeps laneEqSpec laneEqBody_kept p s
  | .lanePrbs p => serve_keeps lanePrbsSpec lanePrbsBody_kept p s
  | .laneMargin p => serve_keeps laneMarginSpec laneMarginBody_kept p s
  | .laneMarginDone port scan => good_of_kept (execLaneMarginDone_kept port scan s)
  | .laneSleep p => serve_keeps laneSleepSpec laneSleepBody_kept p s
  | .lanePllLock group rate => good_of_kept (execLanePllLock_kept group rate s)
  | .laneAcquireDone port coef => good_of_kept (execLaneAcquireDone_kept port coef s)
  | .blockLock port => good_of_kept (execBlockLock_kept port s)
  | .blockLockLoss port invalid => good_of_kept (execBlockLockLoss_kept port invalid s)
  | .lockingTimeout port => good_of_kept (execLockingTimeout_kept port s)
  | .hiBer port invalid => good_of_kept (execHiBer_kept port invalid s)
  | .hiBerClear port => good_of_kept (execHiBerClear_kept port s)
  | .lossOfSignal port => good_of_kept (execLossOfSignal_kept port s)
  | .laneIntervalEnd port dataBlocks invalid coef => good_of_kept (execLaneIntervalEnd_kept port dataBlocks invalid coef s)
  | .txQuietEntry port => good_of_kept (execTxQuietEntry_kept port s)
  | .rxQuietEntry port => good_of_kept (execRxQuietEntry_kept port s)
  | .wakePatternEnd port => good_of_kept (execWakePatternEnd_kept port s)
  | .wakeIdleEnd port => good_of_kept (execWakeIdleEnd_kept port s)
  | .wakeDetect port => good_of_kept (execWakeDetect_kept port s)
  | .wakeTimeout port => good_of_kept (execWakeTimeout_kept port s)
  | .txTapStep port => good_of_kept (execTxTapStep_kept port s)
  | .prbsCheckerLock port => good_of_kept (execPrbsCheckerLock_kept port s)
  | .prbsCheckerLoss port bits errors => good_of_kept (execPrbsCheckerLoss_kept port bits errors s)
  | .errorInjection port => good_of_kept (execErrorInjection_kept port s)
  | .fabJoin p => serve_keeps fabJoinSpec fabJoinBody_kept p s
  | .fabRoute p => serve_keeps fabRouteSpec fabRouteBody_kept p s
  | .fabStatus p => serve_keeps fabStatusSpec fabStatusBody_kept p s
  | .fabConfigPublish p => serve_good fabPublishSpec fabPublishBody_good p s
  | .ethConfig p => serve_keeps ethConfigSpec ethConfigBody_kept p s
  | .frameForward port f => good_of_kept (execFrameForward_kept port f s)
  | .linkCtlRx port block => good_of_kept (execLinkCtlRx_kept port block s)
  | .ackWaitExpiry port cls => good_of_kept (execAckWaitExpiry_kept port cls s)
  | .frameAgeDiscard port cls => good_of_kept (execFrameAgeDiscard_kept port cls s)
  | .portFrameStart port => good_of_kept (execPortFrameStart_kept port s)
  | .beaconTx => good_of_kept (execBeaconTx_kept s)
  | .beaconRx port f => good_of_kept (execBeaconRx_kept port f s)
  | .memberTimeout hub => good_of_kept (execMemberTimeout_kept hub s)
  | .electionTick => good_of_kept (execElectionTick_kept s)
  | .joinSettle => good_of_kept (execJoinSettle_kept s)
  | .configImgRx offset words applyTk => execConfigImgRx_good offset words applyTk s
  | .fabConfigApply => execFabConfigApply_good s
  | .replyRx session reqId bytes => good_of_kept (execReplyRx_kept session reqId bytes s)
  | .forwardTimeout session reqId => good_of_kept (execForwardTimeout_kept session reqId s)
  | .udpDatagramRx port d => good_of_kept (execUdpDatagramRx_kept port d s)
  | .arpRx port a => good_of_kept (execArpRx_kept port a s)
  | .arpRefresh => good_of_kept (execArpRefresh_kept s)
  | .icmpEchoRx port srcIp dstIp ident seq data => good_of_kept (execIcmpEchoRx_kept port srcIp dstIp ident seq data s)
  | .safeParamWrite p => serve_good safeParamSpec safeParamBody_good p s
  | .safeCommission p => serve_keeps safeCommissionSpec safeCommissionBody_kept p s
  | .safeStatus p => serve_keeps safeStatusSpec safeStatusBody_kept p s
  | .safePulseConfig p => serve_keeps safePulseSpec safePulseBody_kept p s
  | .safeResetReq p => serve_keeps safeResetSpec safeResetBody_kept p s
  | .owlCycle si sofb selfTestOk => good_of_kept (execOwlCycle_kept si sofb selfTestOk s)
  | .monitorInvalidTrip mon => good_of_kept (execMonitorInvalidTrip_kept mon s)
  | .monitorPlausTrip mon => good_of_kept (execMonitorPlausTrip_kept mon s)
  | .siFilterChange si => good_of_kept (execSiFilterChange_kept si s)
  | .siDisc pair => good_of_kept (execSiDisc_kept pair s)
  | .soReadbackFailure so => good_of_kept (execSoReadbackFailure_kept so s)
  | .offPulseDue so => good_of_kept (execOffPulseDue_kept so s)
  | .offPulseStart so => good_of_kept (execOffPulseStart_kept so s)
  | .offPulseEnd so tFall tRise => good_of_kept (execOffPulseEnd_kept so tFall tRise s)
  | .owlWatchdogExpiry => good_of_kept (execOwlWatchdogExpiry_kept s)
  | .safetyDataTx conn => good_of_kept (execSafetyDataTx_kept conn s)
  | .safetyDataExtraTx conn => good_of_kept (execSafetyDataExtraTx_kept conn s)
  | .safetyDataRx w0 w1 w2 w3 => good_of_kept (execSafetyDataRx_kept w0 w1 w2 w3 s)
  | .safetyConnLoss conn => good_of_kept (execSafetyConnLoss_kept conn s)
  | .protPropose p => serve_keeps protProposeSpec protProposeBody_kept p s
  | .protConfirm p => serve_keeps protConfirmSpec protConfirmBody_kept p s
  | .protAbort p => serve_keeps protAbortSpec protAbortBody_kept p s
  | .keyInstall p => serve_keeps keyInstallSpec keyInstallBody_kept p s
  | .fwStage p => serve_good fwStageSpec fwStageBody_good p s
  | .fwActivate p => serve_keeps fwActivateSpec fwActivateBody_kept p s
  | .firmwareSwitch => good_of_kept (execFirmwareSwitch_kept s)
  | .sessionOpen p => serve_keeps sessionOpenSpec sessionOpenBody_kept p s
  | .sessionClose p => serve_keeps sessionCloseSpec sessionCloseBody_kept p s
  | .sessionIdleTimeout session => good_of_kept (execSessionIdleTimeout_kept session s)
  | .proposalExpiry proposal => good_of_kept (execProposalExpiry_kept proposal s)
  | .lockoutEnd slot => good_of_kept (execLockoutEnd_kept slot s)
  | .debugAccessEnd => good_of_kept (execDebugAccessEnd_kept s)
  | .pairConfig p => serve_keeps pairConfigSpec pairConfigBody_kept p s
  | .pairStatus p => serve_keeps pairStatusSpec pairStatusSpec_keeps p s
  | .pairCheckpointNow p => serve_good checkpointNowSpec checkpointNowBody_good p s
  | .pairYield p => serve_keeps pairYieldSpec pairYieldBody_kept p s
  | .yieldDrainEnd => execYieldDrainEnd_good s
  | .yieldRelease => execYieldRelease_good s
  | .heartbeatTx => good_of_kept (execHeartbeatTx_kept s)
  | .heartbeatRx frame => good_of_kept (execHeartbeatRx_kept frame s)
  | .heartbeatLoss => good_of_kept (execHeartbeatLoss_kept s)
  | .partnerOverdue => good_of_kept (execPartnerOverdue_kept s)
  | .takeoverWake => good_of_kept (execTakeoverWake_kept s)
  | .takeoverClaim => execTakeoverClaim_good s
  | .takeoverTime => good_of_kept (execTakeoverTime_kept s)
  | .timeWaitExpiry => good_of_kept (execTimeWaitExpiry_kept s)
  | .takeoverFront => good_of_kept (execTakeoverFront_kept s)
  | .takeoverDeferred => good_of_kept (execTakeoverDeferred_kept s)
  | .checkpointFullDue => execCheckpointFullDue_good s
  | .checkpointDeltaDue => execCheckpointDeltaDue_good s
  | .checkpointWriteDone ok => execCheckpointWriteDone_good ok s
  | .checkpointStale => good_of_kept (execCheckpointStale_kept s)
  | .standbySyncStart => good_of_kept (execStandbySyncStart_kept s)
  | .standbySyncDone ownerFwVersion => good_of_kept (execStandbySyncDone_kept ownerFwVersion s)
  | .standbyTqGiveUp => good_of_kept (execStandbyTqGiveUp_kept s)
  | .coldNextEnd => execColdNextEnd_good s
  | .healthReport p => serve_keeps healthReportSpec healthReportSpec_keeps p s
  | .marginPlan p => serve_keeps marginPlanSpec marginPlanBody_kept p s
  | .chanRetire p => serve_keeps chanRetireSpec chanRetireBody_kept p s
  | .chanRestore p => serve_keeps chanRestoreSpec chanRestoreBody_kept p s
  | .chanRestoreEffect => good_of_kept (execChanRestoreEffect_kept s)
  | .countersRead p => serve_keeps countersReadSpec countersReadBody_kept p s
  | .countersClear p => serve_keeps countersClearSpec countersClearBody_kept p s
  | .marginSample margin value => good_of_kept (execMarginSample_kept margin value s)
  | .ageingEyeScan port scan => good_of_kept (execAgeingEyeScan_kept port scan s)
  | .marginDailyFold => good_of_kept (execMarginDailyFold_kept s)
  | .baselineEnd => good_of_kept (execBaselineEnd_kept s)
  | .pktWrite bytes => good_of_kept (execPktWrite_kept bytes s)
  | .rplRead clocked => good_of_kept (execRplRead_kept clocked s)
  | .badInstr instr addr => good_of_kept (execBadInstr_kept instr addr s)
  | .regWrite addr words => good_of_kept (execRegWrite_kept addr words s)
  | .nqPop => good_of_kept (execNqPop_kept s)
  | .nqFlush => good_of_kept (execNqFlush_kept s)
  | .longResetClear => good_of_kept (execLongResetClear_kept s)
  | .tearClear => good_of_kept (execTearClear_kept s)
  | .wrIgnoredClear => good_of_kept (execWrIgnoredClear_kept s)
  | .badInstrClear => good_of_kept (execBadInstrClear_kept s)
  | .eventSummaryClear mask => good_of_kept (execEventSummaryClear_kept mask s)
  | .cntSelWrite value => good_of_kept (execCntSelWrite_kept value s)
  | .splitLoRead which => good_of_kept (execSplitLoRead_kept which s)
  | .splitMidRead which => good_of_kept (execSplitMidRead_kept which s)
  | .splitLastRead which => good_of_kept (execSplitLastRead_kept which s)
  | .controlProcessorWatchdogExpiry => good_of_kept (execControlProcessorWatchdogExpiry_kept s)
  | .pairOwnLow => execPairOwnLow_good s
  | .rawResult ch volts sense => good_of_kept (execRawResult_kept ch volts sense s)
  | .lcWrap => good_of_kept (execLcWrap_kept s)
  | .jtagInstruction op pins => good_of_kept (execJtagInstruction_kept op pins s)

/-- A step takes the front off the queue; whatever else is kept stands as it did, and the sparse memories stay canonical. -/
theorem step_good (s t : State) (h : step s = .next t) : { s.kept with pending := s.pending.tail }.Good t.kept := by
  unfold step at h
  split at h
  · rename_i hp
    cases h
    refine good_of_kept ?_
    rw [idle, elapse_kept, hp, List.tail_nil, ← hp]
    rfl
  · rename_i i rest hp
    have k := exec_good i { s with pending := rest }
    rw [h, settle_next] at k
    rw [hp]
    exact k

/-- Settles O3: every command keeps the factory data and the queue it finds, and a step hands it the queue without its front. -/
theorem commandKeepsQueueAndDie : Obligations.CommandKeepsQueueAndDie := by
  intro s t h
  have k := step_good s t h
  exact ⟨k.factory, k.pending⟩

end Sys2Proof.Machine

namespace Sys2Proof.Machine

/-! Entries of vectors and loops over units. -/

@[simp] theorem getElem_vmod {α : Type} {n : Nat} (v : Vector α n) (i : Fin n) (f : α → α) (j : Nat) (hj : j < n) :
    (vmod v i f)[j] = if i.val = j then f v[j] else v[j] := by
  unfold vmod
  rw [Vector.getElem_set]
  split
  · rename_i h; subst h; rfl
  · rfl

theorem vmod_vmod {α : Type} {n : Nat} (v : Vector α n) (i : Fin n) (f g : α → α) : vmod (vmod v i f) i g = vmod v i fun x => g (f x) := by
  simp [vmod]

theorem forEach_cons {α σ : Type} (a : α) (l : List α) (f : σ → α → σ) (s : σ) :
    forEach (a :: l) f s = forEach l f (f s a) := rfl

/-- What every turn of a loop keeps, the loop keeps. -/
theorem forEach_keeps {α β σ : Type} (P : σ → β) (f : σ → α → σ) (h : ∀ s a, P (f s a) = P s) (l : List α) (s : σ) :
    P (forEach l f s) = P s := by
  induction l generalizing s with
  | nil => rfl
  | cons a l ih => rw [forEach_cons, ih, h]

/-- A loop over distinct entries of a vector changes each of them once. -/
theorem getElem_forEach_vmod {α : Type} {n : Nat} (f : α → α) {l : List (Fin n)} (hl : l.Nodup) (v : Vector α n) (j : Fin n) :
    (forEach l (fun v i => vmod v i f) v)[j] = if j ∈ l then f v[j] else v[j] := by
  induction l generalizing v with
  | nil => rfl
  | cons a l ih =>
    obtain ⟨ha, hl⟩ := List.nodup_cons.mp hl
    rw [forEach_cons, ih hl]
    by_cases hj : j = a
    · subst hj; simp [ha]
    · simp [hj, Fin.val_ne_of_ne (Ne.symm hj)]

theorem forEach_modChain (f : Chain → Chain) (l : List SettId) (s : State) :
    forEach l (fun u k => u.modChain k f) s = { s with chains := forEach l (fun v k => vmod v k f) s.chains } := by
  induction l generalizing s with
  | nil => rfl
  | cons a l ih => rw [forEach_cons, ih]; rfl

theorem forEach_modChan (f : Channel → Channel) (l : List Chan) (s : State) :
    forEach l (fun u c => u.modChan c f) s = { s with chans := forEach l (fun v c => vmod v c f) s.chans } := by
  induction l generalizing s with
  | nil => rfl
  | cons a l ih => rw [forEach_cons, ih]; rfl

theorem chanOf_inj {k : SettId} {i j : Fin 8} (h : chanOf k i = chanOf k j) : i = j := by
  have hval := congrArg Fin.val h
  simp only [chanOf] at hval
  omega

theorem chansOf_nodup (k : SettId) : (chansOf k).Nodup :=
  List.Pairwise.map (chanOf k) (fun _ _ hij h => hij (chanOf_inj h)) (List.nodup_finRange 8)

/-! Notices and the command unit (R466, R468). -/

/-- The command unit without the notice queue and EVENT_SUMMARY, which are all of it that a notice touches. -/
def State.unseen (s : State) : Cmd := { s.cmd with eventSummary := 0, nq := [], nqLost := 0 }

@[simp] theorem State.modHoard_unseen (s : State) (f : Hoard → Hoard) : (s.modHoard f).unseen = s.unseen := id rfl

@[simp] theorem State.modStream_unseen (s : State) (t : Fin 54) (f : Stream → Stream) : (s.modStream t f).unseen = s.unseen := id rfl

@[simp] theorem State.modQueue_unseen (s : State) (q : Fin 76) (f : Queue → Queue) : (s.modQueue q f).unseen = s.unseen := id rfl

theorem foldl_fst_unseen {α β : Type} (l : List α) (f : State × β → α → State × β)
    (h : ∀ s a, (f s a).1.unseen = s.1.unseen) (s : State × β) : (l.foldl f s).1.unseen = s.1.unseen := by
  induction l generalizing s with
  | nil => rfl
  | cons a t ih => rw [List.foldl_cons, ih, h]

@[simp] theorem setLevel_unseen (q : Fin 76) (level : Nat) (s : State) : (setLevel q level s).1.unseen = s.unseen := by
  simp [setLevel]

@[simp] theorem readQueue_unseen (q : Fin 76) (n : Nat) (s : State) : (readQueue q n s).1.unseen = s.unseen := by
  simp [readQueue]

@[simp] theorem overrunSubs_unseen (stream : Nat) (old : List (BitVec 48 × Nat × Nat)) (oldest : BitVec 48) (s : State) :
    (overrunSubs stream old oldest s).1.unseen = s.unseen := by
  unfold overrunSubs
  rw [foldl_fst_unseen _ _ fun s i => by split <;> simp]

@[simp] theorem judgeMarks_unseen (stream : Nat) (old ring : List Record) (s : State) :
    (judgeMarks stream old ring s).1.unseen = s.unseen := by
  unfold judgeMarks
  rw [foldl_fst_unseen _ _ fun s i => by split <;> simp]

@[simp] theorem ringPut_unseen (t : Fin 54) (r : Record) (s : State) : (ringPut t r s).1.unseen = s.unseen := by
  simp only [ringPut, judgeMarks_unseen]
  split
  · simp [passRecord]
  · split <;> simp

@[simp] theorem closeRecord_unseen (t : Fin 54) (s : State) : (closeRecord t s).1.unseen = s.unseen := by
  unfold closeRecord
  split
  · rfl
  · simp only [setLevel_unseen]
    split <;> simp [putRecord]

@[simp] theorem addEntry_unseen (e : Entry) (s : State) : (addEntry e s).1.unseen = s.unseen := by
  simp [addEntry]

@[simp] theorem appendEntry_unseen (e : Entry) (s : State) : (appendEntry e s).1.unseen = s.unseen := by
  unfold appendEntry
  split
  · unfold noteShed; split <;> simp
  · split
    · simp [refuseEntry]
    · simp only [addEntry_unseen]; split <;> (split <;> simp)

@[simp] theorem windowNotice_unseen (n : Notice) (s : State) : (windowNotice n s).unseen = s.unseen := by
  unfold windowNotice State.unseen State.modCmd
  simp only []
  split
  · split <;> rfl
  · rfl

@[simp] theorem pushOne_unseen (i : Item) (s : State) : (pushOne i s).1.unseen = s.unseen := by
  unfold pushOne
  split
  · simp
  · split <;> simp

@[simp] theorem pushAll_unseen (n : Nat) (l : List Item) (s : State) : (pushAll n l s).unseen = s.unseen := by
  induction n generalizing l s with
  | zero => simp [pushAll]
  | succ n ih => cases l <;> simp [pushAll, ih]

/-- A notice touches nothing of the command unit but what the host reads of notices. -/
@[simp] theorem raise_unseen (s : State) (code : Nat) (body : List Word) : (raise s code body).unseen = s.unseen := by
  simp [raise]

theorem bootCache_of_unseen {s t : State} (h : t.unseen = s.unseen) : t.cmd.bootCache = s.cmd.bootCache :=
  (congrArg Cmd.bootCache h :)

end Sys2Proof.Machine

namespace Sys2Proof.Machine

/-! Rows of the watchdog and the test access port (R20, R61). -/

/-- The port is live exactly when both its rails are good (R61). -/
theorem jtagLive_of_rails {s : State} (hio : s.sup.railGood.getLsbD 9 = true) (hcore : s.sup.railGood.getLsbD 0 = true) :
    s.jtagLive = true := by
  simp [State.jtagLive, hio, hcore]

/-- What each instruction does on a live port (R61). -/
theorem execJtagInstruction_live (op : JtagOp) (pins : List Bool) {s : State} (h : s.jtagLive = true) :
    execJtagInstruction op pins s = match op with
      | .bypass | .idcode => .next (jtagDrive .functional s)
      | .samplePreload => .next (jtagCapture pins (jtagDrive .functional s))
      | .extest | .intest => .next (jtagCapture pins (jtagDrive .driven s))
      | .clamp => .next (jtagDrive .driven s)
      | .highz => .next (jtagDrive .highZ s)
      | .debugOp => if s.debugOpen then .refused .debugInstruction else .next s := by
  cases op <;> simp [execJtagInstruction, h]

/-- Settles O20: the watchdog is a fault of the chip, and each JTAG instruction has its one outcome on a live port. -/
theorem watchdogAndJtag : Obligations.WatchdogAndJtag := by
  refine ⟨fun s hserved hplls => guardNext_pos (by simp [hserved, hplls]), fun op pins s hio hcore => ?_, fun s => rfl⟩
  have run : exec (.jtagInstruction op pins) s = _ := execJtagInstruction_live op pins (jtagLive_of_rails hio hcore)
  refine ⟨?_, ?_, ?_, ?_, ?_, ?_, ?_⟩
  · rintro (rfl | rfl) <;> exact run
  · rintro rfl; exact run
  · rintro (rfl | rfl) <;> exact run
  · rintro rfl; exact run
  · rintro rfl; exact run
  · rintro rfl hshut
    simpa [hshut] using run
  · rintro rfl hopen
    simpa [hopen] using run

end Sys2Proof.Machine

namespace Sys2Proof.Machine

/-! Step 0x5 (R88, R592). -/

theorem raiseTimeMap_quiet (s : State) : (raiseTimeMap s).quiet = s.quiet := raise_quiet _ _ _

theorem Sup.longNotice_cleared {u : Sup} (h : u.longNoticeDue = false) : { u with longNoticeDue := false } = u := by
  rw [← h]

/-- The first notices take one free value and end a due LONG_RESET; nothing else comes of them but notices. -/
theorem firstNotices_quiet (s : State) : (firstNotices s).quiet =
    ({ s with free := s.free + 1, sup := { s.sup with longNoticeDue := false } } : State).quiet := by
  unfold firstNotices
  simp only [raiseTimeMap_quiet, raise_quiet]
  split
  · simp [State.quiet, State.modSup]
  · rename_i hdue
    rw [raise_quiet, Sup.longNotice_cleared (Bool.eq_false_iff.mpr hdue)]

theorem firstNotices_unseen (s : State) : (firstNotices s).unseen = s.unseen := by
  unfold firstNotices raiseTimeMap
  simp only [raise_unseen]
  split
  · exact (raise_unseen _ _ _).trans (raise_unseen _ _ _)
  · exact raise_unseen _ _ _

theorem oweCheckpointFail_quiet (s : State) : (oweCheckpointFail s).quiet = s.quiet := by
  unfold oweCheckpointFail
  split <;> simp

theorem oweCheckpointFail_unseen (s : State) : (oweCheckpointFail s).unseen = s.unseen := by
  unfold oweCheckpointFail
  split <;> simp

/-- The firmware runs: what is set before its first notices (R88, R447, R470). -/
def runFirmware (s : State) : State :=
  let s1 := ((s.modBoot fun b => { b with fwRuns := true, waitHost := false }).modCmd fun c =>
    { c with bootCache := Cache.empty }).modProt fun p => { p with staged := [], stage := .empty, result := 0 }
  if s.boot.takeStep = 0 then s1.modOwl fun o => { o with running := true, alive := true, cycleAt := s1.lcN } else s1

theorem execFirmwareStart_next {s : State} (hstart : s.booting = true ∨ s.deferring = true) (hload : s.boot.fwLoaded = true)
    (hruns : s.boot.fwRuns = false) :
    execFirmwareStart s = .next (oweCheckpointFail (firstNotices (runFirmware s))) :=
  guardNext_pos (by simpa [hload, hruns] using hstart)

theorem runFirmware_bootCache (s : State) : (runFirmware s).cmd.bootCache = Cache.empty := by
  unfold runFirmware; dsimp only; split <;> rfl

theorem runFirmware_eq (s : State) : runFirmware s = { s with
    boot := { s.boot with fwRuns := true, waitHost := false }
    cmd := (runFirmware s).cmd
    prot := { s.prot with staged := [], stage := .empty, result := 0 }
    owl := if s.boot.takeStep = 0 then { s.owl with running := true, alive := true, cycleAt := s.lcN } else s.owl } := by
  unfold runFirmware
  by_cases h : s.boot.takeStep = 0
  · rw [if_pos h, if_pos h]; rfl
  · rw [if_neg h, if_neg h]; rfl

/-! Step 0x6 (R89, R97, R529, R530). -/

theorem loadConfig_noCopy {a b : List Byte} (h : bootOrder a b = []) (s : State) :
    loadConfig a b s = waitConfig (noCopyCode a b) s := by
  unfold loadConfig; rw [h]

theorem mustClaim_noCopy {a b : List Byte} (h : bootOrder a b = []) (s : State) : s.mustClaim a b = false := by
  simp [State.mustClaim, h]

/-- A start without a copy to claim for reads its configuration at once. -/
theorem execBootConfigReadDone_load {x y : List Byte} {s : State} (hplan : s.wantsPlan = false) (hread : s.readingConfig = true)
    (hclaim : s.mustClaim (flashPart flashCopyA x) (flashPart flashCopyB y) = false) :
    execBootConfigReadDone x y s = .next (loadConfig (flashPart flashCopyA x) (flashPart flashCopyB y) s) := by
  simp [execBootConfigReadDone, hplan, hread, hclaim]

/-- A start that must claim does so once PAIR_OWN is low (R529). -/
theorem execBootConfigReadDone_claim {x y : List Byte} {s : State} (hplan : s.wantsPlan = false) (hread : s.readingConfig = true)
    (hclaim : s.mustClaim (flashPart flashCopyA x) (flashPart flashCopyB y) = true) :
    execBootConfigReadDone x y s = .next (resumeClaim
      (s.modBoot fun b => { b with claimWait := some (flashPart flashCopyA x, flashPart flashCopyB y) })) := by
  simp [execBootConfigReadDone, hplan, hread, hclaim]

/-! Step 0x7 and the entry to Service (R30, R87, R98, R573). -/

theorem bootSetts_nodup (s : State) : s.bootSetts.Nodup := (List.nodup_finRange 48).filter _

theorem mem_bootSetts (s : State) (k : SettId) : k ∈ s.bootSetts ↔ s.boot.runMask.getLsbD k.val = true := by
  simp [State.bootSetts, allSetts]

/-- The front ends on, and the configuration's setts due to start at a boundary (R98, R573). -/
def enableFront (b : Nat) (s : State) : State :=
  (forEach s.bootSetts (fun s k => s.modChain k fun c => { c with startAt := some b }) s).modBoot fun x => { x with frontOn := true }

theorem enableFront_eq (b : Nat) (s : State) : enableFront b s =
    { s with boot := { s.boot with frontOn := true }, chains := (enableFront b s).chains } := by
  unfold enableFront
  rw [forEach_modChain]
  rfl

theorem enableFront_chains (b : Nat) (s : State) (k : SettId) : (enableFront b s).chains[k] =
    if s.boot.runMask.getLsbD k.val then { s.chains[k] with startAt := some b } else s.chains[k] := by
  unfold enableFront
  rw [forEach_modChain]
  simp only [← mem_bootSetts]
  exact getElem_forEach_vmod _ (bootSetts_nodup s) s.chains k

theorem enableFront_boot (b : Nat) (s : State) : (enableFront b s).boot = { s.boot with frontOn := true } :=
  (congrArg State.boot (enableFront_eq b s) :)

theorem closeTaps_quiet (s : State) : (closeTaps s).quiet = s.quiet := by
  unfold closeTaps
  simp only []
  split <;> simp

/-- The entry to Service before the temperature is judged (R30, R93, R147). -/
def enteredService (s : State) : State :=
  raiseMode .service 0 (closeTaps ((s.modBoot fun b => { b with
    frozenMs := some (BitVec.ofNat 16 s.elapsedMs), recovery := false, takeStep := 0, runMask := 0 }).modSup fun u => { u with mode := .service }))

theorem enterService_eq (s : State) : enterService s = judgeTherm (enteredService s) := rfl

theorem enteredService_quiet (s : State) : (enteredService s).quiet =
    ({ s with
       sup := { s.sup with mode := .service }
       boot := { s.boot with frozenMs := some (BitVec.ofNat 16 s.elapsedMs), recovery := false, takeStep := 0, runMask := 0 } } : State).quiet :=
  (raise_quiet _ _ _).trans (closeTaps_quiet _)

/-- Without overtemperature the entry stands (R30, R573). -/
theorem enterService_cool {s : State} (h : s.sup.overtemp = false) : enterService s = enteredService s := by
  have hcool : (enteredService s).sup.overtemp = false := (congrArg (fun u : State => u.sup.overtemp) (enteredService_quiet s) :).trans h
  rw [enterService_eq, judgeTherm, hcool, Bool.false_and, if_neg Bool.false_ne_true]

/-- Settles O19: each row of steps 0x5 to 0x7 runs under its guard, and the entry to Service is `enterService`. -/
theorem startupFirmwareAndConfiguration : Obligations.StartupFirmwareAndConfiguration := by
  refine ⟨fun bytes s hread => ?flash, fun s hstart hload hruns => ?firmware, fun x y s hplan hboot hruns happlied hwait => ?config,
    fun a b s hplan => ?plan, fun e s hboot happlied hstopped hactive hswap => ?activate, fun s hready hoff hsamples hcool => ?front,
    fun s hboot hstep hfront hactive hwarm => guardNext_pos (by simp [hboot, hstep, hfront, hactive, hwarm]), fun s hcool => ?service⟩
  case flash =>
    refine ⟨fun hgood => ?_, fun hbad => ?_, guardNext_pos hread⟩
    · exact (guardNext_pos hread).trans (congrArg _ (if_pos hgood))
    · exact (guardNext_pos hread).trans (congrArg _ (if_neg hbad))
  case firmware =>
    have hq : (oweCheckpointFail (firstNotices (runFirmware s))).quiet = _ :=
      (oweCheckpointFail_quiet _).trans ((firstNotices_quiet _).trans (congrArg (fun u : State =>
        ({ u with free := u.free + 1, sup := { u.sup with longNoticeDue := false } } : State).quiet) (runFirmware_eq s)))
    have hc : (oweCheckpointFail (firstNotices (runFirmware s))).unseen = _ :=
      (oweCheckpointFail_unseen _).trans (firstNotices_unseen _)
    generalize ht : oweCheckpointFail (firstNotices (runFirmware s)) = t at hq hc
    refine ⟨t, ht ▸ execFirmwareStart_next hstart hload hruns, (congrArg State.boot hq :),
      (bootCache_of_unseen hc).trans (runFirmware_bootCache s), (congrArg State.prot hq :), (congrArg State.owl hq :),
      (congrArg State.sup hq :), ?_⟩
    exact (congrArg (fun u : State => { u with
      boot := t.boot, cmd := t.cmd, prot := t.prot, owl := t.owl, sup := t.sup, hoard := t.hoard, free := t.free }) hq :)
  case config =>
    have hreading : s.readingConfig = true := by simp [State.readingConfig, hboot, hruns, happlied, hwait]
    refine ⟨execBootConfigReadDone_load hplan hreading, fun hnone => ?_, fun hclaim hline => ?_, fun hclaim hline => ?_⟩
    · refine (execBootConfigReadDone_load hplan hreading (mustClaim_noCopy hnone s)).trans ?_
      rw [loadConfig_noCopy hnone]; rfl
    · exact (execBootConfigReadDone_claim hplan hreading hclaim).trans (congrArg _ (if_pos hline))
    · exact (execBootConfigReadDone_claim hplan hreading hclaim).trans (congrArg _ (if_neg (by simp [hline])))
  case plan => simp [exec, execBootConfigReadDone, hplan]
  case activate => simp [exec, execStartupPlanActivate, hswap, hboot, happlied, hstopped, hactive]
  case front =>
    refine ⟨enableFront s.nextBoundary s, guardNext_pos (by simp [hready, hoff, hsamples, hcool]), enableFront_boot _ s,
      enableFront_chains _ s, ?_⟩
    rw [enableFront_boot]
    exact enableFront_eq _ s
  case service =>
    rw [enterService_cool hcool]
    have hq := enteredService_quiet s
    generalize enteredService s = t at hq ⊢
    exact ⟨(congrArg State.sup hq :), (congrArg State.boot hq :),
      (congrArg (fun u : State => { u with sup := t.sup, boot := t.boot, hoard := t.hoard, cmd := t.cmd }) hq :)⟩

end Sys2Proof.Machine

namespace Sys2Proof.Machine

/-! Faults of channels, setts and dens (R16 to R18, R555, R556). -/

/-- A transient of a channel that is retired, or inside an isolated unit, is reported and counted, and pushes no history (R18). -/
theorem channelFault_inside (c : Chan) (kind : Nat) (pos : Fin 3) {s : State}
    (h : (s.chans[c]).retired = true ∨ s.settOut (settOf c) = true) :
    channelFault c kind pos s =
      raiseTransient (s.modUnitC c fun u => bump pos (bump 0 u)) (unitField 0 c.val) kind (recentCount s.health.chans[c] s.lcN) := by
  unfold channelFault
  rw [if_pos (by simpa using h)]

/-- Elsewhere it counts towards the channel's retirement, and the third within 10 s retires it (R555). -/
theorem channelFault_counted (c : Chan) (kind : Nat) (pos : Fin 3) {s : State} (hret : (s.chans[c]).retired = false)
    (hout : s.settOut (settOf c) = false) :
    channelFault c kind pos s =
      let s1 := (s.modUnitC c fun u => bump pos (bump 0 u)).modUnitC c fun u => pushTransient u s.lcN
      let s2 := raiseTransient s1 (unitField 0 c.val) kind (recentCount s.health.chans[c] s.lcN + 1)
      if permanent s.health.chans[c] s.lcN then retireChannel c false s2 else s2 := by
  unfold channelFault
  rw [if_neg (by simpa [hout] using hret)]

/-- A fault of an isolated sett is reported only (R18). -/
theorem settFault_inside (k : SettId) (kind : Nat) {s : State} (h : s.settOut k = true) :
    settFault k kind s = raiseTransient s (unitField 1 k.val) kind (recentCount s.health.setts[k] s.lcN) := by
  unfold settFault
  rw [if_pos h]

/-- Elsewhere it asks for the sett's restart, and the third within 10 s isolates it (R555, R588). -/
theorem settFault_counted (k : SettId) (kind : Nat) {s : State} (h : s.settOut k = false) :
    settFault k kind s =
      let s1 := (s.modSett k fun x => { x with restart := if x.run then some s.tkN else none }).modUnitS k fun u => pushTransient u s.lcN
      let s2 := raiseTransient s1 (unitField 1 k.val) kind (recentCount s.health.setts[k] s.lcN + 1)
      if permanent s.health.setts[k] s.lcN then isolateSett k s2 else s2 := by
  unfold settFault
  rw [if_neg (ne_true_of_eq_false h)]

theorem and_not_of {a b : Bool} (ha : a = true) (hb : b = false) : (a && !b) = true := by simp [ha, hb]

/-- REG_LOST is set, a burst in progress is broken and the loss counted; nothing else of the sett changes (R120). -/
theorem execRegLost_next (k : SettId) {s : State} (hdrive : (s.setts[k]).driving = true) (hlost : (s.setts[k]).regLost = false) :
    execRegLost k s = .next (breakBurst k ((s.modSett k fun x => { x with regLost := true }).modUnitS k (bump 2))) :=
  guardNext_pos (and_not_of hdrive hlost)

/-- Settles O28: each row is its operation under its guard, and the transient faults go by whether their unit is in use. -/
theorem frontEndEvents : Obligations.FrontEndEvents := by
  refine ⟨fun ch s hmod => ?instability, fun ch s hrec => ?recovered, fun ch d s => ⟨fun hserved hen hcm => ?onset, fun hcm => ?clear⟩,
    fun k s hdrive => ?ocTrip, fun k s hdrive hlost => ?regLost, fun k s hlost => ?regBack,
    fun k s => ⟨fun hserved hoff hfree => ?contention, fun hcont => ?contentionOver⟩,
    fun d s hdrive => ?denCurrent, fun k s hserved hrun hshed => ?engine,
    fun ch kind pos s => ⟨channelFault_inside ch kind pos, fun hret hout hperm => ?transient, fun hret hout hperm => ?retires⟩,
    fun k kind s => ⟨settFault_inside k kind, fun hout hperm => ?settTransient, fun hout hperm => ?isolates⟩⟩
  case instability => exact guardNext_pos hmod
  case recovered => exact ⟨_, guardNext_pos hrec, rfl⟩
  case onset => exact guardNext_pos (and_not_of (by simpa [hserved] using hen) hcm)
  case clear => exact guardNext_pos hcm
  case ocTrip => exact ⟨_, guardNext_pos hdrive, rfl⟩
  case regLost =>
    refine ⟨_, execRegLost_next k hdrive hlost, ?_, ?_, fun b hb => ?_, fun j hj => ?_, rfl⟩
    · simp [breakBurst, State.modUnitS]
    · simpa [breakBurst, State.modUnitS] using hdrive
    · have : ((s.setts[k]).burst.map fun b => { b with broken := true }) = some b := by
        simpa [breakBurst, State.modUnitS] using hb
      obtain ⟨_, _, rfl⟩ := Option.map_eq_some_iff.mp this
      rfl
    · simp [breakBurst, State.modUnitS, Fin.val_ne_of_ne (Ne.symm hj)]
  case regBack => exact guardNext_pos hlost
  case contention => exact guardNext_pos (and_not_of (and_not_of hserved hoff) hfree)
  case contentionOver => exact guardNext_pos hcont
  case denCurrent =>
    refine ⟨_, guardNext_pos hdrive, ?_⟩
    simp only [State.modUnitD, State.modHealth, State.modDen]
  case engine => exact guardNext_pos (and_not_of (by simpa [hserved] using hrun) hshed)
  case transient => exact (channelFault_counted ch kind pos hret hout).trans (if_neg (ne_true_of_eq_false hperm))
  case retires => exact (channelFault_counted ch kind pos hret hout).trans (if_pos hperm)
  case settTransient => exact (settFault_counted k kind hout).trans (if_neg (ne_true_of_eq_false hperm))
  case isolates => exact (settFault_counted k kind hout).trans (if_pos hperm)

end Sys2Proof.Machine

namespace Sys2Proof.Machine

/-! A start event of a chain (R143, R178, R249, R292). -/

/-- A start event reaches the pairs of its sett and leaves what is no pair's. -/
theorem startSlots_keeps {β : Type} (P : State → β) (h : ∀ s q f, P (State.modSlot s q f) = P s) (k : SettId) (s : State) :
    P (startSlots k s) = P s :=
  forEach_keeps P _ (fun u q => by split <;> simp [startSlot, takeCoef, h]) _ s

/-- What a start event makes of its sett's chain, the record ended. -/
def startedChain (k : SettId) (b : Nat) (s : State) (c : Chain) : Chain :=
  { c with startTk := b, startLc := nearNs (s.lcOfTick b), words := 0, tap := c.tapT, tapAt := s.lcN
           nextTick := some (firstWordTick (s.period k) (s.delayNs k / 50) b) }

theorem startChain_chains (k : SettId) (b : Nat) (s : State) : (startChain k b s).chains = vmod s.chains k (startedChain k b s) := by
  have hc := endRecord_coded (settStream k) s
  have hchains : (endRecord (settStream k) s).chains = s.chains := (congrArg State.chains hc :)
  have hstarted : startedChain k b (endRecord (settStream k) s) = startedChain k b s := (congrArg (startedChain k b) hc :)
  unfold startChain
  rw [startSlots_keeps State.chains fun _ _ _ => rfl, forEach_modChan]
  simp only [State.modSett_chains, State.modChain_chains, hchains]
  exact congrArg (vmod s.chains k) hstarted

theorem startChain_setts (k : SettId) (b : Nat) (s : State) :
    (startChain k b s).setts = vmod s.setts k fun x => { x with lowNow := x.lowPower } := by
  have hsetts : (endRecord (settStream k) s).setts = s.setts := (congrArg State.setts (endRecord_coded (settStream k) s) :)
  unfold startChain
  rw [startSlots_keeps State.setts fun _ _ _ => rfl, forEach_modChan]
  simp only [State.modSett_setts, State.modChain_setts, hsetts]

theorem startChain_plan (k : SettId) (b : Nat) (s : State) : (startChain k b s).plan = s.plan := by
  have hplan : (endRecord (settStream k) s).plan = s.plan := (congrArg State.plan (endRecord_coded (settStream k) s) :)
  unfold startChain
  rw [startSlots_keeps State.plan fun _ _ _ => rfl, forEach_modChan]
  exact hplan

theorem startChain_chans (k : SettId) (b : Nat) (s : State) (x : Chan) : (startChain k b s).chans[x] =
    if x ∈ chansOf k then clearDsp s.chans[x] else s.chans[x] := by
  have hchans : (endRecord (settStream k) s).chans = s.chans := (congrArg State.chans (endRecord_coded (settStream k) s) :)
  unfold startChain
  rw [startSlots_keeps State.chans fun _ _ _ => rfl, forEach_modChan]
  simp only [State.modSett_chans, State.modChain_chans, hchans]
  exact getElem_forEach_vmod clearDsp (chansOf_nodup k) s.chans x

/-! Starts, stops and tick groups (R175, R176, R191 to R193). -/

/-- A start: the sett runs, its chain starts, a new plan's first edge gives it its cyclic state, and the notice goes out (R191, R193). -/
theorem startSett_eq (k : SettId) (b : Nat) (s : State) : startSett k b s =
    let s3 := startChain k b (s.modSett k fun x => { x with run := true, ocHold := false })
    let s4 := if s3.plan.active = true ∧ s3.plan.frameCount = 0 ∧ s3.plan.frameTk = b then toCyclic s3.plan.bank.asCycle s3 k else s3
    raise s4 0x0203 (w32 k.val :: words64 (s4.chains[k]).startLc) := by
  unfold startSett raiseEdge
  simp only [Bool.and_eq_true, beq_iff_eq, and_assoc, flag]
  rfl

/-- A sett that produces no words leaves its tick group out (R193). -/
theorem tickGroup_idle {k : SettId} {convs : Vector Conv 8} {n : Nat} {s : State} (hn : (s.chains[k]).nextTick = some n)
    (hidle : s.producing k (n + s.delayNs k / 50) = false) : tickGroup k convs s = s := by
  unfold tickGroup
  simp only [hn]
  rw [if_pos (by simp [hidle])]

theorem execFirTickGroup_due {k : SettId} {beyond : Byte} {n : Nat} {s : State} (hn : (s.chains[k]).nextTick = some n) :
    execFirTickGroup k beyond s = .next (tickGroup k (s.chainConvs k beyond (n + s.delayNs k / 50)) s) := by
  unfold execFirTickGroup
  simp only [hn]

/-- Settles O32: starts and stops act at their boundary, tick groups while their sett produces, held groups at their stamp. -/
theorem filterRows : Obligations.FilterRows := by
  refine ⟨fun k b s hat => ?start, fun k b s => ⟨?chain, startChain_setts k b s, startChain_plan k b s,
      fun x hx => ?_, fun x hx => ?_⟩,
    fun k b s hat => ?stop, fun k beyond n s hn => ⟨fun hidle => ?idle, fun hprod => ?group⟩, fun k g gs s hheld => ?release⟩
  case chain =>
    rw [startChain_chains]
    simp [startedChain]
  case start =>
    have run : exec (.fltStartEffect k) s = .next (startSett k b ((atTk b s).modChain k fun c => { c with startAt := none })) := by
      simp only [exec, execFltStartEffect, hat]
    rw [run, startSett_eq]
    have hrec : ((atTk b s).modChain k fun c => { c with startAt := none }).modSett k (fun x => { x with run := true, ocHold := false }) =
      (let s1 := atTk b s
       let s2 := { s1 with chains := vmod s1.chains k fun x => { x with startAt := none } }
       { s2 with setts := vmod s2.setts k fun x => { x with run := true, ocHold := false } }) := rfl
    rw [hrec]
  · rw [startChain_chans, if_pos hx]; rfl
  · rw [startChain_chans, if_neg hx]
  case stop =>
    have run : exec (.fltStopEffect k) s = .next (stopSett k b ((atTk b s).modChain k fun c => { c with stopAt := none })) := by
      simp only [exec, execFltStopEffect, hat]
    rw [run]
    simp only [stopSett, raiseEdge, State.modChain, State.modSett, atTk_setts]
    rfl
  case idle =>
    exact (execFirTickGroup_due hn).trans (congrArg _ (tickGroup_idle hn hidle))
  case group =>
    refine ⟨_, execFirTickGroup_due hn, fun hlin => ?_, fun hlin => ?_⟩
    · simp only [tickGroup, hn, hprod, Bool.not_true, Bool.false_eq_true, if_false, State.modChain]
      rw [if_pos hlin]
    · simp only [tickGroup, hn, hprod, Bool.not_true, Bool.false_eq_true, if_false, State.modChain]
      rw [if_neg (ne_true_of_eq_false hlin)]
  case release =>
    simp only [exec, execBearRetimeRelease, hheld]
    rfl

end Sys2Proof.Machine

namespace Sys2Proof.Machine

/-! What drivers touch (R119 to R125, R151). -/

/-- The state with the setts, the channels and the free counter set aside: a driver's switch touches these alone. -/
def State.undriven (s : State) : State := { s with setts := State.reset.setts, chans := State.reset.chans, free := 0 }

theorem eq_of_undriven {s t : State} (h : t.undriven = s.undriven) : t = { s with setts := t.setts, chans := t.chans, free := t.free } :=
  congrArg (fun u : State => { u with setts := t.setts, chans := t.chans, free := t.free }) h

@[simp] theorem State.modSett_undriven (s : State) (k : SettId) (f : Sett → Sett) : (s.modSett k f).undriven = s.undriven := id rfl

@[simp] theorem State.modChan_undriven (s : State) (c : Chan) (f : Channel → Channel) : (s.modChan c f).undriven = s.undriven := id rfl

/-- The averages of an on-period are four free values (R132). -/
theorem endOnPeriod_eq (k : SettId) (s : State) : endOnPeriod k s =
    ({ s with free := s.free + 4 } : State).modSett k fun x => { x with lastOn := some s.drawAvg.1 } := rfl

@[simp] theorem endOnPeriod_undriven (k : SettId) (s : State) : (endOnPeriod k s).undriven = s.undriven := by
  rw [endOnPeriod_eq]; rfl

@[simp] theorem switchDriver_undriven (k : SettId) (on : Bool) (s : State) : (switchDriver k on s).undriven = s.undriven := by
  unfold switchDriver
  split
  · rfl
  · dsimp only
    split
    · simp
    · rw [forEach_keeps State.undriven _ fun u c => State.modChan_undriven u c _]; simp

@[simp] theorem endCount_undriven (k : SettId) (s : State) : (endCount k s).undriven = s.undriven := by
  unfold endCount; split <;> simp

@[simp] theorem driverOut_undriven (k : SettId) (s : State) : (driverOut k s).undriven = s.undriven := by simp [driverOut]

@[simp] theorem holdOff_undriven (k : SettId) (s : State) : (holdOff k s).undriven = s.undriven := by simp [holdOff, breakBurst]

@[simp] theorem toCyclic_undriven (c : Cycle) (s : State) (k : SettId) : (toCyclic c s k).undriven = s.undriven := by
  unfold toCyclic
  dsimp only
  split
  · simp
  · split <;> simp

/-- A driver's switch leaves its own sett alone changed, with the driver as asked for. -/
theorem switchDriver_setts (k : SettId) (on : Bool) (s : State) :
    ∃ x : Sett, x.driving = on ∧ (switchDriver k on s).setts = vset s.setts k x := by
  by_cases h : (s.setts[k]).driving = on
  · exact ⟨s.setts[k], h, by rw [switchDriver, if_pos h, vset]; simp⟩
  · rw [switchDriver, if_neg h]
    cases on with
    | true => exact ⟨_, rfl, rfl⟩
    | false =>
      rw [if_neg Bool.false_ne_true, forEach_modChan, endOnPeriod_eq]
      simp only [State.modSett_setts, vmod, Vector.set_set]
      refine ⟨_, ?_, rfl⟩
      simp

theorem switchDriver_driving (k j : SettId) (on : Bool) (s : State) :
    ((switchDriver k on s).setts[j]).driving = if k = j then on else (s.setts[j]).driving := by
  obtain ⟨x, hx, hs⟩ := switchDriver_setts k on s
  rw [hs]
  by_cases hj : k = j
  · subst hj; simpa [vset] using hx
  · simp [vset, hj, Fin.val_ne_of_ne hj]

theorem driverOut_driving (k j : SettId) (s : State) :
    ((driverOut k s).setts[j]).driving = if k = j then false else (s.setts[j]).driving := by
  rw [← switchDriver_driving k j false s]
  unfold driverOut endCount
  split
  · simp only [State.modSett_setts, Fin.getElem_fin, getElem_vmod]
    split <;> rfl
  · rfl

/-- A driver that is off stays off while others go off. -/
theorem forEach_driverOut_off (l : List SettId) (j : SettId) (s : State) (h : j ∈ l ∨ (s.setts[j]).driving = false) :
    ((forEach l (fun u k => driverOut k u) s).setts[j]).driving = false := by
  induction l generalizing s with
  | nil => exact h.resolve_left (List.not_mem_nil)
  | cons a l ih =>
    rw [forEach_cons]
    refine ih _ ?_
    rw [driverOut_driving]
    by_cases ha : a = j
    · exact .inr (if_pos ha)
    · rw [if_neg ha]
      exact h.imp_left fun hm => (List.mem_cons.mp hm).resolve_left (Ne.symm ha)

/-! The plan under what a new plan's edge does (R117, R131, R153, R217, R303). -/

/-- The plan of a state, named so that its lemmas go by the operation and not by the projection. -/
def State.planned (s : State) : Plan := s.plan

theorem State.planned_eq (s : State) : s.planned = s.plan := rfl

theorem planned_of_sent {s t : State} (h : t.sent = s.sent) : t.planned = s.planned := (congrArg State.planned h :)

theorem planned_of_quiet {s t : State} (h : t.quiet = s.quiet) : t.planned = s.planned := (congrArg State.planned h :)

theorem planned_of_still {s t : State} (h : t.still = s.still) : t.planned = s.planned := (congrArg State.planned h :)

theorem planned_of_undriven {s t : State} (h : t.undriven = s.undriven) : t.planned = s.planned := (congrArg State.planned h :)

@[simp] theorem State.modSett_planned (s : State) (k : SettId) (f : Sett → Sett) : (s.modSett k f).planned = s.planned := id rfl

@[simp] theorem State.modChan_planned (s : State) (c : Chan) (f : Channel → Channel) : (s.modChan c f).planned = s.planned := id rfl

@[simp] theorem State.modRed_planned (s : State) (f : Red → Red) : (s.modRed f).planned = s.planned := id rfl

@[simp] theorem State.modPrj_planned (s : State) (p : Fin 64) (f : Prj → Prj) : (s.modPrj p f).planned = s.planned := id rfl

@[simp] theorem State.drawWord_planned (s : State) : s.drawWord.2.planned = s.planned := id rfl

@[simp] theorem forEach_planned {α : Type} (l : List α) (f : State → α → State) (h : ∀ s a, (f s a).planned = s.planned) (s : State) :
    (forEach l f s).planned = s.planned := forEach_keeps State.planned f h l s

@[simp] theorem raise_planned (s : State) (code : Nat) (body : List Word) : (raise s code body).planned = s.planned :=
  planned_of_quiet (raise_quiet s code body)

@[simp] theorem sendFrame_planned (f : Frame) (s : State) : (sendFrame f s).planned = s.planned := planned_of_sent (sendFrame_sent f s)

@[simp] theorem answerLater_planned (code : Nat) (r : ReplyTo) (status : Nat) (words : List Word) (s : State) :
    (answerLater code r status words s).planned = s.planned := planned_of_sent (answerLater_sent code r status words s)

@[simp] theorem toCyclic_planned (c : Cycle) (s : State) (k : SettId) : (toCyclic c s k).planned = s.planned :=
  planned_of_undriven (toCyclic_undriven c s k)

@[simp] theorem ageTrips_planned (s : State) : (ageTrips s).planned = s.planned := by simp [ageTrips]

@[simp] theorem releaseGroup_planned (c : Chan) (s : State) : (releaseGroup c s).planned = s.planned := by
  unfold releaseGroup
  split
  · rfl
  · dsimp only
    split <;> simp [startCal, State.modCal]

@[simp] theorem dropInject_planned (c : Chan) (status : Nat) (s : State) : (dropInject c status s).planned = s.planned := by
  unfold dropInject
  split
  · rfl
  · dsimp only
    unfold finishInject
    split <;> simp [releaseCal]

@[simp] theorem dropUnslotted_planned (s : State) (c : Chan) : (dropUnslotted s c).planned = s.planned := by
  unfold dropUnslotted
  split
  · split <;> simp
  · rfl

@[simp] theorem judgeBounds_planned (s : State) : (judgeBounds s).planned = s.planned := by
  have hlate : (judgeLate s).planned = s.planned := by
    refine forEach_planned _ _ (fun u p => ?_) s
    dsimp only
    split <;> simp
  unfold judgeBounds announceBounds
  exact (forEach_planned _ _ (fun u d => by simp [sendFeedReq]) _).trans ((State.modRed_planned _ _).trans hlate)

/-- At its edge a plan is what the flip of the banks makes it (R217). -/
theorem activatePlan_planned (e : Nat) (s : State) : ∃ lc, (activatePlan e s).planned = flipBanks e lc s.planned := by
  have hplan : (ageTrips (atTk e s)).planned = s.planned := (ageTrips_planned (atTk e s)).trans (planned_of_still (atTk_still e s))
  refine ⟨(ageTrips (atTk e s)).lcN, ?_⟩
  rw [← hplan]
  unfold activatePlan
  rw [judgeBounds_planned, forEach_planned _ _ dropUnslotted_planned, raise_planned, forEach_planned _ _ (toCyclic_planned _)]
  generalize ageTrips (atTk e s) = u
  rfl

theorem shadowId_ne_activeBank (p : Plan) : p.activeBank ≠ p.shadowId := by
  unfold Plan.shadowId
  split <;> omega

/-- The bank that becomes active keeps its words. -/
theorem flipBanks_shadow (e lc : Nat) (p : Plan) : (flipBanks e lc p).banks[p.shadowId] = p.banks[p.shadowId] := by
  simp [flipBanks, Fin.val_ne_of_ne (shadowId_ne_activeBank p)]

/-- A plan just flipped in stands before its first frame, its words the shadow bank's (R213, R217). -/
theorem flippedPlan_stands {p q : Plan} {e lc : Nat} (h : q = flipBanks e lc p) :
    q.active = true ∧ q.swap = none ∧ q.activeBank = p.shadowId ∧ q.segment = 0 ∧ q.frameTk = e ∧ q.firstFrame = true ∧
    (q.banks[q.activeBank]).words = (p.banks[p.shadowId]).words := by
  subst h
  exact ⟨rfl, rfl, rfl, rfl, rfl, rfl, congrArg Bank.words (flipBanks_shadow e lc p)⟩

/-! Realignment of TK (R229, R237). -/

/-- Every driver off: setts, channels and free values alone differ, and no driver drives (R237). -/
theorem driversOff (s : State) : ∃ (setts : Vector Sett 48) (chans : Vector Channel 384) (free : Nat),
    forEach allSetts (fun u k => driverOut k u) s = { s with setts := setts, chans := chans, free := free } ∧
    ∀ k : SettId, (setts[k]).driving = false :=
  ⟨_, _, _, eq_of_undriven (forEach_keeps State.undriven _ (fun u k => driverOut_undriven k u) _ s),
    fun k => forEach_driverOut_off allSetts k s (.inl (List.mem_finRange k))⟩

/-- TK loaded from network time with everything that waits for a tick on the new scale, the setts and channels given (R237). -/
def movedTk (r : Realign) (setts : Vector Sett 48) (chans : Vector Channel 384) (free : Nat) (s : State) : State :=
  let v := s.fabricTk
  moveAll s.tkN v.1 (firstTick s.plan.frameTicks (v.1 + 400)) { s with
    setts := setts, chans := chans, free := free
    time := { s.time with
      tk := BitVec.ofNat 64 v.1, tkPhase := v.2, eps := 0, realign := some { r with loaded := true, resumeFrom := v.1 + 400 } }
    plan := { s.plan with frameTk := v.1, frameLc := s.lcN * 256 - v.2 / 2 ^ 32 } }

theorem execTkAlignLoad_next {r : Realign} {s : State} (hr : s.time.realign = some r) (hstop : r.stopTk.isSome = true)
    (hload : r.loaded = false) (hconv : s.converting = false) :
    ∃ (setts : Vector Sett 48) (chans : Vector Channel 384) (free : Nat),
      execTkAlignLoad s = .next (realignPrjs s.fabricTk.1 (movedTk r setts chans free s)) ∧ ∀ k : SettId, (setts[k]).driving = false := by
  obtain ⟨setts, chans, free, hoff, hdrive⟩ := driversOff s
  refine ⟨setts, chans, free, ?_, hdrive⟩
  unfold execTkAlignLoad
  simp only [hr, hoff]
  rw [if_neg (by simp [hload, hconv, Option.isSome_iff_ne_none.mp hstop])]
  rfl

/-! Frame boundaries, swaps and restarts (R117, R196, R213, R588). -/

/-- The sequencer is stepping a plan. -/
theorem sequencer_runs {s : State} (hserved : s.served = true) (hsclk : s.time.sclk = true) (hactive : s.plan.active = true)
    (hstop : s.plan.stopped = false) : (s.served && s.time.sclk && s.plan.active && !s.plan.stopped) = true := by
  simp [hserved, hsclk, hactive, hstop]

/-- The banks change roles at a plan's edge, and its sequencer starts anew (R213, R217). -/
theorem execPlanSwapEdge_next {e : Nat} {s : State} (hswap : s.plan.swap = some e) (hserved : s.served = true)
    (hsclk : s.time.sclk = true) (hstop : s.plan.stopped = false) : execPlanSwapEdge s = .next (activatePlan e s) := by
  simp [execPlanSwapEdge, hswap, hserved, hsclk, hstop]

/-- A driver that the plan has on drives exactly where it may (R117, R125). -/
theorem followPlan_on {k : SettId} {u : State} (hon : (u.setts[k]).planOn = true) (hmay : u.mayDrive k = true) :
    followPlan k u = switchDriver k true u := if_pos (Bool.and_eq_true_iff.mpr ⟨hon, hmay⟩)

theorem followPlan_off {k : SettId} {u : State} (h : (u.setts[k]).planOn = false ∨ u.mayDrive k = false) : followPlan k u = u :=
  if_neg (h.elim (fun hoff => by rw [hoff, Bool.false_and]; exact Bool.false_ne_true)
    fun hmay => by rw [hmay, Bool.and_false]; exact Bool.false_ne_true)

/-- Settles O34: the sequencer's rows act at their own tick, and TK is loaded with every driver off. -/
theorem planRows : Obligations.PlanRows := by
  refine ⟨fun f s hserved hsclk hactive hstop => ?boundary, fun e s hswap hserved hsclk hstop => ?swap, fun k a s hrestart => ?restart,
    fun k u => ⟨?_, followPlan_on, followPlan_off⟩, fun r s hr hstop hserved hsclk => ?stop, fun r s hr hstop hload hconv => ?load⟩
  case boundary =>
    have run : exec (.planFrameBoundary f) s = .next _ := guardNext_pos (sequencer_runs hserved hsclk hactive hstop)
    refine ⟨fun hfirst => ⟨_, run.trans (congrArg _ (if_pos hfirst)), rfl⟩, fun hfirst hlater => ?_, fun e hfirst hswap hdue => ?_⟩
    · have hlate : ¬ (match s.plan.swap with
          | some e => decide (e ≤ s.plan.frameTk + s.plan.bank.frameTicks)
          | none => false) = true := by
        cases hswap : s.plan.swap with
        | none => exact Bool.false_ne_true
        | some e => simpa using hlater e hswap
      refine ⟨_, run.trans (congrArg _ ((if_neg (ne_true_of_eq_false hfirst)).trans (if_neg hlate))), ?_⟩
      simp only [State.modPlan, atTk_plan]
    · refine run.trans (congrArg _ ((if_neg (ne_true_of_eq_false hfirst)).trans (if_pos ?_)))
      simp only [hswap, hdue, decide_true]
  case swap =>
    obtain ⟨lc, hplan⟩ := activatePlan_planned e s
    rw [State.planned_eq, State.planned_eq] at hplan
    exact ⟨_, execPlanSwapEdge_next hswap hserved hsclk hstop, rfl, flippedPlan_stands hplan⟩
  case restart =>
    simp only [exec, execSettRestart, hrestart, State.modSett, State.modUnitS, State.modHealth]
  · by_cases h : ((u.setts[k]).planOn && u.mayDrive k) = true
    · exact .inl (if_pos h)
    · exact .inr (if_neg h)
  case stop =>
    simp only [exec, execTkAlignStop, hr]
    rw [if_neg (by simp [hstop, hserved, hsclk])]
    rfl
  case load =>
    obtain ⟨setts, chans, free, run, hoff⟩ := execTkAlignLoad_next hr hstop hload hconv
    refine ⟨_, movedTk r setts chans free s, run, rfl, rfl, rfl, rfl, fun k => ⟨?_, ?_, ?_, fun hstart => ?_⟩, rfl, rfl, rfl⟩
    · simpa [movedTk, moveAll, moveSett] using hoff k
    · simp [movedTk, moveAll, moveSett]
    · simp [movedTk, moveAll]
    · obtain ⟨b, hb⟩ := Option.isSome_iff_exists.mp hstart
      simp [movedTk, moveAll, show (s.chains[k.val]).startAt = some b from hb]

end Sys2Proof.Machine

namespace Sys2Proof.Machine

/-! Margins (R561). -/

/-- A margin of the rows that MARGIN_SAMPLE samples, its unit measured. -/
theorem samples_guard {m : Fin 24} {s : State} (hserved : s.served = true) (hbg : ¬ (8 ≤ m.val ∧ m.val < 12))
    (heye : ¬ (16 ≤ m.val ∧ m.val < 20)) (hrun : s.marginRuns m = true) :
    (s.served && !(8 ≤ m.val && m.val < 12) && !(16 ≤ m.val && m.val < 20) && s.marginRuns m) = true := by
  simp only [hserved, hrun, Bool.true_and, Bool.and_true, Bool.and_eq_true, Bool.not_eq_true', ← Bool.decide_and, decide_eq_false_iff_not]
  exact ⟨hbg, heye⟩

/-- A margin with an interval of its own takes its sample at the end of it (R561). -/
theorem execMarginSample_timed {m : Fin 24} {v : Int} {s : State} {ns : Nat}
    (hrun : (s.served && !(8 ≤ m.val && m.val < 12) && !(16 ≤ m.val && m.val < 20) && s.marginRuns m) = true)
    (hns : marginEvery m = some ns) : execMarginSample m v s = .next (
      let s1 := atLc (s.health.margins[m]).nextAt s
      { s1 with health := { s1.health with margins := vmod s1.health.margins m fun x =>
        { x with nextAt := s1.lcN + ns, samples := x.samples + 1, sum := x.sum + v } } }) := by
  refine (guardNext_pos hrun).trans ?_
  simp only [hns, sampleMargin, modMargin, State.modHealth, vmod_vmod]

/-- Any other takes the value its row gives or its register holds (R561). -/
theorem execMarginSample_untimed {m : Fin 24} {v : Int} {s : State}
    (hrun : (s.served && !(8 ≤ m.val && m.val < 12) && !(16 ≤ m.val && m.val < 20) && s.marginRuns m) = true)
    (hns : marginEvery m = none) : execMarginSample m v s = .next (sampleMargin m (s.heldValue m v) s) := by
  refine (guardNext_pos hrun).trans ?_
  simp only [hns]

/-! Comparisons of the references (R19, R205). -/

/-- The end of a comparison isolates no den (R205). -/
theorem isolated_compareEnd (d j : DenId) (tk : Nat) (s : State) :
    (((atTk tk s).modDen d fun x => { x with compareTk := none }).dens[j]).isolated = (s.dens[j]).isolated := by
  simp only [State.modDen_dens, atTk_dens, Fin.getElem_fin, getElem_vmod]
  split <;> rfl

/-- What the end of a comparison comes to (R19, R205, R557). -/
theorem execRefCompareDone_next {d : DenId} {ppm : Int} {a : Nat} {s : State} (hdue : (s.dens[d]).compareTk = some a) :
    execRefCompareDone d ppm s = .next (
      let s1 := (atTk (a + 400) s).modDen d fun x => { x with compareTk := none }
      let s2 := sampleMargin ⟨8 + d.val, by omega⟩ ppm.natAbs
        (s1.modDen d fun x => { x with compareFailed := some (decide (500 < ppm.natAbs)) })
      if (s.dens[d]).isolated || (s.dens[nextDen d]).isolated then s1
      else if decide (500 < ppm.natAbs) then judgeDens d (reportCompare d (w32 ppm.natAbs) s2) else s2) := by
  unfold execRefCompareDone
  simp only [hdue, isolated_compareEnd]

/-- Settles O39: each row of the health unit acts at its instant where its guard holds. -/
theorem healthRows : Obligations.HealthRows := by
  refine ⟨fun m v s hserved hbg heye => ⟨fun hm hrun => ?ring, fun hm => ?dram, fun hm h20 h21 hrun => ?held, fun hrun => ?off⟩,
    fun m s => rfl, fun m v s => rfl, fun p scan s hserved hsafe hrx hscan => ?eye, fun s hserved htclk => ?fold,
    fun s hserved htclk hbase => ?baseline, fun d ppm a s hdue => ?compare, fun r rs s hrestores => ?restore⟩
  case ring =>
    exact execMarginSample_timed (samples_guard hserved hbg heye hrun) (by simp [marginEvery, hm])
  case dram =>
    have hrun : s.marginRuns m = true := by rcases hm with h | h <;> simp [State.marginRuns, h]
    refine execMarginSample_timed (samples_guard hserved hbg heye hrun) ?_
    rcases hm with h | h <;> simp [marginEvery, h, hourNs]
  case held =>
    have hnone : marginEvery m = none := by simp [marginEvery, h20, h21, Nat.not_lt.mpr hm]
    exact execMarginSample_untimed (samples_guard hserved hbg heye hrun) hnone
  case off =>
    exact congrArg _ (if_neg (by simp [hrun]))
  case eye =>
    have hguard : (s.served && s.sup.mode != .safeCore && (s.lane p).rx == .up && (s.lane p).scan.isNone) = true := by
      simp [hserved, hsafe, hrx, hscan]
    exact ⟨fun hp => (guardNext_pos hguard).trans (congrArg _ (if_pos hp)),
      fun hp => (guardNext_pos hguard).trans (congrArg _ (if_neg (Nat.not_lt.mpr hp)))⟩
  case fold =>
    exact ⟨_, guardNext_pos (by simp [hserved, htclk]), rfl⟩
  case baseline =>
    exact ⟨_, guardNext_pos (by simp [hserved, htclk, hbase]), rfl⟩
  case compare =>
    have run : exec (.refCompareDone d ppm) s = .next _ := execRefCompareDone_next hdue
    refine ⟨fun hiso => ?_, fun hd hnext hgood => ?_, fun hd hnext hbad => ?_⟩
    · exact run.trans (congrArg _ (if_pos (Bool.or_eq_true_iff.mpr hiso)))
    · have hin : ¬ ((s.dens[d]).isolated || (s.dens[nextDen d]).isolated) = true := by rw [hd, hnext]; decide
      exact run.trans (congrArg _ ((if_neg hin).trans (if_neg (by simpa using hgood))))
    · have hin : ¬ ((s.dens[d]).isolated || (s.dens[nextDen d]).isolated) = true := by rw [hd, hnext]; decide
      exact run.trans (congrArg _ ((if_neg hin).trans (if_pos (by simpa using hbad))))
  case restore =>
    simp only [exec, execChanRestoreEffect, hrestores, State.modHealth, atTk_health]

end Sys2Proof.Machine

namespace Sys2Proof.Machine

/-! Every command answers, and a block that no debug instruction waits for runs on (R61). -/

/-- A port without its rails ignores every instruction (R61). -/
theorem execJtagInstruction_dead (op : JtagOp) (pins : List Bool) {s : State} (h : s.jtagLive = false) :
    execJtagInstruction op pins s = .next s := by
  simp [execJtagInstruction, h]

/-- A debug instruction stops the block exactly where the port is live and debug access is open (R61, R519). -/
theorem execJtagInstruction_debugOp (pins : List Bool) (s : State) :
    execJtagInstruction .debugOp pins s = if s.jtagLive && s.debugOpen then .refused .debugInstruction else .next s := by
  cases hlive : s.jtagLive with
  | false => exact execJtagInstruction_dead .debugOp pins hlive
  | true => exact execJtagInstruction_live .debugOp pins hlive

/-- A dead port answers every JTAG instruction, a live one every instruction that R61 gives an effect. -/
theorem execJtagInstruction_answers (op : JtagOp) (pins : List Bool) (s : State) (h : op ≠ .debugOp) :
    ∃ t, execJtagInstruction op pins s = .next t := by
  cases hlive : s.jtagLive with
  | false => exact ⟨s, execJtagInstruction_dead op pins hlive⟩
  | true =>
    have run := execJtagInstruction_live op pins hlive
    cases op with
    | debugOp => exact absurd rfl h
    | _ => exact ⟨_, run⟩

/-- A JTAG instruction is the only command whose meaning can refuse: any other one gives a next state outright, the state itself
where its guard fails. -/
theorem exec_answers (c : Instr) (s : State) (h : c.isDebugOp = false) : ∃ t, exec c s = .next t := by
  cases c with
  | jtagInstruction op pins =>
    refine execJtagInstruction_answers op pins s ?_
    rintro rfl
    exact Bool.noConfusion h
  | _ => exact ⟨_, rfl⟩

/-- Settles O2: every meaning but that of a JTAG debug instruction ends in a next state. -/
theorem everyCommandAnswers : Obligations.EveryCommandAnswers :=
  ⟨exec_answers, execJtagInstruction_debugOp⟩

/-- No debug instruction of the JTAG port waits in the queue: what keeps the block running. -/
def State.NoDebugWaits (s : State) : Prop := ∀ c ∈ s.pending, c.isDebugOp = false

/-- The front command answers, and the queue it leaves is the rest of one without a debug instruction. -/
theorem step_keeps_noDebugWaits (s : State) (h : s.NoDebugWaits) : ∃ t, step s = .next t ∧ t.NoDebugWaits := by
  have answers : ∃ t, step s = .next t := by
    unfold step
    split
    · exact ⟨idle s, rfl⟩
    · rename_i c rest hqueue
      exact exec_answers c _ (h c (by simp [hqueue]))
  obtain ⟨t, hstep⟩ := answers
  have hqueue : t.pending = s.pending.tail := (commandKeepsQueueAndDie s t hstep).2
  exact ⟨t, hstep, fun c hc => h c (List.mem_of_mem_tail (hqueue ▸ hc))⟩

/-- Settles O6: each step answers and hands on a queue without a debug instruction, so the next one answers too. -/
theorem runsNeverStop : Obligations.RunsNeverStop := by
  intro k
  induction k with
  | zero => exact fun _ _ => trivial
  | succ k ih =>
    intro s h
    obtain ⟨t, hstep, ht⟩ := step_keeps_noDebugWaits s h
    exact ⟨t, hstep, ih t ht⟩

end Sys2Proof.Machine

namespace Sys2Proof.Machine

/-! Requests by what their effect keeps and how they answer (R444, R453, R543). -/

/-- A request whose effect keeps every resource of R543 is answered with its own words, on a paired hub too. -/
theorem serve_within (sp : CmdSpec) (p : Packet) (s s1 : State) (c : Ctx) (ws : List Word) (t : State)
    (h : admitted sp.code p s = some (c, s1)) (ha : sp.access c p.params s1 = true) (hm : sp.mode p.params s1 = stOk)
    (hl : sp.length p.params = true) (hb : sp.body c p.params s1 = .done stOk ws t) (ht : t.overLimits = s1.overLimits) :
    serve sp p s = replied sp.code p s1 stOk ws t :=
  serve_done sp p s s1 c stOk ws t h ha hm hl hb (by rw [State.breaksLimits_same ht, Bool.and_false])

/-- A request whose reply carries a MAC under a key of its own (R453). -/
theorem serve_keyed (sp : CmdSpec) (p : Packet) (s s1 : State) (c : Ctx) (st : Nat) (ws : List Word) (key : List Byte) (t : State)
    (h : admitted sp.code p s = some (c, s1)) (ha : sp.access c p.params s1 = true) (hm : sp.mode p.params s1 = stOk)
    (hl : sp.length p.params = true) (hb : sp.body c p.params s1 = .keyed st ws key t) :
    serve sp p s = .next (answerWith sp.code p (some key) st ws t) := by
  rw [serve_admitted sp p s s1 c h, runSpec_admitted sp p s s1 c h ha hm hl, hb]

end Sys2Proof.Machine

namespace Sys2Proof.Machine

/-! The reset sources and the release (R29, R66, R71 to R80). -/

theorem powered_of_mode {s : State} (h : s.sup.mode ≠ .off) : s.powered = true := bne_iff_ne.mpr h

/-- Time alone changes nothing of the supervisor, so an effect on it at a later instant starts from what it is now. -/
theorem modSup_atAon (ns : Nat) (s : State) (f : Sup → Sup) : (atAon ns s).modSup f = { atAon ns s with sup := f s.sup } := by
  rw [State.modSup, atAon_sup]

theorem followReset_eq (now : Nat) (u : Sup) : followReset now u =
    { u with resetEntry := if u.lastSysReset.isSome && u.resetEntry.isNone then some now else u.resetEntry } := by
  unfold followReset
  split <;> rfl

theorem enterStartup_eq (s : State) : enterStartup s = { s with
    sup := { s.sup with
      mode := .startup
      startCount := satInc s.sup.startCount
      resetEntry := if s.sup.lastSysReset.isSome && s.sup.resetEntry.isNone then some s.time.aonNs else s.sup.resetEntry }
    boot := { Startup.reset with releaseAt := s.time.aonNs } } := by
  simp only [enterStartup, State.modSup, followReset_eq]
  rfl

/-- The release before the start conditions are judged: RESET_STATUS rewritten and the pair's pins read (R66, R77, R533). -/
def released (high : Bool) (s : State) : State :=
  { s with
    sup := rewriteCauses s.sup
    boot := { Startup.reset with releaseAt := s.time.aonNs }
    pair := { s.pair with ownLine := high, standby := s.sup.straps.pairRole, cold := false } }

theorem execInternalResetRelease_next {high : Bool} {s : State} (hreset : s.sup.inReset = true) (hon : s.sup.mode ≠ .off)
    (hend : s.sup.src.ended = true) (hlatched : s.sup.straps.latched = true) :
    execInternalResetRelease high s = .next (
      if s.sup.startConditions true then
        if high then enterSync (enterStartup (released high s)) else enterStartup (released high s)
      else released high s) :=
  guardNext_pos (by simp [hreset, powered_of_mode hon, hend, hlatched])

theorem sysResetBody_first {c : Ctx} {ws : List Word} {s : State} (hresv : resv (pw ws 0) 31 1 = true)
    (hpair : bit (pw ws 0) 0 = true ∨ s.pair.paired = false) (hfree : s.sup.sysResetDue = none) :
    sysResetBody c ws s = .done stOk [] { s with sup := { s.sup with
      sysResetDue := some (bit (pw ws 0) 0, s.time.aonNs + 1000000), lastSysReset := some c.packet.reqId, resetEntry := none } } := by
  have hcheck : ¬ (!resv (pw ws 0) 31 1 || (!bit (pw ws 0) 0 && s.pair.paired)) = true := by
    rcases hpair with h | h <;> simp [hresv, h]
  exact (if_neg hcheck).trans (by rw [hfree]; rfl)

theorem execSysResetSourceActive_due {restart : Bool} {due : Nat} {s : State} (h : s.sup.sysResetDue = some (restart, due)) :
    execSysResetSourceActive s = .next ((pulseBy 4 (fun r => { r with cmd := true }) (atAon due s)).modSup fun u =>
      { u with hold := u.hold || !restart }) := by
  rw [execSysResetSourceActive, h]

/-- Settles O15: each source begins and ends as its row says, and the release starts the hub exactly under the start conditions. -/
theorem resetSourcesAndRelease : Obligations.ResetSourcesAndRelease := by
  refine ⟨fun s hon hpin => guardNext_pos (by simp [powered_of_mode hon, hpin]), fun n s hpin => ⟨_, guardNext_pos hpin, ?_, ?_, rfl⟩,
    fun pr ft bs s hreset hon hpin hlatched hseen => guardNext_pos ?_, fun high s hreset hon hend hlatched => ?release,
    fun p s s1 c hadm heng hlen hresv hpair hfree => ?sysReset, fun restart due s hdue => ⟨_, execSysResetSourceActive_due hdue, rfl⟩,
    fun s hcmd => (guardNext_pos hcmd).trans (congrArg _ (modSup_atAon _ _ _)),
    fun s hon hlock => ⟨_, guardNext_pos (by simp [powered_of_mode hon, hlock]), rfl⟩,
    fun s hclock => (guardNext_pos hclock).trans (congrArg _ (modSup_atAon _ _ _))⟩
  · simp
  · simp
  · rcases hseen with h | h <;> simp [hreset, powered_of_mode hon, hpin, hlatched, h]
  case release =>
    refine ⟨_, execInternalResetRelease_next hreset hon hend hlatched, ?_⟩
    cases hstart : s.sup.startConditions true with
    | false => exact ⟨rfl, rfl, rfl, rfl, rfl, nofun, fun _ => ⟨rfl, rfl⟩, rfl⟩
    | true =>
      rw [enterStartup_eq]
      cases high with
      | false => exact ⟨rfl, rfl, rfl, rfl, rfl, fun _ => ⟨rfl, rfl, rfl, nofun⟩, nofun, rfl⟩
      | true => exact ⟨rfl, rfl, rfl, rfl, rfl, fun _ => ⟨rfl, rfl, rfl, fun _ => ⟨rfl, rfl⟩⟩, nofun, rfl⟩
  case sysReset =>
    exact serve_within sysResetSpec p s s1 c [] _ hadm heng rfl (by simp [sysResetSpec, hlen]) (sysResetBody_first hresv hpair hfree) rfl

end Sys2Proof.Machine

namespace Sys2Proof.Machine

/-! Steps 0x2 to 0x4 (R85 to R90, R260). -/

/-- BOOT_SRC says how step 0x5 begins: it waits for the host, has no source at all, or reads the flash (R57, R88). -/
theorem beginFirmware_eq (s : State) : beginFirmware s =
    let s1 : State := { s with boot := { s.boot with fwMem := true } }
    if s.sup.straps.bootSrc = 1 then { s1 with boot := { s1.boot with waitHost := true, failCode := 0x00 } }
    else if s.sup.straps.bootSrc = 3 then failStart 0x22 s1 else s1 := by
  have codes : ∀ b : BitVec 2, b = 0 ∨ b = 1 ∨ b = 2 ∨ b = 3 := by decide
  unfold beginFirmware
  rcases codes s.sup.straps.bootSrc with h | h | h | h <;> rw [h] <;> rfl

@[simp] theorem getElem_vmapI {α β : Type} {n : Nat} (v : Vector α n) (f : Fin n → α → β) (j : Nat) (hj : j < n) :
    (vmapI v f)[j] = f ⟨j, hj⟩ v[j] := by
  simp [vmapI]

theorem takeMaps_maps (hits : List (List Nat)) (s : State) (i : Fin 66) : (takeMaps hits s).tdc.maps[i] = histMap (hits.getD i.val []) := by
  simp [takeMaps]

theorem takeMaps_inl (hits : List (List Nat)) (s : State) (i : Fin 66) :
    (takeMaps hits s).tdc.inl[i] = mapInl (histMap (hits.getD i.val [])) := by
  simp [takeMaps]

/-- One good histogram for each interpolator gives every one of them its map (R260, R261). -/
theorem execInterpolatorCalDone_good {hits : List (List Nat)} {s : State} (hstart : s.booting = true ∨ s.deferring = true)
    (hplls : s.boot.plls = true) (hinterp : s.boot.interp = false) (hlen : hits.length = 66) (hgood : hits.any histBad = false) :
    execInterpolatorCalDone hits s = .next ((takeMaps hits s).modBoot fun b => { b with interp := true }) :=
  (guardNext_pos (by simpa [hplls, hinterp] using hstart)).trans (congrArg _ (if_neg (by simp [hlen, hgood])))

theorem execInterpolatorCalDone_bad {hits : List (List Nat)} {s : State} (hstart : s.booting = true ∨ s.deferring = true)
    (hplls : s.boot.plls = true) (hinterp : s.boot.interp = false) (hbad : hits.length ≠ 66 ∨ hits.any histBad = true) :
    execInterpolatorCalDone hits s = .next (failStart 0x13 s) :=
  (guardNext_pos (by simpa [hplls, hinterp] using hstart)).trans (congrArg _ (if_pos (by simpa using hbad)))

/-- Settles O18: each part of steps 0x2 to 0x4 is its operation under its guard, and a late one is `lateStep`. -/
theorem startupHardwareSteps : Obligations.StartupHardwareSteps := by
  refine ⟨fun s hboot hdom => guardNext_pos (by simp [hboot, hdom]),
    fun s hboot hdom hplls hsysref => guardNext_pos (by simp [hboot, hdom, hplls, hsysref]),
    fun s hboot hplls hmem => ?firmwareMemory, fun s hboot hplls hmem hsram => ?sram, fun s hboot hplls howl => ?owl,
    fun s hstart hplls hdram => ?dram, fun d s hserved hplls hset => guardNext_pos (by simpa [hserved, hplls] using hset),
    fun d s hboot hplls hden => ⟨_, guardNext_pos (by simpa [hboot, hplls] using hden), rfl⟩,
    fun hits s hstart hplls hinterp => ⟨execInterpolatorCalDone_bad hstart hplls hinterp, fun hlen hgood => ?maps⟩,
    fun w s hlate => ⟨lateStep w s, guardNext_pos hlate, ?late⟩⟩
  case firmwareMemory =>
    have due : (s.booting && s.boot.plls && !s.boot.fwMem) = true := by simp [hboot, hplls, hmem]
    exact ⟨guardNext_pos due, (guardNext_pos due).trans (congrArg _ (beginFirmware_eq s))⟩
  case sram =>
    have due : (s.booting && s.boot.plls && (s.boot.fwMem && !s.boot.sram)) = true := by simp [hboot, hplls, hmem, hsram]
    exact ⟨guardNext_pos due, guardNext_pos due⟩
  case owl =>
    have due : (s.booting && s.boot.plls && !s.boot.owlTest) = true := by simp [hboot, hplls, howl]
    exact ⟨guardNext_pos due, guardNext_pos due⟩
  case dram =>
    have due : ((s.booting || s.deferring) && s.boot.plls && !s.boot.dram) = true := by simpa [hplls, hdram] using hstart
    exact ⟨guardNext_pos due, guardNext_pos due⟩
  case maps =>
    refine ⟨_, execInterpolatorCalDone_good hstart hplls hinterp hlen hgood, fun i => ⟨takeMaps_maps hits s i, takeMaps_inl hits s i⟩, ?_⟩
    simp only [takeMaps, State.modTdc, State.modBoot]
  case late =>
    refine ⟨?_, ?_, ?_, ?_, ?_, ?_, ?_, ?_, ?_, ?domains, ?takeover⟩ <;> rintro rfl
    case domains => exact ⟨_, rfl⟩
    case takeover => exact ⟨_, rfl⟩
    all_goals rfl

end Sys2Proof.Machine

namespace Sys2Proof.Machine

/-! The register window (R439, R440, R464, R465). -/

theorem writeWord_readOnly {off : Nat} (w : Word) (s : State) (h : writable off = none) : writeWord off w s = ignoreWrite s := by
  rw [writeWord, h]

theorem writeWord_refused {off : Nat} {w res : Word} {hard : Bool} {s : State} (h : writable off = some (res, hard))
    (hbad : w &&& res ≠ 0 ∨ (hard = false ∧ s.boot.fwRuns = false)) : writeWord off w s = ignoreWrite s := by
  rw [writeWord, h]
  exact if_pos (by simpa using hbad)

/-- A write takes effect when its reserved bits are 0 and its word is served: by hardware, or by firmware that runs. -/
theorem writeWord_accepted {off : Nat} {w res : Word} {hard : Bool} {s : State} (h : writable off = some (res, hard))
    (hres : w &&& res = 0) (hserved : hard = true ∨ s.boot.fwRuns = true) : writeWord off w s = writeEffect off w s := by
  rw [writeWord, h]
  exact if_neg (by rcases hserved with hs | hs <;> simp [hres, hs])

/-- A write of one word on a live port. -/
theorem portWrite_accepted {off : Nat} {w res : Word} {hard : Bool} {s : State} (hlive : s.portLive = true)
    (h : writable off = some (res, hard)) (hres : w &&& res = 0) (hserved : hard = true ∨ s.boot.fwRuns = true) :
    portWrite off w s = .next (writeEffect off w s) :=
  (guardNext_pos hlive).trans (congrArg _ (writeWord_accepted h hres hserved))

/-- Firmware that does not run serves no write of its words (R440). -/
theorem portWrite_unserved {off : Nat} {w res : Word} {s : State} (hlive : s.portLive = true)
    (h : writable off = some (res, false)) (hstopped : s.boot.fwRuns = false) : portWrite off w s = .next (ignoreWrite s) :=
  (guardNext_pos hlive).trans (congrArg _ (writeWord_refused h (.inr ⟨rfl, hstopped⟩)))

/-- NT and the counter are the split values with a middle word (R465). -/
theorem middle_live {v : SplitValue} {s : State} (hlive : splitLive v s = true) (hmid : v = .nt ∨ v = .counter) :
    (splitLive v s && hasMiddle v) = true := by
  rcases hmid with rfl | rfl <;> rw [hlive] <;> rfl

/-- What the port does not know as an instruction (R439). -/
theorem instrOk_eq_false {i : Byte} {a : BitVec 16}
    (h : ¬ (i = 0x05 ∨ i = 0x12 ∨ i = 0x13 ∨ ((i = 0x0B ∨ i = 0x02) ∧ a &&& 0xF003 = 0))) : instrOk i a = false := by
  simp only [not_or, not_and] at h
  obtain ⟨h05, h12, h13, haddr⟩ := h
  unfold instrOk
  split
  · rename_i e; exact absurd (BitVec.eq_of_toNat_eq e) h05
  · rename_i e; exact absurd (BitVec.eq_of_toNat_eq e) h12
  · rename_i e; exact absurd (BitVec.eq_of_toNat_eq e) h13
  · rename_i e; simpa using haddr (.inl (BitVec.eq_of_toNat_eq e))
  · rename_i e; simpa using haddr (.inr (BitVec.eq_of_toNat_eq e))
  · rfl

theorem execRplRead_oldest {n : Nat} {r : List Byte} {rs : List (List Byte)} {s : State} (hlive : s.portLive = true)
    (h : s.cmd.replies = r :: rs) : execRplRead n s = .next (if r.length ≤ n then
      { s with cmd := { s.cmd with replies := rs, held := s.cmd.held - 1 } } else s) := by
  simp only [execRplRead, h, hlive, Bool.true_and, decide_eq_true_eq]
  rfl

/-- Settles O24: the port's rows act on a live port, and each write is `writeWord` at its own offset. -/
theorem registerWindow : Obligations.RegisterWindow := by
  refine ⟨fun v s hlive => guardNext_pos hlive, fun v s hlive hmid => ⟨fun ws hsnap => ?midSnap, fun hsnap => ?midTorn⟩,
    fun v s hlive => ⟨fun ws hsnap => ?lastSnap, fun hsnap => ?lastTorn⟩,
    fun a ws s hlive haddr => (guardNext_pos hlive).trans (congrArg _ (if_pos haddr)),
    fun a ws s hlive haddr => (guardNext_pos hlive).trans (congrArg _ (if_neg haddr)),
    fun off w ws s => ⟨rfl, rfl, writeWord_readOnly w s, fun res hard => writeWord_refused, fun hfw => ?filter⟩,
    fun s hlive => ⟨fun hfw => ?firmware, fun hstopped => ?stopped, ?_, ?_, ?_, ?_⟩,
    fun i a s hlive hbad => guardNext_pos (by rw [hlive, instrOk_eq_false hbad]; rfl),
    fun n r rs s hlive hreplies => execRplRead_oldest hlive hreplies⟩
  case filter => exact writeWord_accepted (res := 0) (hard := false) rfl (by simp) (.inr hfw)
  case firmware =>
    refine ⟨portWrite_accepted hlive rfl (by decide) (.inr hfw), portWrite_accepted hlive rfl (by decide) (.inr hfw),
      fun m => portWrite_accepted hlive rfl (by simp) (.inr hfw), fun v hv => portWrite_accepted hlive rfl hv (.inr hfw)⟩
  case stopped => exact ⟨portWrite_unserved hlive rfl hstopped, portWrite_unserved hlive rfl hstopped⟩
  case midSnap => exact (guardNext_pos (middle_live hlive hmid)).trans (by rw [hsnap]; rfl)
  case midTorn => exact (guardNext_pos (middle_live hlive hmid)).trans (by rw [hsnap]; rfl)
  case lastSnap => exact (guardNext_pos hlive).trans (by rw [hsnap]; rfl)
  case lastTorn => exact (guardNext_pos hlive).trans (by rw [hsnap]; rfl)
  all_goals exact portWrite_accepted hlive rfl (by decide) (.inl rfl)

end Sys2Proof.Machine

namespace Sys2Proof.Machine

/-! SYS_EVENTS_READ and SYS_CONFIG_READ (R100, R463). -/

theorem sysEventsBody_ok (c : Ctx) {w : Word} {s : State} (hresv : resv w 31 6 = true) (hlow : 1 ≤ bits w 4 0) (hhigh : bits w 4 0 ≤ 16) :
    sysEventsBody c [w] s =
      let got := fitNotices (bits w 4 0) 502 s.cmd.nq
      .done stOk
        (w32 (fld 0 5 got.length + fld 8 5 (if bit w 5 then s.cmd.nq.length - got.length else s.cmd.nq.length) + fld 16 8 s.cmd.nqLost.toNat) ::
          got.flatMap noticeWords)
        (if bit w 5 then { s with cmd := { s.cmd with nq := s.cmd.nq.drop got.length } } else s) := by
  unfold sysEventsBody
  simp only [pw, List.getD_cons_zero]
  rw [if_neg (by simp [hresv, Nat.ne_of_gt hlow, hhigh])]
  cases bit w 5 with
  | false => rfl
  | true => simp [State.modCmd]

/-- The image that SYS_CONFIG_READ answers from: FIRST builds it anew (R100). -/
def configImage (w gen : Word) (s : State) : List Word := if bit w 28 then buildBoot gen (bootSections s) else s.boot.cfgImage

theorem sysConfigBody_ok (c : Ctx) {w gen : Word} {s : State} (hresv : resv w 31 29 = true) (hoff : bits w 19 0 % 4 = 0)
    (hlow : 1 ≤ bits w 27 20) (hhigh : bits w 27 20 ≤ 128) (hgen : bit w 28 = true ∨ gen = 0)
    (hin : bits w 19 0 / 4 + bits w 27 20 ≤ (configImage w gen s).length) :
    sysConfigBody c [w, gen] s = .done stOk
      (w32 (4 * (configImage w gen s).length) :: ((configImage w gen s).drop (bits w 19 0 / 4)).take (bits w 27 20))
      { s with boot := { s.boot with cfgImage := configImage w gen s } } := by
  have hcheck : ¬ (!resv w 31 29 || bits w 19 0 % 4 != 0 || bits w 27 20 = 0 || 128 < bits w 27 20 || (!bit w 28 && gen != 0)) = true := by
    rcases hgen with h | h <;> simp [hresv, hoff, Nat.ne_of_gt hlow, hhigh, h]
  exact (if_neg hcheck).trans (if_neg (Nat.not_lt.mpr hin))

/-! SESSION_OPEN and SESSION_CLOSE (R453, R454). -/

/-- The lowest number that passes a test is the one found first. -/
theorem find?_finRange_of_least {n : Nat} {q : Fin n → Bool} {i : Fin n} (hi : q i = true) (hleast : ∀ j, q j = true → i ≤ j) :
    (List.finRange n).find? q = some i := by
  refine List.find?_eq_some_iff_getElem.mpr ⟨hi, i.val, by simp only [List.length_finRange, i.isLt], List.getElem_finRange _, fun j hj => ?_⟩
  rw [List.getElem_finRange, Bool.not_eq_true']
  exact Bool.eq_false_iff.mpr fun hq => absurd (hleast _ hq) (Nat.not_le.mpr hj)

theorem sessionIndex_succ {n : Byte} {i : Fin 8} (h : n.toNat = i.val + 1) : sessionIndex n = some i := by
  have hrange : 1 ≤ n.toNat ∧ n.toNat ≤ 8 := by omega
  rw [sessionIndex, dif_pos hrange]
  exact congrArg some (Fin.ext (by simp [h]))

theorem toNat_lowByte (w : Word) : (w.extractLsb' 0 8).toNat = bits w 7 0 := by
  simp [bits]

theorem sessionCloseBody_ok (c : Ctx) {w : Word} {i : Fin 8} (s : State) (hn : bits w 7 0 = i.val + 1) (hresv : resv w 31 8 = true) :
    sessionCloseBody c [w] s = .done stOk [] (closeSession i s) := by
  have hbyte : (w.extractLsb' 0 8).toNat = i.val + 1 := (toNat_lowByte w).trans hn
  have hne : w.extractLsb' 0 8 ≠ (0 : Byte) := fun h => by simp [h] at hbyte
  unfold sessionCloseBody
  simp only [pw, List.getD_cons_zero]
  rw [if_neg (by simpa [hresv] using hne), sessionIndex_succ hbyte]

/-- SESSION_CLOSE is for SERVICE and for the session that it comes on (R454). -/
theorem sessionCloseAccess_of {c : Ctx} {w : Word} {i : Fin 8} (hn : bits w 7 0 = i.val + 1) (h : accSvc c = true ∨ c.session = some i) :
    sessionCloseAccess c [w] = true := by
  rcases h with h | h
  · simp [sessionCloseAccess, h]
  · simp [sessionCloseAccess, h, pw, hn]

theorem openPhase0_ok (c : Ctx) {w : Word} (s : State) (hresv : resv w 31 1 = true) :
    openPhase0 c [w] s = .done stOk ((List.range 4).map fun k => w32 ((Config.random s.free).toNat / 2 ^ (32 * k)))
      { s with free := s.free + 1
               cmd := { s.cmd with nonces := { origin := c.packet.origin, value := Config.random s.free, since := s.lcN } :: s.cmd.nonces } } := by
  unfold openPhase0
  rw [if_neg (by simp [pw, hresv])]
  rfl

/-- PHASE 1's parameter words: the slot, N_B as it comes back, and what both proofs are made over (R453). -/
def namedSlot (ws : List Word) : Fin 8 := ⟨bits (pw ws 0) 3 1, Nat.mod_lt _ (by decide)⟩
def returnedNonce (ws : List Word) : BitVec 128 := BitVec.ofNat 128 (nat128 ((ws.drop 1).take 4))
def provedBytes (ws : List Word) : List Byte := bytesOfWords ((ws.drop 1).take 4) ++ bytesOfWords ((ws.drop 5).take 4)

/-- The key of a session opened with a slot's key (R453). -/
def sessionKey (key : List Byte) (ws : List Word) (i : Fin 8) : List Byte :=
  hmac key (ascii "NH384SK" ++ provedBytes ws ++ [BitVec.ofNat 8 (i.val + 1)])

/-- The session is open, its nonce is used up, and the slot has authenticated (R453, R520). -/
def sessionOpened (key : List Byte) (ws : List Word) (i : Fin 8) (s : State) : State :=
  { s with
    cmd := { s.cmd with
      sessions := vset s.cmd.sessions i (some { slot := namedSlot ws, key := sessionKey key ws i, usedAt := s.lcN, cache := Cache.empty })
      nonces := s.cmd.nonces.filter fun n => n.value != returnedNonce ws }
    prot := { s.prot with slots := vmod s.prot.slots (namedSlot ws) fun x => { x with fails := 0 } } }

/-- A good nonce and proof for an unlocked slot with a key open the lowest free session (R453, R520). -/
theorem openPhase1_ok (c : Ctx) {ws : List Word} {s : State} {key : List Byte} {i : Fin 8} (hresv : resv (pw ws 0) 31 4 = true)
    (hlock : s.lockedOut (namedSlot ws) = false)
    (hnonce : s.cmd.nonces.any (nonceGood c.packet.origin (returnedNonce ws) s.lcN) = true)
    (hkey : (s.prot.slots[namedSlot ws]).key = some key)
    (hproof : (hmac key (ascii "NH384PF" ++ provedBytes ws ++ [BitVec.ofNat 8 (namedSlot ws).val])).take 16 =
      bytesOfWords ((ws.drop 9).take 4))
    (hleast : ∀ j : Fin 8, (s.openSession j).isNone = true → i ≤ j) (hfree : (s.openSession i).isNone = true) :
    openPhase1 c ws s = .keyed stOk [w32 (fld 0 8 (i.val + 1) + fld 8 4 (s.prot.slots[namedSlot ws]).roles.toNat)]
      (sessionKey key ws i) (sessionOpened key ws i s) := by
  simp only [namedSlot, returnedNonce, provedBytes] at hlock hnonce hkey hproof
  unfold openPhase1
  simp only [hresv, hlock, hnonce, hkey, hproof, find?_finRange_of_least hfree hleast, Bool.not_true, Bool.false_eq_true, if_false,
    Bool.false_or, bne_self_eq_false]
  rfl

/-- Settles O26: each command is admitted, within its own checks, and its reply is that of its body. -/
theorem systemCommands : Obligations.SystemCommands := by
  refine ⟨fun p s s1 c h hacc hp => ?info, fun p s s1 c w h hp hacc hresv hlow hhigh => ?events,
    fun p s s1 c w gen h hp hacc hmode hfw hresv hoff hlow hhigh hgen hin => ?config,
    fun p s s1 c w h hacc hp hphase hresv hsess => ?phase0,
    fun p s s1 c key i h hacc hlen hphase hresv hsess hlock hnonce hkey hproof hleast hfree => ?phase1,
    fun p s s1 c w i h hp hn hresv hacc => ?close⟩
  case info => exact serve_within sysInfoSpec p s s1 c _ s1 h rfl rfl (by rw [hp]; rfl) (by rw [hp]; rfl) rfl
  case events =>
    refine serve_within sysEventsSpec p s s1 c _ _ h (by rw [hp]; exact hacc) rfl (by rw [hp]; rfl)
      (by rw [hp]; exact sysEventsBody_ok c hresv hlow hhigh) ?_
    split <;> rfl
  case config =>
    exact serve_within sysConfigSpec p s s1 c _ _ h rfl (by simp [sysConfigSpec, modeIf, hmode, hfw]) (by rw [hp]; rfl)
      (by rw [hp]; exact sysConfigBody_ok c hresv hoff hlow hhigh hgen hin) rfl
  case phase0 =>
    have hbody : sessionOpenBody c p.params s1 = openPhase0 c [w] s1 := by simp [sessionOpenBody, hp, pw, hphase, hsess]
    exact serve_within sessionOpenSpec p s s1 c _ _ h rfl rfl (by simp [sessionOpenSpec, hp, pw, hphase])
      (hbody.trans (openPhase0_ok c s1 hresv)) rfl
  case phase1 =>
    have hbody : sessionOpenBody c p.params s1 = openPhase1 c p.params s1 := by simp [sessionOpenBody, hphase, hsess]
    exact ⟨_, serve_keyed sessionOpenSpec p s s1 c _ _ _ _ h rfl rfl (by simp [sessionOpenSpec, hlen, hphase])
      (hbody.trans (openPhase1_ok c hresv hlock hnonce hkey hproof hleast hfree)), rfl, rfl⟩
  case close =>
    exact serve_within sessionCloseSpec p s s1 c [] _ h (by rw [hp]; exact sessionCloseAccess_of hn hacc) rfl (by rw [hp]; rfl)
      (by rw [hp]; exact sessionCloseBody_ok c s1 hn hresv) rfl

end Sys2Proof.Machine

namespace Sys2Proof.Machine

/-! The reset state. -/

/-- Settles O60: the reset state, evaluated; its vectors hold one reset value in every entry. -/
theorem resetValues : Obligations.ResetValues := by
  refine ⟨rfl, rfl, rfl, rfl, rfl, rfl, rfl, rfl, rfl, rfl, rfl, fun q => ?queues, rfl, rfl,
    fun p => ?ports, fun u => ?uplinks, rfl, fun n => ?outputs, by decide, by decide, by decide, by decide, rfl⟩
  case queues => simp [State.reset, Hoard.reset, Queue.reset]
  case ports => simp [State.lane, State.port, State.reset, Lanes.reset, Lane.reset, TxTaps.reset, Fab.reset, FabPort.reset]
  case uplinks => simp [State.reset, Fab.reset, Uplink.reset]
  case outputs => simp [State.reset, Owl.reset, So.reset]

end Sys2Proof.Machine

namespace Sys2Proof.Machine

/-! The entries of the plan (R111, R117, R119, R124, R136, R200 to R207, R212). -/

theorem State.modSett_modSett (s : State) (k : SettId) (f g : Sett → Sett) :
    (s.modSett k f).modSett k g = s.modSett k fun x => g (f x) :=
  congrArg (fun v => ({ s with setts := v } : State)) (vmod_vmod s.setts k f g)

/-- A driver held off is lost outside the plan, and its burst is broken (R124, R125). -/
theorem holdOff_modSett (s : State) (k : SettId) (f : Sett → Sett) : holdOff k (s.modSett k f) = s.modSett k fun x =>
    { f x with lost := true, burst := (f x).burst.map fun b => { b with broken := true } } := by
  simp only [holdOff, breakBurst, State.modSett_modSett]

theorem atTk_afeOn (n : Nat) (s : State) (d : DenId) : (atTk n s).afeOn d = s.afeOn d := by
  unfold State.afeOn State.blockSett
  rw [atTk_sup, atTk_owl]

/-- An entry of the frame in progress acts at the tick FRAME + OFFSET (R198, R200). -/
theorem stepEntry_due {type idx : Nat} {e : Word64} {s : State} (f : Word64 → State → State) (h : s.entryNow type idx = some e) :
    stepEntry type idx f s = .next (f e (atTk (s.plan.frameTk + eOffset e) s)) := by
  simp only [stepEntry, h]

/-- An index that is no entry of its row's type in the frame in progress does nothing. -/
theorem stepEntry_idle {type idx : Nat} {s : State} (f : Word64 → State → State) (h : s.entryNow type idx = none) :
    stepEntry type idx f s = .next s := by
  simp only [stepEntry, h]

theorem execRange_due {i : Fin 8192} {e : Word64} {k : SettId} {s : State} (h : s.entryNow 0x6 i.val = some e)
    (hk : finOf 48 (eTarget e) = some k) : execRange i s = .next
      (forEach (rangeChans k e) (rangeChan (BitVec.ofNat 3 (eArg e / 2 ^ 8))) (atTk (s.plan.frameTk + eOffset e) s)) :=
  (stepEntry_due _ h).trans (by simp only [hk])

/-- A comparison is noted unless a den of it is isolated or without its analogue supply (R26, R205). -/
theorem execCalStep_due {i : Fin 8192} {e : Word64} {d : DenId} {s : State} (h : s.entryNow 0x8 i.val = some e)
    (hd : finOf 4 (eTarget e) = some d) : execCalStep i s = .next
      (let u := atTk (s.plan.frameTk + eOffset e) s
       if (s.dens[d]).isolated = true ∨ (s.dens[nextDen d]).isolated = true ∨ s.afeOn d = false ∨ s.afeOn (nextDen d) = false then u
       else u.modDen d fun x => { x with compareTk := some u.tkN }) := by
  refine (stepEntry_due _ h).trans (congrArg _ ?_)
  simp only [hd, atTk_dens, atTk_afeOn, Bool.or_eq_true, Bool.not_eq_true', or_assoc]

/-! EXC_ON of a sett that runs with excitation, by what becomes of its driver (R117, R119, R125, R202, R212). -/

section
variable {k : SettId} {s : State} (hmode : (s.setts[k]).excMode ≠ 0) (hrun : (s.setts[k]).run = true)
include hmode hrun

/-- EXC_ON is executed on a running sett whose MODE drives (R117, R202). -/
theorem runs_with_excitation : ¬ ((s.setts[k]).excMode = 0 ∨ (!(s.setts[k]).run) = true) :=
  not_or.mpr ⟨hmode, by rw [hrun]; exact Bool.false_ne_true⟩

/-- The plan has a driving sett on as it is. -/
theorem excOnSett_driving (hdrive : (s.setts[k]).driving = true) :
    excOnSett s k = s.modSett k fun x => { x with planOn := true } :=
  (if_neg (runs_with_excitation hmode hrun)).trans (if_pos hdrive)

section
variable (hoff : (s.setts[k]).driving = false)
include hoff

/-- A sett that is isolated, shed or blocked by contention is held off. -/
theorem excOnSett_blocked (h : s.settOut k = true ∨ (s.setts[k]).shed = true ∨ (s.setts[k]).contention = true) :
    excOnSett s k = holdOff k (s.modSett k fun x => { x with planOn := true }) :=
  (if_neg (runs_with_excitation hmode hrun)).trans ((if_neg (ne_true_of_eq_false hoff)).trans
    (if_pos (by simpa only [Bool.or_eq_true, or_assoc] using h)))

/-- Above BUDGET the guard holds the driver and reports it. -/
theorem excOnSett_overBudget (hfree : (s.settOut k || (s.setts[k]).shed || (s.setts[k]).contention) = false)
    (hcount : (s.setts[k]).counted = false) (hover : s.overBudget k = true) :
    excOnSett s k = raise ((holdOff k (s.modSett k fun x => { x with planOn := true })).modPlan fun p => { p with budgetHold := true })
      0x1005 (w32 k.val :: words64 s.tkN) :=
  (if_neg (runs_with_excitation hmode hrun)).trans ((if_neg (ne_true_of_eq_false hoff)).trans
    ((if_neg (ne_true_of_eq_false hfree)).trans (if_pos (by rw [hcount, hover]; rfl))))

/-- Within BUDGET its ILIM counts, and the driver drives where it may. -/
theorem excOnSett_counted (hfree : (s.settOut k || (s.setts[k]).shed || (s.setts[k]).contention) = false)
    (hbudget : (s.setts[k]).counted = true ∨ s.overBudget k = false) :
    excOnSett s k =
      let u := s.modSett k fun x => { x with planOn := true, counted := true }
      if s.mayDrive k then switchDriver k true u else holdOff k u := by
  have hin : (!(s.setts[k]).counted && s.overBudget k) = false :=
    hbudget.elim (fun h => by rw [h]; rfl) fun h => by rw [h, Bool.and_false]
  refine (if_neg (runs_with_excitation hmode hrun)).trans ((if_neg (ne_true_of_eq_false hoff)).trans
    ((if_neg (ne_true_of_eq_false hfree)).trans ((if_neg (ne_true_of_eq_false hin)).trans ?_)))
  simp only [State.modSett_modSett]

end

end

/-- A burst starts in a running burst sett that has none and is not shed (R136, R202). -/
theorem burstSett_starts {k : SettId} {s : State} (code : Nat) (hrun : (s.setts[k]).run = true)
    (hmode : (s.setts[k]).burstMode = true) (hshed : (s.setts[k]).shed = false) (hnone : (s.setts[k]).burst = none) :
    burstSett code s k = s.modSett k fun x =>
      { x with burst := some { startTk := s.tkN, startLc := (s.lcOfTick s.tkN).toNat, len := BitVec.ofNat 2 code, 
                               broken := s.offPlan k || x.regLost } } :=
  if_pos (by simp only [hrun, hmode, hshed, hnone, Bool.not_false, Option.isNone_none, Bool.and_self])

/-- The budget guard lets a sett through that counts already or fits within BUDGET (R212). -/
theorem within_budget {k : SettId} {s : State}
    (h : (s.setts[k]).counted = true ∨ s.countedMa + (if s.countsIlim k then 0 else s.ilimMa k) ≤ s.plan.bank.budget) :
    (s.setts[k]).counted = true ∨ s.overBudget k = false :=
  h.imp_right fun hfits => decide_eq_false (Nat.not_lt.mpr hfits)

/-- Settles O33: an entry's rows act at its tick, unit by unit, and EXC_ON goes by what its driver may do. -/
theorem planEntryRows : Obligations.PlanEntryRows := by
  refine ⟨fun i e s => ⟨stepEntry_due _, stepEntry_due _, stepEntry_due _, stepEntry_due _, fun k h hk => execRange_due h hk,
      stepEntry_due _, fun d h hd => execCalStep_due h hd, fun h => ?window, fun h => ?mark⟩,
    fun i s => ⟨stepEntry_idle _, stepEntry_idle _, stepEntry_idle _, stepEntry_idle _⟩,
    fun k s hmode hrun => ⟨excOnSett_driving hmode hrun, fun hoff => ⟨fun hblocked => ?blocked, fun hout hshed hcont => ?unblocked⟩⟩,
    fun code k s hrun hmode hshed hnone => burstSett_starts code hrun hmode hshed hnone,
    fun r c s => ⟨fun hsame => if_pos hsame, fun hother => if_neg hother⟩,
    fun ch s hblank => ⟨_, guardNext_pos hblank, rfl⟩, fun k inputs b s hburst => ?burstEnd⟩
  case window => exact (show execPulseWin i s = _ from stepEntry_due _ h)
  case mark => exact (show execMark i s = _ from stepEntry_due _ h)
  case blocked => exact (excOnSett_blocked hmode hrun hoff hblocked).trans (holdOff_modSett s k _)
  case unblocked =>
    have hfree : (s.settOut k || (s.setts[k]).shed || (s.setts[k]).contention) = false := by rw [hout, hshed, hcont]; rfl
    refine ⟨fun hcount hover => ?_, fun hbudget => ⟨fun hmay => ?_, fun hmay => ?_⟩⟩
    · rw [excOnSett_overBudget hmode hrun hoff hfree hcount (decide_eq_true hover), holdOff_modSett]
      rfl
    · exact (excOnSett_counted hmode hrun hoff hfree (within_budget hbudget)).trans (if_pos hmay)
    · exact (excOnSett_counted hmode hrun hoff hfree (within_budget hbudget)).trans
        ((if_neg (ne_true_of_eq_false hmay)).trans (holdOff_modSett s k _))
  case burstEnd =>
    intro convs n last s1 stamp ws v w
    have run : exec (.burstComplete k inputs) s = .next (burstDone k convs s) := by
      simp only [exec, execBurstComplete, hburst, convs]
    rw [run, burstDone, hburst]
    rfl

end Sys2Proof.Machine

namespace Sys2Proof.Machine

/-! AFE_CONFIG, AFE_RANGE, EXC_CONFIG and AFE_DIAG (R128 to R132). -/

/-- A request whose effect breaks no limit of R543 is answered with its own words. -/
theorem serve_unbroken (sp : CmdSpec) (p : Packet) (s s1 : State) (c : Ctx) (ws : List Word) (t : State)
    (h : admitted sp.code p s = some (c, s1)) (ha : sp.access c p.params s1 = true) (hm : sp.mode p.params s1 = stOk)
    (hl : sp.length p.params = true) (hb : sp.body c p.params s1 = .done stOk ws t) (ht : s1.breaksLimits t = false) :
    serve sp p s = replied sp.code p s1 stOk ws t :=
  serve_done sp p s s1 c stOk ws t h ha hm hl hb (by rw [ht, Bool.and_false])

/-! The settings of channels (R129, R311). -/

theorem mem_chansOf_settOf (c : Chan) : c ∈ chansOf (settOf c) :=
  List.mem_map.mpr ⟨⟨c.val % 8, Nat.mod_lt _ (by decide)⟩, List.mem_finRange _, Fin.ext (Nat.div_add_mod c.val 8)⟩

theorem mem_namedChans (c : Chan) (whole : Bool) : c ∈ namedChans c whole := by
  cases whole with
  | false => exact List.mem_singleton_self c
  | true => exact mem_chansOf_settOf c

theorem namedChans_nodup (c : Chan) (whole : Bool) : (namedChans c whole).Nodup := by
  cases whole with
  | false => exact List.pairwise_singleton _ c
  | true => exact chansOf_nodup (settOf c)

theorem modAcc_chans (kind : AccKind) (i : Nat) (f : Acc → Acc) (s : State) : (modAcc kind i f s).chans = s.chans := by
  cases kind <;> (simp only [modAcc]; split <;> rfl)

theorem endRawWindow_chans (c : Chan) (s : State) : (endRawWindow c s).chans = s.chans := by
  unfold endRawWindow endWindow
  split
  · rfl
  · split
    · rfl
    · simp only [if_true]
      split <;> simp only [deliver_chans, modAcc_chans]

theorem configChan_chans (w : Word) (c : Chan) (s : State) : (configChan w c s).chans = vmod s.chans c (setAfe w) := by
  unfold configChan
  split
  · rfl
  · exact congrArg (fun v => vmod v c (setAfe w)) (endRawWindow_chans c s)

theorem forEach_configChan_chans (w : Word) (l : List Chan) (s : State) :
    (forEach l (fun u c => configChan w c u) s).chans = forEach l (fun v c => vmod v c (setAfe w)) s.chans := by
  induction l generalizing s with
  | nil => rfl
  | cons c l ih => rw [forEach_cons, ih, configChan_chans]; rfl

/-- The channel named takes its settings once, with its sett or alone. -/
theorem configured_chan (w : Word) (c : Chan) (whole : Bool) (s : State) :
    (forEach (namedChans c whole) (fun u x => configChan w x u) s).chans[c] = setAfe w s.chans[c] := by
  rw [forEach_configChan_chans]
  exact (getElem_forEach_vmod (setAfe w) (namedChans_nodup c whole) s.chans c).trans (if_pos (mem_namedChans c whole))

/-- AFE_CONFIG within its checks: SCALE exists, no RANGE_INIT lies below it, and its sett stands still (R129). -/
theorem afeConfigBody_ok (c : Ctx) {w0 w1 : Word} {ch : Chan} {s : State} (hch : chanAt (bits w0 8 0) = some ch)
    (hresv0 : resv w0 31 10 = true) (hresv1 : resv w1 31 6 = true) (hscale : bits w1 3 1 ≤ 4)
    (hinit : ∀ x ∈ namedChans ch (bit w0 9), bits w1 3 1 ≤ (s.chans[x]).rangeInit.toNat)
    (hrun : (s.setts[settOf ch]).run = false) (hswap : s.plan.swap = none) :
    afeConfigBody c [w0, w1] s = .done stOk
      [w32 (flag 0 (bit w1 0) + fld 1 3 (w1.extractLsb' 1 3 : BitVec 3).toNat + flag 4 (bit w1 4) + flag 5 (bit w1 5) +
        fld 6 3 (s.chans[ch]).range.toNat)]
      (forEach (namedChans ch (bit w0 9)) (fun u x => configChan w1 x u) (clearValid s)) := by
  have hinits : (namedChans ch (bit w0 9)).any (fun x => (s.chans[x]).rangeInit.toNat < bits w1 3 1) = false :=
    List.any_eq_false.mpr fun x hx => by simpa using hinit x hx
  unfold afeConfigBody
  simp only [pw, List.getD_cons_zero, List.getD_cons_succ, hch]
  rw [if_neg (by simp only [hresv0, hresv1, rangeOk, hscale, hinits]; decide), if_neg (by rw [hrun, hswap]; decide)]
  unfold afeConfigReply
  simp only [configured_chan]
  rfl

/-! AFE_RANGE (R104, R130). -/

theorem afeRangeBody_read (c : Ctx) {w : Word} {ch : Chan} (s : State) (hch : chanAt (bits w 8 0) = some ch)
    (hresv : resv w 31 13 = true) (hset : bit w 9 = false) :
    afeRangeBody c [w] s =
      let x := s.chans[ch]
      .done stOk [w32 (fld 0 3 x.range.toNat + fld 3 3 x.rangeInit.toNat + fld 6 3 x.scale.toNat + flag 9 x.blanking)] s := by
  unfold afeRangeBody
  simp only [pw, List.getD_cons_zero, hch, hresv, hset]
  rfl

/-- AFE_RANGE with SET: the code exists, it is not below SCALE, and the sett stands still. -/
theorem afeRangeBody_set (c : Ctx) {w : Word} {ch : Chan} {s : State} (hch : chanAt (bits w 8 0) = some ch)
    (hresv : resv w 31 13 = true) (hset : bit w 9 = true) (hcode : bits w 12 10 ≤ 4)
    (hscale : (s.chans[ch]).scale.toNat ≤ bits w 12 10) (hrun : (s.setts[settOf ch]).run = false) :
    afeRangeBody c [w] s =
      let r : BitVec 3 := BitVec.ofNat 3 (bits w 12 10)
      let x := s.chans[ch]
      .done stOk [w32 (fld 0 3 r.toNat + fld 3 3 r.toNat + fld 6 3 x.scale.toNat + flag 9 x.blanking)]
        (s.modChan ch fun y => { y with rangeInit := r, range := r }) := by
  unfold afeRangeBody
  simp only [pw, List.getD_cons_zero, hch, hresv, hset, Bool.not_true, Bool.false_eq_true, if_false]
  rw [if_neg (by simpa [rangeOk, hcode] using hscale), if_neg (ne_true_of_eq_false hrun)]
  simp [State.modChan]

/-! EXC_CONFIG (R131). -/

theorem excConfigBody_force (c : Ctx) {w0 w1 : Word} {k : SettId} (s : State) (hk : finOf 48 (bits w0 5 0) = some k)
    (hresv0 : resv w0 31 7 = true) (hresv1 : resv w1 31 15 = true) (honly : bit w0 6 = true) :
    excConfigBody c [w0, w1] s = excReply k (setForce k (bit w1 10) s) := by
  unfold excConfigBody
  simp only [pw, List.getD_cons_zero, List.getD_cons_succ, hk, hresv0, hresv1, honly]
  rfl

/-- EXC_CONFIG in full: MODE exists, ILIM exists where MODE drives, and the sett stands still. -/
theorem excConfigBody_set (c : Ctx) {w0 w1 : Word} {k : SettId} {s : State} (hk : finOf 48 (bits w0 5 0) = some k)
    (hresv0 : resv w0 31 7 = true) (hresv1 : resv w1 31 15 = true) (hfull : bit w0 6 = false) (hmode : bits w1 9 8 ≠ 3)
    (hilim : bits w1 9 8 = 0 ∨ (1 ≤ bits w1 14 11 ∧ bits w1 14 11 ≤ 8)) (hrun : (s.setts[k]).run = false)
    (hswap : s.plan.swap = none) :
    excConfigBody c [w0, w1] s = excReply k ((setForce k (bit w1 10) (clearValid s)).modSett k fun x =>
      { x with vcode := w1.extractLsb' 0 8, excMode := w1.extractLsb' 8 2, ilim := w1.extractLsb' 11 4 }) := by
  have hgood : ¬ (bits w1 9 8 = 3 || (bits w1 9 8 != 0 && (bits w1 14 11 == 0 || decide (8 < bits w1 14 11)))) = true := by
    simp only [Bool.and_eq_true, Bool.or_eq_true, bne_iff_ne, beq_iff_eq, decide_eq_true_eq]
    omega
  unfold excConfigBody
  simp only [pw, List.getD_cons_zero, List.getD_cons_succ, hk, hresv0, hresv1, hfull, Bool.not_true, Bool.or_self,
    Bool.false_eq_true, if_false]
  rw [if_neg hgood, if_neg (by rw [hrun, hswap]; decide)]

/-! AFE_DIAG and its test (R128, R132). -/

/-- From s to t nothing changes but the count of free values and the averages kept over the most recent 1 ms (R132). -/
def AveragesOnly (s t : State) : Prop :=
  t = { s with free := t.free, setts := t.setts } ∧ ∀ j : SettId, t.setts[j] = { s.setts[j] with nowOn := (t.setts[j]).nowOn }

theorem AveragesOnly.refl (s : State) : AveragesOnly s s := ⟨rfl, fun _ => rfl⟩

theorem drawAvg_state (s : State) : s.drawAvg.2 = { s with free := s.free + 4 } := rfl

theorem recentAvg_averagesOnly (k : SettId) (s : State) : AveragesOnly s (recentAvg k s).2 := by
  unfold recentAvg
  split
  · exact AveragesOnly.refl s
  · simp only [drawAvg_state]
    refine ⟨rfl, fun j => ?_⟩
    simp only [State.modSett_setts, Fin.getElem_fin, getElem_vmod]
    split <;> rfl

theorem excAvg_averagesOnly (k : SettId) (s : State) : AveragesOnly s (excAvg k s).2 := by
  unfold excAvg
  dsimp only
  split
  · exact recentAvg_averagesOnly k s
  · split
    · exact AveragesOnly.refl s
    · exact recentAvg_averagesOnly k s

theorem diagWords_averagesOnly (c : Chan) (s : State) : AveragesOnly s (diagWords c s).2 := by
  unfold diagWords
  dsimp only
  split
  · exact AveragesOnly.refl s
  · exact excAvg_averagesOnly (settOf c) s

theorem afeDiagBody_read (c : Ctx) {w : Word} {ch : Chan} (s : State) (hch : chanAt (bits w 8 0) = some ch)
    (hresv : resv w 31 10 = true) (htest : bit w 9 = false) :
    afeDiagBody c [w] s = .done stOk (diagWords ch s).1 (diagWords ch s).2 := by
  unfold afeDiagBody
  simp only [pw, List.getD_cons_zero, hch, hresv, htest]
  rfl

/-- A test starts on a channel that has none, its sett standing still. -/
theorem afeDiagBody_test (c : Ctx) {w : Word} {ch : Chan} {s : State} (hch : chanAt (bits w 8 0) = some ch)
    (hresv : resv w 31 10 = true) (htest : bit w 9 = true) (hrun : (s.setts[settOf ch]).run = false)
    (hnone : (s.chans[ch]).actTest = none) :
    afeDiagBody c [w] s = .deferred (s.modChan ch fun x => { x with actTest := some (c.replyTo s) }) := by
  unfold afeDiagBody
  simp only [pw, List.getD_cons_zero, hch, hresv, htest, Bool.not_true, Bool.false_eq_true, if_false]
  rw [if_neg (by rw [hrun, hnone]; decide)]

/-- ACT_RESULT by the limits of R128. -/
theorem actResult_eq (r : Nat) (tooBig : Bool) :
    actResult r tooBig = if tooBig = true ∨ 1000000 < r then 2 else if r < 10 then 3 else 1 := by
  simp only [actResult, Bool.or_eq_true, decide_eq_true_eq]

/-- Settles O27: each command is admitted, within its own checks, and its reply is that of its body. -/
theorem frontEndCommands : Obligations.FrontEndCommands := by
  refine ⟨fun p s s1 c w0 w1 ch h hacc hp hch hresv0 hresv1 hscale hinit hrun hswap => ?config,
    fun p s s1 c w ch h hp hch hresv => ⟨fun hset hacc => ?range, fun hset hacc hcode hscale hrun => ?setRange⟩,
    fun p s s1 c w0 w1 k h hp hk hresv0 hresv1 =>
      ⟨fun honly hacc => ?force, fun hfull hacc hmode hilim hrun hswap => ?excitation⟩,
    fun p s s1 c w ch h hp hch hresv => ⟨fun htest hacc hlim => ⟨?diag, diagWords_averagesOnly ch s1⟩,
      fun htest hacc hrun hnone => ?test⟩,
    fun ch r tooBig req s hreq => ?testDone⟩
  case config =>
    exact serve_unbroken afeConfigSpec p s s1 c _ _ h hacc rfl (by rw [hp]; rfl)
      (by rw [hp]; exact afeConfigBody_ok c hch hresv0 hresv1 hscale hinit hrun hswap)
  case range =>
    exact serve_unbroken afeRangeSpec p s s1 c _ _ h (by simp [afeRangeSpec, hp, pw, hset, hacc]) rfl (by rw [hp]; rfl)
      (by rw [hp]; exact afeRangeBody_read c s1 hch hresv hset) s1.breaksLimits_self
  case setRange =>
    exact serve_unbroken afeRangeSpec p s s1 c _ _ h (by simp [afeRangeSpec, hp, pw, hset, hacc]) rfl (by rw [hp]; rfl)
      (by rw [hp]; exact afeRangeBody_set c hch hresv hset hcode hscale hrun)
  case force =>
    exact serve_unbroken excConfigSpec p s s1 c _ _ h (by simp [excConfigSpec, hp, pw, honly, hacc]) rfl (by rw [hp]; rfl)
      (by rw [hp]; exact excConfigBody_force c s1 hk hresv0 hresv1 honly)
  case excitation =>
    exact serve_unbroken excConfigSpec p s s1 c _ _ h (by simp [excConfigSpec, hp, pw, hfull, hacc]) rfl (by rw [hp]; rfl)
      (by rw [hp]; exact excConfigBody_set c hk hresv0 hresv1 hfull hmode hilim hrun hswap)
  case diag =>
    exact serve_unbroken afeDiagSpec p s s1 c _ _ h (by simp [afeDiagSpec, hp, pw, htest, hacc]) rfl (by rw [hp]; rfl)
      (by rw [hp]; exact afeDiagBody_read c s1 hch hresv htest) hlim
  case test =>
    exact serve_deferred afeDiagSpec p s s1 c _ h (by simp [afeDiagSpec, hp, pw, htest, hacc]) rfl (by rw [hp]; rfl)
      (by rw [hp]; exact afeDiagBody_test c hch hresv htest hrun hnone)
  case testDone =>
    simp only [exec, execAfeDiagTestDone, hreq, actResult_eq]
    exact ⟨_, rfl, rfl⟩

end Sys2Proof.Machine

namespace Sys2Proof.Machine

/-! CONV_MODE, CONV_INJECT, CAL_START, CAL_POINT, CAL_READ and RAW_TAP (R143, R147, R150, R152, R157, R164, R166, R167). -/

theorem convModeBody_read (c : Ctx) {w : Word} {k : SettId} (s : State) (hk : finOf 48 (bits w 5 0) = some k)
    (hresv : resv w 31 9 = true) (hset : bit w 6 = false) : convModeBody c [w] s = convReply k s := by
  unfold convModeBody
  simp only [pw, List.getD_cons_zero, hk, hresv, hset]
  rfl

/-- CONV_MODE with SET: the preset allows the mode, and neither the sett runs nor a swap is pending (R143). -/
theorem convModeBody_set (c : Ctx) {w : Word} {k : SettId} {s : State} (hk : finOf 48 (bits w 5 0) = some k)
    (hresv : resv w 31 9 = true) (hset : bit w 6 = true) (hpreset : presetPermitted (s.preset k) (bit w 7) (bit w 8) = true)
    (hrun : (s.setts[k]).run = false) (hswap : s.plan.swap = none) :
    convModeBody c [w] s = convReply k (judgeBounds ((clearValid s).modSett k fun x =>
      { x with burstMode := bit w 7, lowPower := bit w 8 })) := by
  unfold convModeBody
  simp only [pw, List.getD_cons_zero, hk, hresv, hset, hpreset, Bool.not_true, Bool.false_eq_true, if_false]
  rw [if_neg (by rw [hrun, hswap]; decide)]

/-! Injected conversions (R150, R152). -/

/-- Start-up refuses CONV_INJECT before a plan is active, and so does a sett that is shed (R152). -/
theorem injectMode_ok {w : Word} {ch : Chan} {s : State} (hch : chanAt (bits w 8 0) = some ch) (hresv : resv w 31 9 = true)
    (hmode : ¬ (s.sup.mode = .startup ∧ s.plan.active = false)) (hshed : (s.setts[settOf ch]).shed = false) :
    injectMode [w] s = stOk := by
  have hin : (s.sup.mode == .startup && !s.plan.active) = false := by
    refine Bool.eq_false_iff.mpr fun h => hmode ?_
    rwa [Bool.and_eq_true, beq_iff_eq, Bool.not_eq_true'] at h
  unfold injectMode
  simp only [pw, List.getD_cons_zero, hch, hresv, hin, Option.map_some, Option.getD_some, hshed]
  rfl

/-- CONV_INJECT of a channel that neither waits for an injection nor is being calibrated, with a slot for it in the plan. -/
theorem convInjectBody_ok (c : Ctx) {w : Word} {ch : Chan} {s : State} (hch : chanAt (bits w 8 0) = some ch)
    (hresv : resv w 31 9 = true) (hfree : (s.chans[ch]).inject = none) (hroom : s.injections < 64)
    (hplan : s.plan.hasInject (settOf ch) = true) (hcal : (s.chans[ch]).cal.state = .idle ∨ (s.chans[ch]).cal.state = .ramping) :
    convInjectBody c [w] s = .deferred (s.modChan ch fun x =>
      { x with inject := some { req := c.replyTo s, acceptTk := s.tkN, slot := none } }) := by
  unfold convInjectBody
  simp only [pw, List.getD_cons_zero, hch, hresv, hplan, Bool.not_true, Bool.false_eq_true, if_false]
  rw [if_neg (by rcases hcal with h | h <;> rw [h] <;> decide), if_neg (by rw [hfree]; simpa using hroom)]

/-! CAL_START (R164, R166). -/

/-- A loop that changes calibrations may read the clocks and the plan as they stood at its start. -/
theorem forEach_modCal (f : Time → Plan → Cal → Cal) (l : List Chan) (s : State) :
    forEach l (fun u c => u.modCal c (f u.time u.plan)) s = forEach l (fun u c => u.modCal c (f s.time s.plan)) s := by
  induction l generalizing s with
  | nil => rfl
  | cons a l ih => exact ih (s.modCal a (f s.time s.plan))

/-- A calibration changes once by a change of its sett or of its channel alone. -/
theorem forEach_modCal_cal (f : Cal → Cal) (c : Chan) (whole : Bool) (s : State) :
    ((forEach (namedChans c whole) (fun u x => u.modCal x f) s).chans[c]).cal = f (s.chans[c]).cal := by
  unfold State.modCal
  rw [forEach_modChan]
  exact congrArg Channel.cal ((getElem_forEach_vmod _ (namedChans_nodup c whole) s.chans c).trans (if_pos (mem_namedChans c whole)))

/-- A calibration as CAL_START leaves it, at an instant of a plan (R164, R166). -/
def startedCal (waits : Bool) (range : BitVec 3) (t : Time) (p : Plan) (y : Cal) : Cal :=
  { y with state := if waits then .pending else .opened, range := range, startLc := t.lc.toNat, startTk := t.tk.toNat
           frameTicks := p.frameTicks, zero := none, full := none, point := none }

/-- CAL_START of channels that no safety input, slot or calibration holds. -/
theorem calStartBody_ok (c : Ctx) {w : Word} {ch : Chan} {s : State} (hch : chanAt (bits w 8 0) = some ch)
    (hresv : resv w 31 13 = true) (hrange : bits w 12 10 ≤ 4)
    (hfree : ∀ x ∈ namedChans ch (bit w 9),
      s.safeLocked (s.usesChan x) = false ∧ s.slotOf x = none ∧ (s.chans[x]).cal.inProgress = false) :
    calStartBody c [w] s =
      let cs := namedChans ch (bit w 9)
      let waits := cs.any fun x => (s.chans[x]).inject.isSome
      .done stOk [w32 (fld 0 3 (if waits then 1 else 2) + fld 3 8 (maskOf 8 fun j =>
        cs.contains (chanOf (settOf ch) j) && (s.chans[chanOf (settOf ch) j]).inject.isSome))]
        (forEach cs (fun u x => u.modCal x (startedCal waits (w.extractLsb' 10 3) s.time s.plan)) s) := by
  have hlocked : (namedChans ch (bit w 9)).any (fun x => s.safeLocked (s.usesChan x)) = false :=
    List.any_eq_false.mpr fun x hx => ne_true_of_eq_false (hfree x hx).1
  have hslot : (namedChans ch (bit w 9)).any (fun x => (s.slotOf x).isSome) = false :=
    List.any_eq_false.mpr fun x hx => by rw [(hfree x hx).2.1]; decide
  have hcal : (namedChans ch (bit w 9)).any (fun x => (s.chans[x]).cal.inProgress) = false :=
    List.any_eq_false.mpr fun x hx => ne_true_of_eq_false (hfree x hx).2.2
  have hcode : ∀ waits : Bool, calCode (if waits then .pending else .opened) = if waits then 1 else 2 := by decide
  have hword : pw [w] 0 = w := rfl
  have hloop := fun waits : Bool => forEach_modCal (startedCal waits (w.extractLsb' 10 3)) (namedChans ch (bit w 9)) s
  unfold startedCal at hloop
  unfold calStartBody
  simp only [hword, hch]
  rw [if_neg (by simp [hresv, rangeOk, hrange]), if_neg (ne_true_of_eq_false hlocked), if_neg (ne_true_of_eq_false hslot),
    if_neg (ne_true_of_eq_false hcal)]
  unfold State.lcN State.tkN
  simp only [hloop, forEach_modCal_cal, hcode]
  rfl

/-! CAL_POINT, CAL_READ and RAW_TAP (R147 to R149, R157, R167). -/

/-- CAL_POINT on channels that are all in calibration without a point, with AVG from 4 to 16. -/
theorem calPointBody_ok (c : Ctx) {w target : Word} {s : State} (hcs : calChans w ≠ []) (hresv : resv w 31 16 = true)
    (hlow : 4 ≤ bits w 15 11) (hhigh : bits w 15 11 ≤ 16) (htarget : bit w 10 = true ∨ target = 0)
    (hcal : ∀ x ∈ calChans w, (s.chans[x]).cal.inProgress = true ∧ (s.chans[x]).cal.point = none) :
    calPointBody c [w, target] s = .deferred (forEach (calChans w) (fun u x => u.modCal x fun y =>
      { y with point := some { req := c.replyTo s, full := bit w 10, target := target.toInt, left := 2 ^ bits w 15 11
                               count := 0, sum := 0, flagged := false, ranged := false, answered := false }
               outcome := none, state := if y.state = .opened then .measuring else y.state }) s) := by
  have hin : (calChans w).any (fun x => !(s.chans[x]).cal.inProgress) = false :=
    List.any_eq_false.mpr fun x hx => by rw [(hcal x hx).1]; decide
  have hpoint : (calChans w).any (fun x => (s.chans[x]).cal.point.isSome) = false :=
    List.any_eq_false.mpr fun x hx => by rw [(hcal x hx).2]; decide
  have hzero : (!bit w 10 && target != 0) = false := by
    rcases htarget with h | h <;> simp [h]
  unfold calPointBody
  simp only [pw, List.getD_cons_zero, List.getD_cons_succ]
  rw [if_neg (by simp only [hin, hzero, hresv, List.isEmpty_eq_false_iff.mpr hcs, decide_eq_false (Nat.not_lt.mpr hlow),
    decide_eq_false (Nat.not_lt.mpr hhigh)]; decide), if_neg (ne_true_of_eq_false hpoint)]

theorem calReadBody_ok (c : Ctx) {w : Word} {ch : Chan} {r : Fin 5} (s : State) (hch : chanAt (bits w 8 0) = some ch)
    (hr : finOf 5 (bits w 11 9) = some r) (hresv : resv w 31 12 = true) :
    calReadBody c [w] s =
      let x := s.chans[ch]
      let k := x.coefs[r]
      .done stOk [w32 (fld 0 10 k.trim.toNat + fld 10 10 k.trimT.toNat + fld 20 3 (calCode x.cal.state) + flag 23 k.stored), k.offset,
        k.offsetT, k.gain, k.gainT, w32 (min 0xFFFF (k.rampLeft x.tap))] s := by
  unfold calReadBody
  simp only [pw, List.getD_cons_zero, hch, hr, hresv]
  rfl

theorem rawTapAllowed_of_mode {s : State} (h : s.sup.mode = .startup ∨ s.sup.mode = .test ∨ s.boot.recovery = true) :
    s.rawTapAllowed = true := by
  unfold State.rawTapAllowed
  rcases h with h | h | h <;> simp [h]

/-- RAW_TAP opens or closes a slot while the sum of the rates stays within its limit (R148). -/
theorem rawTapBody_ok (c : Ctx) {w : Word} {i : Fin 4} {k : SettId} {s : State} (hi : bits w 1 0 = i.val)
    (hk : finOf 48 (bits w 8 3) = some k) (hresv : resv w 31 20 = true) :
    let taps := vset s.hoard.taps i (if bit w 2 then
      some { sett := k, mask := w.extractLsb' 9 8, sub := w.extractLsb' 17 3, seen := Vector.replicate 8 0 } else none)
    (bit w 2 = true → (taps.toList.map fun x => (x.map s.tapRate).getD 0).sum ≤ 8000000) →
    rawTapBody c [w] s = .done stOk
      [w32 ((maskOf 4 fun j => (taps[j]).isSome) + fld 8 24 ((taps.toList.map fun x => (x.map s.tapRate).getD 0).sum / 1000))]
      (s.modHoard fun h => { h with taps := taps }) := by
  intro taps hrate
  have hslot : (⟨bits w 1 0, Nat.mod_lt _ (by decide)⟩ : Fin 4) = i := Fin.ext hi
  unfold rawTapBody
  simp only [pw, List.getD_cons_zero, hk, hslot, hresv, Bool.not_true, Bool.false_eq_true, if_false]
  exact if_neg (by simpa using hrate)

/-- Settles O29: each command is admitted, within its own checks, and its reply is that of its body. -/
theorem conversionCommands : Obligations.ConversionCommands := by
  refine ⟨fun p s s1 c w k h hp hk hresv => ⟨fun hset hacc => ?mode, fun hset hacc hpreset hrun hswap hlim => ?setMode⟩,
    fun p s s1 c w ch h hp hacc hch hresv hmode hshed hfree hroom hplan hcal => ?inject,
    fun p s s1 c w ch h hp hacc hch hresv hrange hfree hlim => ?start,
    fun p s s1 c w target h hp hacc hcs hresv hlow hhigh htarget hcal => ?point,
    fun p s s1 c w ch r h hp hacc hch hr hresv => ?read,
    fun p s s1 c w i k h hp hacc hmode hi hk hresv hrate hlim => ?tap⟩
  case mode =>
    exact serve_unbroken convModeSpec p s s1 c _ _ h (by simp [convModeSpec, hp, pw, hset, hacc]) rfl (by rw [hp]; rfl)
      (by rw [hp]; exact convModeBody_read c s1 hk hresv hset) s1.breaksLimits_self
  case setMode =>
    exact serve_unbroken convModeSpec p s s1 c _ _ h (by simp [convModeSpec, hp, pw, hset, hacc]) rfl (by rw [hp]; rfl)
      (by rw [hp]; exact convModeBody_set c hk hresv hset hpreset hrun hswap) hlim
  case inject =>
    exact serve_deferred convInjectSpec p s s1 c _ h hacc (by rw [hp]; exact injectMode_ok hch hresv hmode hshed) (by rw [hp]; rfl)
      (by rw [hp]; exact convInjectBody_ok c hch hresv hfree hroom hplan hcal)
  case start =>
    exact serve_unbroken calStartSpec p s s1 c _ _ h hacc rfl (by rw [hp]; rfl)
      (by rw [hp]; exact calStartBody_ok c hch hresv hrange hfree) hlim
  case point =>
    exact serve_deferred calPointSpec p s s1 c _ h hacc rfl (by rw [hp]; rfl)
      (by rw [hp]; exact calPointBody_ok c hcs hresv hlow hhigh htarget hcal)
  case read =>
    exact serve_unbroken calReadSpec p s s1 c _ _ h hacc rfl (by rw [hp]; rfl)
      (by rw [hp]; exact calReadBody_ok c s1 hch hr hresv) s1.breaksLimits_self
  case tap =>
    exact serve_unbroken rawTapSpec p s s1 c _ _ h hacc (congrArg modeIf (rawTapAllowed_of_mode hmode)) (by rw [hp]; rfl)
      (by rw [hp]; exact rawTapBody_ok c hi hk hresv hrate) hlim

end Sys2Proof.Machine

namespace Sys2Proof.Machine

/-! The end of an injection, of a point and of a calibration (R144, R150, R151, R153, R157 to R159, R161, R163, R166). -/

theorem finishInject_eq {c : Chan} {i : Injection} {s : State} (hi : (s.chans[c]).inject = some i) (status : Nat) (words : List Word) :
    finishInject c status words s =
      releaseCal c (answerLater 0x0301 i.req status words (s.modChan c fun x => { x with inject := none })) := by
  unfold finishInject
  rw [hi]

/-- The result of a slot completes its injection; its flags are left open. -/
theorem injectDone_eq {ch : Chan} {i : Injection} {j : InjSlot} {s : State} (conv : Conv) (hi : (s.chans[ch]).inject = some i)
    (hj : i.slot = some j) :
    let s1 := atTk (j.startTk + burstLen j.len.toNat * s.modTicks (settOf ch)) s
    let v := clamp (-valueLimit) valueLimit conv.value
    let value := if (s1.slotOf ch).isSome then v else roundDiv (j.coef.gain.toNat * (256 * v + j.coef.offset.toInt)) (2 ^ 38)
    ∃ fl, injectDone ch conv s = releaseCal ch (answerLater 0x0301 i.req stOk
      (sampleWord value fl :: words64 (nearNs (j.startLc + s1.lcSpan ((burstLen j.len.toNat - 1) * 50 * s1.modTicks (settOf ch) / 2) * 256)) ++
        [w32 (fld 0 3 j.range.toNat + fld 3 2 j.len.toNat)])
      (s1.modChan ch fun x => { x with inject := none })) := by
  intro s1 v value
  have hi1 : (s1.chans[ch]).inject = some i := by rw [← hi]; exact congrArg (fun x => (x[ch]).inject) (atTk_chans _ s)
  unfold injectDone
  rw [hi]
  simp only [Option.bind_some, hj]
  exact ⟨_, finishInject_eq hi1 stOk _⟩

theorem execInjectionResult_slot {ch : Chan} {i : Injection} {j : InjSlot} {s : State} (input : BurstInput)
    (hi : (s.chans[ch]).inject = some i) (hj : i.slot = some j) :
    execInjectionResult ch input s = .next (injectDone ch (s.burstConv ch j.len.toNat j.range j.startTk input) s) := by
  unfold execInjectionResult
  rw [hi]
  simp only [Option.bind_some, hj]

theorem execCalPointDone_point {ch : Chan} {q : CalPoint} {s : State} (hstate : (s.chans[ch]).cal.state = .measuring)
    (hpoint : (s.chans[ch]).cal.point = some q) :
    execCalPointDone ch s = .next (if q.left ≠ 0 then s else
      finishPoint ch q (roundDiv (256 * q.sum) q.count) (if q.flagged then 1 else if q.ranged then 2 else 0)
        (s.modCal ch fun x => { x with state := .opened })) := by
  unfold execCalPointDone
  rw [hstate, hpoint]

/-! CAL_COMMIT (R158, R159, R163). -/

theorem calCommitBody_abort (c : Ctx) {w : Word} (s : State) (hcs : calChans w ≠ []) (hresv : resv w 31 19 = true)
    (habort : bit w 10 = true) :
    calCommitBody c [w] s = .done stOk [0] (forEach (calChans w) (fun u x => endCal x u) s) := by
  unfold calCommitBody
  simp only [pw, List.getD_cons_zero]
  rw [if_neg (by simp [hcs, hresv]), if_pos habort]

/-- CAL_COMMIT with a zero point in every channel and none that still averages. -/
theorem calCommitBody_commit (c : Ctx) {w : Word} {s : State} (hcs : calChans w ≠ []) (hresv : resv w 31 19 = true)
    (hcommit : bit w 10 = false)
    (hzero : ∀ x ∈ calChans w, (s.chans[x]).cal.zero.isSome = true ∧ (s.chans[x]).cal.state ≠ .measuring) :
    calCommitBody c [w] s =
      let r := (calChans w).foldl (fun (a : State × Nat × Nat) x =>
        let y := commitChan x (w.extractLsb' 11 8) a.1
        if y.2 then (y.1, a.2.1 + 2 ^ (x.val % 8), a.2.2) else (y.1, a.2.1, a.2.2 + 2 ^ (x.val % 8))) (s, 0, 0)
      let left := (((calChans w).filter fun x => r.2.1.testBit (x.val % 8)).map fun x =>
        (r.1.chans[x]).calSet.rampLeft (r.1.chans[x]).tap).foldl max 0
      .done (if r.2.2 = 0 then stOk else stCalBounds) [w32 (r.2.1 + fld 8 8 r.2.2 + fld 16 16 (min 0xFFFF left))] r.1 := by
  have hnone : (calChans w).any (fun x => (s.chans[x]).cal.zero.isNone) = false :=
    List.any_eq_false.mpr fun x hx => by simpa [Option.isSome_iff_ne_none] using (hzero x hx).1
  have hmeas : (calChans w).any (fun x => (s.chans[x]).cal.state == .measuring) = false :=
    List.any_eq_false.mpr fun x hx => by simpa using (hzero x hx).2
  unfold calCommitBody
  simp only [pw, List.getD_cons_zero]
  rw [if_neg (by simp [hcs, hresv]), if_neg (ne_true_of_eq_false hcommit), if_neg (ne_true_of_eq_false hnone),
    if_neg (ne_true_of_eq_false hmeas)]

/-- A commit that refuses a channel answers CAL_BOUNDS, so the limits of R543 bear on a commit of every channel alone. -/
theorem calCommit_underLimits {n : Nat} {s t : State} (h : n = 0 → s.breaksLimits t = false) :
    ((if n = 0 then stOk else stCalBounds) == stOk && s.breaksLimits t) = false := by
  by_cases hn : n = 0
  · rw [h hn, Bool.and_false]
  · rw [if_neg hn]; rfl

/-! The ramp and the timeout (R161, R163). -/

/-- A channel after one interval of its ramp (R161). -/
def rampStep (n : Nat) (x : Channel) : Channel :=
  let y : Channel := { x with coefs := x.coefs.map fun c => c.approachT x.tap }
  { y with cal := { y.cal with intervals := n, state := if y.cal.state = .ramping then restState y else y.cal.state } }

theorem execCalAdjustInterval_ramping {ch : Chan} {s : State} (h : (s.chans[ch]).settled = false) :
    let n := nextInterval (s.chans[ch]).cal.commitLc (s.chans[ch]).cal.intervals (adjNs (s.chans[ch]).cal.adjMs) s.lcN
    execCalAdjustInterval ch s = .next
      ((atLc ((s.chans[ch]).cal.commitLc + n * adjNs (s.chans[ch]).cal.adjMs) s).modChan ch (rampStep n)) :=
  guardNext_pos (by rw [h]; rfl)

theorem endCalNoted_running {c : Chan} {cause : Nat} {s : State} (h : (s.chans[c]).cal.inProgress = true) :
    endCalNoted c cause s = raise (endCal c s) 0x0204 [w32 (c.val + fld 9 2 cause)] := by
  unfold endCalNoted
  rw [h]
  rfl

/-! What raw results touch (R144 to R147, R311, R312). -/

/-- The state with the reduction engine, the Hoard and the command unit set aside. -/
def State.unreduced (s : State) : State := { s with red := Red.reset, hoard := Hoard.reset, cmd := Cmd.reset }

theorem eq_of_unreduced {s t : State} (h : t.unreduced = s.unreduced) : t = { s with red := t.red, hoard := t.hoard, cmd := t.cmd } :=
  congrArg (fun u : State => { u with red := t.red, hoard := t.hoard, cmd := t.cmd }) h

theorem unreduced_of_quiet {s t : State} (h : t.quiet = s.quiet) : t.unreduced = s.unreduced := (congrArg State.unreduced h :)

@[simp] theorem State.modRed_unreduced (s : State) (f : Red → Red) : (s.modRed f).unreduced = s.unreduced := id rfl

@[simp] theorem State.modHoard_unreduced (s : State) (f : Hoard → Hoard) : (s.modHoard f).unreduced = s.unreduced := id rfl

@[simp] theorem raise_unreduced (s : State) (code : Nat) (body : List Word) : (raise s code body).unreduced = s.unreduced :=
  unreduced_of_quiet (raise_quiet s code body)

@[simp] theorem deliver_unreduced (e : Entry) (s : State) : (deliver e s).unreduced = s.unreduced :=
  unreduced_of_quiet (deliver_quiet e s)

@[simp] theorem modAcc_unreduced (kind : AccKind) (i : Nat) (f : Acc → Acc) (s : State) :
    (modAcc kind i f s).unreduced = s.unreduced := by
  cases kind <;> (simp only [modAcc]; split <;> simp)

@[simp] theorem modMinMax_unreduced (kind : AccKind) (i : Nat) (f : MinMax → MinMax) (s : State) :
    (modMinMax kind i f s).unreduced = s.unreduced := by
  cases kind <;> (simp only [modMinMax]; split <;> simp)

@[simp] theorem judgeRaw_unreduced (kind : AccKind) (i : Nat) (a : Acc) (s : State) :
    (judgeRaw kind i a s).unreduced = s.unreduced := by
  unfold judgeRaw
  split
  · split <;> simp
  · rfl

@[simp] theorem endWindow_unreduced (kind : AccKind) (i : Nat) (isPartial : Bool) (s : State) :
    (endWindow kind i isPartial s).unreduced = s.unreduced := by
  unfold endWindow
  split
  · rfl
  · split
    · rfl
    · dsimp only
      split <;> split <;> simp

@[simp] theorem accumulate_unreduced (kind : AccKind) (i : Nat) (v : Int) (fl : Byte) (stamp : Nat) (s : State) :
    (accumulate kind i v fl stamp s).unreduced = s.unreduced := by
  unfold accumulate
  split
  · rfl
  · split
    · rfl
    · dsimp only
      split <;> simp

/-- A stream without a coder ends its record in the Hoard and the command unit alone. -/
theorem endRecord_quiet {t : Fin 54} (ht : 48 ≤ t.val) (s : State) : (endRecord t s).quiet = s.quiet := by
  unfold endRecord
  simp [Nat.not_lt.mpr ht]

@[simp] theorem deliverRaw_unreduced (ch : Chan) (raw : Int) (ovr held lp : Bool) (stamp : Nat) (s : State) :
    (deliverRaw ch raw ovr held lp stamp s).unreduced = s.unreduced := by
  unfold deliverRaw
  dsimp only
  split
  · simp
  · split
    · rw [deliver_unreduced]
      exact unreduced_of_quiet (endRecord_quiet (by decide) s)
    · simp

@[simp] theorem tapSlot_unreduced (i : Fin 4) (ch : Chan) (raw : Int) (ovr held lp : Bool) (stamp : Nat) (s : State) :
    (tapSlot i ch raw ovr held lp stamp s).unreduced = s.unreduced := by
  unfold tapSlot
  split
  · rfl
  · dsimp only
    split
    · rfl
    · split <;> simp

theorem useRaw_unreduced (ch : Chan) (raw : Int) (held : Bool) (tk : Nat) (s : State) :
    (useRaw ch raw held tk s).unreduced = s.unreduced := by
  unfold useRaw
  dsimp only
  rw [forEach_keeps State.unreduced _ fun u i => tapSlot_unreduced i ch raw _ held _ _ u]
  simp

/-- Settles O30: each row acts at its own instant on the channel it names, and a raw result stays within the reduction engine, the
Hoard and the command unit. -/
theorem calibrationAndInjectionRows : Obligations.CalibrationAndInjectionRows := by
  refine ⟨fun ch input i j s hi hj => ?injection, fun ch i s hstate hi hj => ?dropped,
    fun ch q s hstate hpoint => ⟨fun hleft => ?more, fun hleft => ?done⟩,
    fun p s s1 c w h hp hacc hcs hresv => ⟨fun habort => ?abort, fun hcommit hzero => ?commit⟩,
    fun ch s hramp => ?ramp, fun ch s hcal => ?timeout, fun ch volts sense s hmod hvolts hsense => ?raw,
    fun ch raw held tk s => eq_of_unreduced (useRaw_unreduced ch raw held tk s)⟩
  case injection =>
    obtain ⟨fl, hdone⟩ := injectDone_eq (s.burstConv ch j.len.toNat j.range j.startTk input) hi hj
    exact ⟨_, fl, (execInjectionResult_slot input hi hj).trans (congrArg _ hdone), rfl⟩
  case dropped => exact guardNext_pos (by rw [hstate, hi]; simp [hj])
  case more => exact (execCalPointDone_point hstate hpoint).trans (congrArg _ (if_pos hleft))
  case done => exact (execCalPointDone_point hstate hpoint).trans (congrArg _ (if_neg (not_not_intro hleft)))
  case abort =>
    exact fun hlim => serve_unbroken calCommitSpec p s s1 c _ _ h hacc rfl (by rw [hp]; rfl)
      (by rw [hp]; exact calCommitBody_abort c s1 hcs hresv habort) hlim
  case commit =>
    exact fun hlim => serve_done calCommitSpec p s s1 c _ _ _ h hacc rfl (by rw [hp]; rfl)
      (by rw [hp]; exact calCommitBody_commit c hcs hresv hcommit hzero) (calCommit_underLimits hlim)
  case ramp =>
    refine ⟨_, _, execCalAdjustInterval_ramping hramp, rfl, ?_, ?_, rfl, fun x hx => ?_⟩
    · simp [rampStep, CoefSet.approachT]
    · simp [rampStep]
    · simp [Fin.val_ne_of_ne (Ne.symm hx)]
  case timeout =>
    exact ⟨_, guardNext_pos hcal, endCalNoted_running (by rw [← hcal]; simp)⟩
  case raw => exact guardNext_pos (by simp [hmod, hvolts, hsense])

end Sys2Proof.Machine

namespace Sys2Proof.Machine

/-- A count of free values takes no resource of R543. -/
theorem overLimits_free (s : State) (n : Nat) : ({ s with free := n } : State).overLimits = s.overLimits := rfl

/-! FLT_PRESET (R189). -/

theorem fltPresetBody_read (c : Ctx) {w : Word} {k : SettId} (s : State) (hk : finOf 48 (bits w 5 0) = some k)
    (hresv : resv w 31 10 = true) (hset : bit w 6 = false) : fltPresetBody c [w] s = presetReply k s := by
  unfold fltPresetBody
  simp only [pw, List.getD_cons_zero, hk, hresv, hset]
  rfl

/-- FLT_PRESET with SET: the preset exists, is permitted and enabled, and neither the sett runs nor a swap is pending (R189). -/
theorem fltPresetBody_set (c : Ctx) {w : Word} {k : SettId} {s : State} (hk : finOf 48 (bits w 5 0) = some k)
    (hresv : resv w 31 10 = true) (hset : bit w 6 = true) (hpreset : bits w 9 7 ≤ 5)
    (hpermit : presetPermitted (bits w 9 7) (s.setts[k]).burstMode (s.setts[k]).lowPower = true)
    (henabled : s.health.presets.getLsbD (bits w 9 7) = true) (hrun : (s.setts[k]).run = false) (hswap : s.plan.swap = none) :
    fltPresetBody c [w] s = presetReply k (judgeBounds ((clearValid s).modChain k fun x =>
      { x with preset := BitVec.ofNat 3 (bits w 9 7), custom := none, load := [] })) := by
  unfold fltPresetBody
  simp only [pw, List.getD_cons_zero, hk, hresv, hset, Bool.not_true, Bool.false_eq_true, if_false]
  rw [if_neg (by simp only [hpermit, henabled, decide_eq_false (Nat.not_lt.mpr hpreset)]; decide), if_neg (by rw [hrun, hswap]; decide)]

/-! FLT_COEF_LOAD (R184 to R187, R190). -/

/-- CLEAR stands in a word that names no more than the sett, so READ is not set beside it. -/
theorem clearWord_no_read (k : SettId) : bit (w32 (k.val + 2 ^ 26)) 6 = false := by
  revert k
  decide

section
variable {ws : List Word} {k : SettId} {s : State} (hk : finOf 48 (bits (pw ws 0) 5 0) = some k)
  (hheader : coefHeaderBad ws = false) (hcoefs : ∀ w ∈ ws.drop 4, resv w 31 24 = true)

include hcoefs in
theorem coefs_in_range : (ws.drop 4).any (fun w => !resv w 31 24) = false :=
  List.any_eq_false.mpr fun w hw => by rw [hcoefs w hw]; decide

include hk hheader hcoefs

theorem coefLoadBody_clear (c : Ctx) (hclear : bit (pw ws 0) 26 = true) (hword : pw ws 0 = w32 (k.val + 2 ^ 26))
    (hrun : (s.setts[k]).run = false) :
    coefLoadBody c ws s =
      let t := judgeBounds (s.modChain k fun x => { x with custom := none, load := [] })
      .done stOk (loadWords k 8 t) t := by
  unfold coefLoadBody
  simp only [hk]
  rw [if_neg (by rw [hheader, coefs_in_range hcoefs]; decide), if_pos hclear, if_neg (by rw [hword]; simp [flag, b2n]),
    if_neg (by rw [hrun]; exact Bool.false_ne_true)]

theorem coefLoadBody_read (c : Ctx) (hclear : bit (pw ws 0) 26 = false) (hread : bit (pw ws 0) 6 = true) :
    coefLoadBody c ws s = coefRead k (pw ws 0) s := by
  unfold coefLoadBody
  simp only [hk]
  rw [if_neg (by rw [hheader, coefs_in_range hcoefs]; decide), if_neg (ne_true_of_eq_false hclear), if_pos hread]

/-- A chunk of coefficients is stored, and the one with LAST completes the load (R185). -/
theorem coefLoadBody_chunk (c : Ctx) (hclear : bit (pw ws 0) 26 = false) (hread : bit (pw ws 0) 6 = false)
    (hpass : bits (pw ws 0) 8 7 ≤ 1) (hrun : (s.setts[k]).run = false) :
    coefLoadBody c ws s =
      let load := putAll (256 * bits (pw ws 0) 8 7 + bits (pw ws 0) 16 9) ((ws.drop 4).map fun w => w.extractLsb' 0 24) (s.chains[k]).load
      let t := s.modChain k fun x => { x with load := load }
      if bit (pw ws 0) 25 then completeLoad k ws load s else .done stOk (loadWords k 0 t) t := by
  unfold coefLoadBody
  simp only [hk]
  rw [if_neg (by rw [hheader, coefs_in_range hcoefs]; decide), if_neg (ne_true_of_eq_false hclear),
    if_neg (ne_true_of_eq_false hread), if_neg (Nat.not_lt.mpr hpass), if_neg (by rw [hrun]; exact Bool.false_ne_true)]

end

/-! FLT_START (R191, R211). -/

theorem fltWordOk_of {w : Word} (hresv : resv w 31 7 = true) (hname : bit w 6 = true ∨ bits w 5 0 < 48) : fltWordOk w = true := by
  unfold fltWordOk
  rcases hname with h | h <;> simp [hresv, h]

theorem fltStartMode_ok {w : Word} {s : State} (hword : fltWordOk w = true) (hactive : s.plan.active = true)
    (hshed : ∀ k ∈ startSetts w s, (s.setts[k]).shed = false) : fltStartMode [w] s = stOk := by
  have hnone : (startSetts w s).any (fun k => (s.setts[k]).shed) = false :=
    List.any_eq_false.mpr fun k hk => ne_true_of_eq_false (hshed k hk)
  simp only [fltStartMode, pw, List.getD_cons_zero, hword, hactive, hnone]
  rfl

/-- The edge that a FLT_START with nothing to start answers: that of the first sett named (R191; log entry 211). -/
def namedEdge (ks : List SettId) (s : State) : Nat :=
  match ks with
  | k :: _ => if (s.setts[k]).run then (s.chains[k]).startLc else s.boundaryLc (((s.chains[k]).startAt).getD s.nextBoundary)
  | [] => s.boundaryLc s.nextBoundary

section
variable {w : Word} {s : State} (hword : fltWordOk w = true) (hstop : ∀ k ∈ startSetts w s, (s.chains[k]).stopAt = none)

include hstop in
theorem none_to_stop : (startSetts w s).any (fun k => (s.chains[k]).stopAt.isSome) = false :=
  List.any_eq_false.mpr fun k hk => by rw [hstop k hk]; decide

/-- Custom tables start in no sett of the safety block (R187). -/
theorem no_custom_in_block {ks : List SettId} (hsafe : ∀ k ∈ ks, (s.chains[k]).custom = none ∨ s.blockSett k = false) :
    ks.any (fun k => (s.chains[k]).custom.isSome && s.blockSett k) = false :=
  List.any_eq_false.mpr fun k hk => by rcases hsafe k hk with h | h <;> rw [h] <;> simp

include hword hstop

theorem fltStartBody_waiting (c : Ctx) (hnone : (startSetts w s).filter s.toStart = []) :
    fltStartBody c [w] s = .done stOk (words64 (namedEdge (startSetts w s) s)) s := by
  unfold fltStartBody
  simp only [pw, List.getD_cons_zero, hword, none_to_stop hstop, hnone]
  cases startSetts w s <;> rfl

section
variable (hsafe : ∀ k ∈ (startSetts w s).filter s.toStart, (s.chains[k]).custom = none ∨ s.blockSett k = false)
  (hsome : (startSetts w s).filter s.toStart ≠ [])
include hsafe hsome

theorem fltStartBody_starts (c : Ctx) (hplan : s.startErrors ((startSetts w s).filter s.toStart) = none) :
    fltStartBody c [w] s = .done stOk (words64 (s.boundaryLc s.nextBoundary))
      (forEach ((startSetts w s).filter s.toStart)
        (fun u k => u.modChain k fun x => { x with startAt := some s.nextBoundary, load := [] })
        (s.modPlan fun p => { p with lastError := 0 })) := by
  obtain ⟨a, l, hfresh⟩ := List.exists_cons_of_ne_nil hsome
  have hcustom := no_custom_in_block hsafe
  rw [hfresh] at hplan hcustom
  unfold fltStartBody
  simp only [pw, List.getD_cons_zero, hword, none_to_stop hstop, hfresh, hcustom, hplan]
  cases startSetts w s <;> rfl

theorem fltStartBody_refused (c : Ctx) {e : PlanError} {k : SettId}
    (hplan : s.startErrors ((startSetts w s).filter s.toStart) = some (e, k)) :
    fltStartBody c [w] s = .done stPlanInvalid [w32 (fld 0 8 e.code + fld 8 13 e.idx + fld 21 6 k.val), w32 (fld 0 21 e.offset)]
      (s.modPlan fun p => { p with lastError := BitVec.ofNat 8 e.code }) := by
  have hcustom := no_custom_in_block hsafe
  unfold fltStartBody
  simp only [pw, List.getD_cons_zero, hword, none_to_stop hstop, hcustom, hplan, List.isEmpty_eq_false_iff.mpr hsome]
  rfl

end
end

/-! FLT_STOP (R187, R192). -/

/-- The setts that a FLT_STOP names: with ALL, every sett (R192). -/
def stopSetts (w : Word) (s : State) : List SettId := if bit w 6 then allSetts else startSetts w s

section
variable {w : Word} {s : State} (hword : fltWordOk w = true)
  (hsafe : s.sup.mode = .test ∨ ∀ k ∈ (stopSetts w s).filter fun k => (s.setts[k]).run, s.blockSett k = false)
  (hfree : ∀ k ∈ stopSetts w s, (s.chains[k]).startAt = none ∧ ∀ x ∈ chansOf k, (s.chans[x]).cal.state ≠ .measuring)
include hword hsafe hfree

/-- FLT_STOP past its checks: outside Test no sett that runs is of the safety block, and none named is measured or waits to start. -/
theorem fltStopBody_ok (c : Ctx) :
    fltStopBody c [w] s =
      let live := (stopSetts w s).filter fun k => (s.setts[k]).run
      if live.isEmpty then .done stOk [s.drawWord.1, s.drawWord.2.drawWord.1] s.drawWord.2.drawWord.2
      else .done stOk (words64 (s.boundaryLc ((live.head?.bind fun k => (s.chains[k]).stopAt).getD s.nextBoundary)))
        (forEach live (fun u k => u.modChain k fun x => { x with stopAt := some (x.stopAt.getD s.nextBoundary) }) s) := by
  have hblock : ¬ (s.sup.mode != .test && ((stopSetts w s).filter fun k => (s.setts[k]).run).any s.blockSett) = true := by
    rw [Bool.and_eq_true, bne_iff_ne, List.any_eq_true]
    rintro ⟨hmode, k, hk, hin⟩
    rcases hsafe with h | h
    · exact hmode h
    · exact ne_true_of_eq_false (h k hk) hin
  have hcal : (stopSetts w s).any (fun k => (chansOf k).any fun x => (s.chans[x]).cal.state == .measuring) = false :=
    List.any_eq_false.mpr fun k hk => ne_true_of_eq_false <|
      List.any_eq_false.mpr fun x hx => by simpa using (hfree k hk).2 x hx
  have hstart : (stopSetts w s).any (fun k => (s.chains[k]).startAt.isSome) = false :=
    List.any_eq_false.mpr fun k hk => by rw [(hfree k hk).1]; decide
  unfold stopSetts at *
  unfold fltStopBody
  simp only [pw, List.getD_cons_zero]
  rw [if_neg (by rw [hword]; decide), if_neg hblock, if_neg (ne_true_of_eq_false hcal), if_neg (ne_true_of_eq_false hstart)]

end

/-! FLT_GROWTH (R182, R183, R194). -/

theorem growthBody_read (c : Ctx) {w0 w1 : Word} {k : SettId} (s : State) (hk : finOf 48 (bits w0 5 0) = some k)
    (hresv0 : resv w0 31 8 = true) (hresv1 : resv w1 31 25 = true) (hset : bit w0 6 = false) :
    growthBody c [w0, w1] s = growthReply k s := by
  unfold growthBody
  simp only [pw, List.getD_cons_zero, List.getD_cons_succ, hk, hresv0, hresv1, hset]
  rfl

/-- FLT_GROWTH with SET: the structure accepts the shifts within the load limit, and the sett stands still (R182, R183). -/
theorem growthBody_set (c : Ctx) {w0 w1 : Word} {k : SettId} {s : State} (hk : finOf 48 (bits w0 5 0) = some k)
    (hresv0 : resv w0 31 8 = true) (hresv1 : resv w1 31 25 = true) (hset : bit w0 6 = true) (hzero : bit w0 7 = true ∨ w1 = 0)
    (hshifts : shiftsOk (s.shape k) w1 = true)
    (hload : (s.shape k).load (s.setts[k]).lowPower ≤ loadLimit (bit w0 7)) (hrun : (s.setts[k]).run = false) :
    growthBody c [w0, w1] s = .done stOk [w32 (flag 0 (bit w0 7)), w1]
      (s.modChain k fun x => { x with shift := bit w0 7, shifts := w1 }) := by
  have hplain : (!bit w0 7 && w1 != 0) = false := by rcases hzero with h | h <;> simp [h]
  unfold growthBody
  simp only [pw, List.getD_cons_zero, List.getD_cons_succ, hk, hresv0, hresv1, hset, Bool.not_true, Bool.or_self,
    Bool.false_eq_true, if_false]
  rw [if_neg (by simp only [hplain, hshifts, decide_eq_false (Nat.not_lt.mpr hload)]; decide), if_neg (ne_true_of_eq_false hrun)]
  have hstill : flag 1 (s.setts[k]).run = 0 := by rw [hrun]; rfl
  simp only [growthReply, State.modChain_setts, hstill]
  simp [State.modChain]

/-- Settles O31: each command is admitted, within its own checks, and its reply is that of its body. -/
theorem filterCommands : Obligations.FilterCommands := by
  refine ⟨fun p s s1 c w k h hp hk hresv => ⟨fun hset hacc => ?preset,
      fun hset hacc hpreset hpermit henabled hrun hswap hlim => ?setPreset⟩,
    fun p s s1 c w0 k h hw hk hlen hheader hcoefs => ?load,
    fun p s s1 c w h hp hacc hresv hname hactive hidle hsafe => ?start,
    fun p s s1 c w h hp hacc hresv hname hsafe hfree => ?stop,
    fun p s s1 c w0 w1 k h hp hk hresv0 hresv1 => ⟨fun hset hacc => ?growth,
      fun hset hacc hzero hshifts hload hrun hlim => ?setGrowth⟩⟩
  case preset =>
    exact serve_within fltPresetSpec p s s1 c _ _ h (by simp [fltPresetSpec, hp, pw, hset, hacc]) rfl (by rw [hp]; rfl)
      (by rw [hp]; exact fltPresetBody_read c s1 hk hresv hset) (overLimits_free s1 _)
  case setPreset =>
    exact serve_unbroken fltPresetSpec p s s1 c _ _ h (by simp [fltPresetSpec, hp, pw, hset, hacc]) rfl (by rw [hp]; rfl)
      (by rw [hp]; exact fltPresetBody_set c hk hresv hset hpreset hpermit henabled hrun hswap) hlim
  case load =>
    subst hw
    refine ⟨fun hclear hword hacc hrun hlim => ?clear, fun hclear hread hacc => ?read,
      fun hclear hread hacc hpass hrun => ⟨fun hlast hlim => ?chunk, fun hlast st ws t hdone hlim => ?last⟩⟩
    case clear =>
      have hread : bit (pw p.params 0) 6 = false := by rw [hword, clearWord_no_read]
      exact serve_unbroken coefLoadSpec p s s1 c _ _ h (by simp [coefLoadSpec, hread, hacc]) rfl hlen
        (coefLoadBody_clear hk hheader hcoefs c hclear hword hrun) hlim
    case read =>
      exact serve_unbroken coefLoadSpec p s s1 c _ _ h (by simp [coefLoadSpec, hread, hacc]) rfl hlen
        (coefLoadBody_read hk hheader hcoefs c hclear hread) s1.breaksLimits_self
    case chunk =>
      exact serve_unbroken coefLoadSpec p s s1 c _ _ h (by simp [coefLoadSpec, hread, hacc]) rfl hlen
        ((coefLoadBody_chunk hk hheader hcoefs c hclear hread hpass hrun).trans (if_neg (ne_true_of_eq_false hlast))) hlim
    case last =>
      refine serve_done coefLoadSpec p s s1 c _ _ _ h (by simp [coefLoadSpec, hread, hacc]) rfl hlen
        (((coefLoadBody_chunk hk hheader hcoefs c hclear hread hpass hrun).trans (if_pos hlast)).trans hdone) ?_
      by_cases hst : st = stOk
      · rw [hlim hst, Bool.and_false]
      · rw [beq_false_of_ne hst, Bool.false_and]
  case start =>
    have hword := fltWordOk_of hresv hname
    have hmode : fltStartMode p.params s1 = stOk := by
      rw [hp]; exact fltStartMode_ok hword hactive fun k hk => (hidle k hk).1
    have hstop := fun k hk => (hidle k hk).2
    refine ⟨fun hnone => ?waiting, fun hsome hplan hlim => ?starts, fun e k hsome hplan => ?refused⟩
    case waiting =>
      exact serve_unbroken fltStartSpec p s s1 c _ _ h hacc hmode (by rw [hp]; rfl)
        (by rw [hp]; exact fltStartBody_waiting hword hstop c hnone) s1.breaksLimits_self
    case starts =>
      exact serve_unbroken fltStartSpec p s s1 c _ _ h hacc hmode (by rw [hp]; rfl)
        (by rw [hp]; exact fltStartBody_starts hword hstop hsafe hsome c hplan) hlim
    case refused =>
      exact serve_done fltStartSpec p s s1 c _ _ _ h hacc hmode (by rw [hp]; rfl)
        (by rw [hp]; exact fltStartBody_refused hword hstop hsafe hsome c hplan) rfl
  case stop =>
    have hbody := fltStopBody_ok (fltWordOk_of hresv hname) hsafe hfree c
    refine ⟨fun hnone => ⟨s1.drawWord.1, s1.drawWord.2.drawWord.1, ?idle⟩, fun hlive hlim => ?stops⟩
    case idle =>
      exact serve_within fltStopSpec p s s1 c _ _ h hacc rfl (by rw [hp]; rfl)
        (by rw [hp]; exact hbody.trans (if_pos (List.isEmpty_iff.mpr hnone))) (overLimits_free s1 _)
    case stops =>
      exact serve_unbroken fltStopSpec p s s1 c _ _ h hacc rfl (by rw [hp]; rfl)
        (by rw [hp]; exact hbody.trans (if_neg (mt List.isEmpty_iff.mp hlive))) hlim
  case growth =>
    exact serve_unbroken growthSpec p s s1 c _ _ h (by simp [growthSpec, hp, pw, hset, hacc]) rfl (by rw [hp]; rfl)
      (by rw [hp]; exact growthBody_read c s1 hk hresv0 hresv1 hset) s1.breaksLimits_self
  case setGrowth =>
    exact serve_unbroken growthSpec p s s1 c _ _ h (by simp [growthSpec, hp, pw, hset, hacc]) rfl (by rw [hp]; rfl)
      (by rw [hp]; exact growthBody_set c hk hresv0 hresv1 hset hzero hshifts hload hrun) hlim

end Sys2Proof.Machine

namespace Sys2Proof.Machine

/-! The sparse memories along a step, and at reset (R218, R434, R499). -/

/-- Settles O4: the canonical form speaks of the sparse memories alone, and what a step makes of those is canonical again. -/
theorem sparseMemoriesStayCanonical : Obligations.SparseMemoriesStayCanonical := by
  intro s t hs hstep
  rw [canonical_iff] at hs ⊢
  exact (step_good s t hstep).rising hs

/-- Settles O5: the reset state, evaluated; both banks are the one reset bank. -/
theorem resetMemoriesCanonical : Obligations.ResetMemoriesCanonical := by
  refine ⟨(canonical_iff State.reset).mpr reset_rising, fun i => ?_, rfl, rfl, rfl⟩
  exact congrArg Bank.words (Vector.getElem_replicate i.isLt)

end Sys2Proof.Machine

namespace Sys2Proof.Machine

/-! PLAN_WRITE (R218, R221). -/

/-- A change of the shadow bank is what is then found in it. -/
theorem modShadow_shadow (f : Bank → Bank) (s : State) : (modShadow f s).plan.shadow = f s.plan.shadow :=
  (getElem_vmod s.plan.banks s.plan.shadowId f _ s.plan.shadowId.isLt).trans (if_pos rfl)

/-- A change of the shadow bank leaves the active one. -/
theorem modShadow_active (f : Bank → Bank) (s : State) :
    (modShadow f s).plan.banks[s.plan.activeBank] = s.plan.banks[s.plan.activeBank] :=
  (getElem_vmod s.plan.banks s.plan.shadowId f _ s.plan.activeBank.isLt).trans
    (if_neg (Fin.val_ne_of_ne (shadowId_ne_activeBank s.plan).symm))

/-- The bank after a PLAN_WRITE with these words (R221). -/
def writtenBank (ws : List Word) (b : Bank) : Bank :=
  b.write (bit (pw ws 0) 25) (bits (pw ws 0) 16 0 / 8) (pairWords (ws.drop 1))

/-- PLAN_WRITE of 1 to 128 aligned words within the bank, with no swap pending (R221). -/
theorem planWriteBody_ok (c : Ctx) {ws : List Word} {s : State} (hresv : resv (pw ws 0) 31 26 = true)
    (hsome : 1 ≤ bits (pw ws 0) 24 17) (hmany : bits (pw ws 0) 24 17 ≤ 128) (halign : bits (pw ws 0) 16 0 % 8 = 0)
    (hfit : bits (pw ws 0) 16 0 + 8 * bits (pw ws 0) 24 17 ≤ 65600) (hswap : s.plan.swap = none) :
    planWriteBody c ws s =
      .done stOk [w32 (fld 0 17 (8 * (writtenBank ws s.plan.shadow).words.length) + fld 17 2 1)] (modShadow (writtenBank ws) s) := by
  have hgood : ¬ (!resv (pw ws 0) 31 26 || bits (pw ws 0) 24 17 = 0 || 128 < bits (pw ws 0) 24 17 || bits (pw ws 0) 16 0 % 8 != 0 ||
      decide (65600 < bits (pw ws 0) 16 0 + 8 * bits (pw ws 0) 24 17)) = true := by
    simp [hresv, halign, Nat.not_lt.mpr hmany, Nat.not_lt.mpr hfit, Nat.ne_of_gt hsome]
  unfold planWriteBody
  dsimp only
  rw [if_neg hgood, if_neg (by rw [hswap]; decide), modShadow_shadow]
  rfl

/-! PLAN_VALIDATE (R208, R222). -/

theorem planValidateBody_bad (c : Ctx) {e : PlanError} {s : State} (herror : s.validate s.plan.shadow = some e) :
    planValidateBody c [0] s =
      let s0 := readBank s.plan.shadowId 0 bankWords s
      .done stPlanInvalid [w32 (fld 0 8 e.code + fld 8 13 e.idx), w32 (fld 0 21 e.offset), 0, 0, 0]
        ((modShadow (fun b => { b with state := .failed }) (if s.plan.shadow.ecc then shadowEcc s0 else s0)).modPlan fun p =>
          { p with lastError := BitVec.ofNat 8 e.code }) := by
  unfold planValidateBody
  simp only [herror]
  rfl

theorem planValidateBody_valid (c : Ctx) {s : State} (hvalid : s.validate s.plan.shadow = none) :
    planValidateBody c [0] s =
      let cyc := s.plan.shadow.asCycle
      let peak := s.peakMa cyc s.carried
      .done stOk ([0, 0, w32 (fld 0 11 peak + fld 16 14 cyc.frames.length)] ++ words64 (planDigest s.blockSett s.plan.shadow))
        ((modShadow (fun b => { b with state := .valid, peakMa := peak }) (readBank s.plan.shadowId 0 bankWords s)).modPlan fun p =>
          { p with lastError := 0 }) := by
  unfold planValidateBody
  simp only [hvalid]
  rfl

/-! PLAN_SWAP (R213 to R216, R223). -/

section
variable {w lo hi : Word} {s : State} (hresv : resv w 31 2 = true)
include hresv

/-- CANCEL stands alone: neither AT nor a tick is given beside it (R223). -/
theorem planSwapBody_cancel (c : Ctx) (hcancel : bit w 1 = true) (hat : bit w 0 = false) (htk : nat64 lo hi = 0) :
    planSwapBody c [w, lo, hi] s = cancelSwap s := by
  unfold planSwapBody
  simp only [pw, List.getD_cons_zero, List.getD_cons_succ, hresv, hcancel, hat, htk]
  rfl

/-- PLAN_SWAP of a valid shadow: a tick given is a boundary of both plans within its range, and without one the next edge is
taken (R213, R214). -/
theorem planSwapBody_swap (c : Ctx) (hset : bit w 1 = false) (hswap : s.plan.swap = none) (hvalid : s.plan.shadow.state = .valid)
    (hlock : s.swapLocked = false)
    (hgiven : bit w 0 = true → nat64 lo hi % s.swapGrid = 0 ∧ s.tkN + 20000 ≤ nat64 lo hi ∧ nat64 lo hi ≤ s.tkN + 200000000)
    (hnext : bit w 0 = false → nat64 lo hi = 0) :
    planSwapBody c [w, lo, hi] s =
      let e := if bit w 0 then nat64 lo hi else s.nextEdge
      .done stOk (0 :: words64 e) (s.modPlan fun p => { p with swap := some e }) := by
  have hform : ¬ (!resv w 31 2 || ((bit w 1 || !bit w 0) && nat64 lo hi != 0) || (bit w 1 && bit w 0)) = true := by
    cases hat : bit w 0 with
    | true => simp [hresv, hset]
    | false => simp [hresv, hset, hnext hat]
  have hedge : ¬ (bit w 0 && (nat64 lo hi % s.swapGrid != 0 || decide (nat64 lo hi < s.tkN + 20000) ||
      decide (s.tkN + 200000000 < nat64 lo hi))) = true := by
    cases hat : bit w 0 with
    | true =>
      obtain ⟨hgrid, hearly, hlate⟩ := hgiven hat
      simp [hgrid, hearly, hlate]
    | false => simp
  unfold planSwapBody
  simp only [pw, List.getD_cons_zero, List.getD_cons_succ]
  rw [if_neg hform, if_neg (by rw [hset]; decide), if_neg (by rw [hswap]; decide), if_neg (by rw [hvalid]; decide), if_neg hedge,
    if_neg (by rw [hlock]; decide)]

end

theorem cancelSwap_ahead {e : Nat} {s : State} (hswap : s.plan.swap = some e) (hahead : s.tkN < e) :
    cancelSwap s = .done stOk (1 :: words64 e) (s.modPlan fun p => { p with swap := none }) := by
  unfold cancelSwap
  simp only [hswap]
  exact if_pos hahead

theorem cancelSwap_reached {e : Nat} {s : State} (hswap : s.plan.swap = some e) (hreached : e ≤ s.tkN) :
    cancelSwap s = .done stOk (0 :: words64 e) s := by
  unfold cancelSwap
  simp only [hswap]
  exact if_neg (Nat.not_lt.mpr hreached)

theorem cancelSwap_none {s : State} (hswap : s.plan.swap = none) : cancelSwap s = .done stOk [0, 0, 0] s := by
  unfold cancelSwap
  simp only [hswap]

/-! PLAN_READ and PLAN_STATUS (R218, R224, R225). -/

/-- PLAN_READ of the header, with no count beside it, or of 1 to 128 entries of the bank (R224). -/
theorem planReadBody_ok (c : Ctx) {w : Word} {s : State} (hresv : resv w 31 23 = true)
    (hrange : if bit w 22 then bits w 21 14 = 0 else 1 ≤ bits w 21 14 ∧ bits w 21 14 ≤ 128 ∧ bits w 13 1 + bits w 21 14 ≤ 8192) :
    planReadBody c [w] s =
      let k := if bit w 0 then s.plan.shadowId else s.plan.activeBank
      let b := s.plan.banks[k]
      let at_ := if bit w 22 then 0 else 8 + bits w 13 1
      let m := if bit w 22 then 8 else bits w 21 14
      let s1 := readBank k at_ m s
      .done stOk
        (if bit w 22 then (List.range 16).map b.header
         else (List.range (bits w 21 14)).flatMap fun i => words64 (b.entry (bits w 13 1 + i)).toNat)
        (if b.eccIn at_ m = true ∧ bit w 0 = true then shadowEcc s1 else s1) := by
  have hgood : ¬ (!resv w 31 23 || if bit w 22 then bits w 21 14 != 0
      else bits w 21 14 == 0 || decide (128 < bits w 21 14) || decide (8192 < bits w 13 1 + bits w 21 14)) = true := by
    cases hheader : bit w 22 with
    | true =>
      rw [hheader, if_pos rfl] at hrange
      simp [hresv, hrange]
    | false =>
      rw [hheader, if_neg Bool.false_ne_true] at hrange
      obtain ⟨hsome, hmany, hfit⟩ := hrange
      simp [hresv, Nat.ne_of_gt hsome, hmany, hfit]
  unfold planReadBody
  simp only [pw, List.getD_cons_zero]
  rw [if_neg hgood]
  simp only [Bool.and_eq_true]

/-- Settles O35: each command is admitted, within its own checks, and its reply is that of its body. -/
theorem planCommands : Obligations.PlanCommands := by
  refine ⟨fun p s s1 c w h hw hacc hlen hresv hsome hmany halign hfit hswap => ?write,
    fun p s s1 c h hp hacc => ⟨fun e herror => ?invalid, fun hvalid hlim => ?valid⟩,
    fun p s s1 c w lo hi h hp hacc hmode hresv => ⟨fun hcancel hat htk => ?cancel, fun hset hswap hvalid hlock => ?swap⟩,
    fun p s s1 c w h hp hacc hresv hrange => ?read, fun p s s1 c h hp hacc => ?status⟩
  case write =>
    subst hw
    exact fun hlim => ⟨serve_unbroken planWriteSpec p s s1 c _ _ h hacc rfl (beq_iff_eq.mpr hlen)
      (planWriteBody_ok c hresv hsome hmany halign hfit hswap) hlim, modShadow_active (writtenBank p.params) s1⟩
  case invalid =>
    exact serve_done planValidateSpec p s s1 c _ _ _ h hacc rfl (by rw [hp]; rfl)
      (by rw [hp]; exact planValidateBody_bad c herror) rfl
  case valid =>
    exact serve_unbroken planValidateSpec p s s1 c _ _ h hacc rfl (by rw [hp]; rfl)
      (by rw [hp]; exact planValidateBody_valid c hvalid) hlim
  case cancel =>
    have answered : ∀ (ws : List Word) (t : State), cancelSwap s1 = .done stOk ws t → s1.breaksLimits t = false →
        exec (.planSwap p) s = replied 0x0502 p s1 stOk ws t := fun ws t hdone hlim =>
      serve_unbroken planSwapSpec p s s1 c ws t h hacc (by simp [planSwapSpec, modeIf, hmode]) (by rw [hp]; rfl)
        (by rw [hp]; exact (planSwapBody_cancel hresv c hcancel hat htk).trans hdone) hlim
    exact ⟨fun e hswap hahead => answered _ _ (cancelSwap_ahead hswap hahead),
      fun e hswap hreached => answered _ _ (cancelSwap_reached hswap hreached) s1.breaksLimits_self,
      fun hswap => answered _ _ (cancelSwap_none hswap) s1.breaksLimits_self⟩
  case swap =>
    exact fun hgiven hnext hlim => serve_unbroken planSwapSpec p s s1 c _ _ h hacc (by simp [planSwapSpec, modeIf, hmode])
      (by rw [hp]; rfl) (by rw [hp]; exact planSwapBody_swap hresv c hset hswap hvalid hlock hgiven hnext) hlim
  case read =>
    exact fun hlim => serve_unbroken planReadSpec p s s1 c _ _ h hacc rfl (by rw [hp]; rfl)
      (by rw [hp]; exact planReadBody_ok c hresv hrange) hlim
  case status =>
    exact serve_unbroken planStatusSpec p s s1 c _ _ h hacc rfl (by rw [hp]; rfl) (by rw [hp]; rfl) s1.breaksLimits_self

end Sys2Proof.Machine

namespace Sys2Proof.Machine

/-! The time commands and the delay taps (R249, R251 to R255). -/

/-- A number below n is found as the index that it spells. -/
theorem finOf_val {n i : Nat} {k : Fin n} (h : i = k.val) : finOf n i = some k := by
  subst h
  exact dif_pos k.isLt

/-! TIME_SERVO_CONFIG (R252). -/

section
variable {w0 w1 : Word} {k : Port} (hresv : resv w0 31 7 = true) (hk : bits w0 6 2 = k.val)
include hresv hk

/-- With PORT_SEL the request reads or sets one port's time enable and asymmetry. -/
theorem timeServoBody_port (c : Ctx) (s : State) (hport : bit w0 1 = true) (hword : resv w1 15 1 = true) :
    timeServoBody c [w0, w1] s =
      let reply (u : State) := Res.done stOk [timePortWord u.time.cfg k, w32 (b2n u.time.iSat)] u
      if bit w0 0 then reply (s.modTime fun t => { t with cfg := { t.cfg with
        timeEn := vset t.cfg.timeEn k (bit w1 0), asymPs := vset t.cfg.asymPs k (w1.extractLsb' 16 16) } })
      else reply s := by
  obtain rfl : k = ⟨bits w0 6 2, Nat.mod_lt _ (by decide)⟩ := Fin.ext hk.symm
  unfold timeServoBody
  simp only [pw, List.getD_cons_zero, List.getD_cons_succ, hresv, hport, hword]
  cases bit w0 0 <;> rfl

/-- Without it the request reads or sets the servo's own settings, each within its range. -/
theorem timeServoBody_servo (c : Ctx) (s : State) (hservo : bit w0 1 = false) (hzero : k.val = 0) (hword : resv w1 31 16 = true)
    (hrange : bit w0 0 = true → servoOk w1 = true) :
    timeServoBody c [w0, w1] s =
      let reply (u : State) := Res.done stOk [servoWord u.time.cfg, w32 (b2n u.time.iSat)] u
      if bit w0 0 then reply (s.modTime fun t => { t with cfg := { t.cfg with
        syncLog2 := w1.extractLsb' 0 3, kp := w1.extractLsb' 3 4, ki := w1.extractLsb' 7 5, holdover := w1.extractLsb' 12 4 } })
      else reply s := by
  have hnone : bits w0 6 2 = 0 := hk.trans hzero
  unfold timeServoBody
  simp only [pw, List.getD_cons_zero, List.getD_cons_succ, hresv, hservo, hword, hnone]
  cases hset : bit w0 0 with
  | false => rfl
  | true =>
    rw [hrange hset]
    rfl

end

/-! TIME_STEP_POLICY (R254). -/

theorem timeStepPolicyBody_read (c : Ctx) {w : Word} (s : State) (hresv : resv w 31 22 = true) (hset : bit w 0 = false) :
    timeStepPolicyBody c [w] s =
      .done stOk [w32 (fld 0 14 s.time.cfg.stepLimit.toNat + fld 14 7 s.time.cfg.slewMax.toNat)] s := by
  unfold timeStepPolicyBody
  simp only [pw, List.getD_cons_zero, hresv, hset]
  rfl

theorem toNat_ofNat_bits (w : Word) (hi lo : Nat) : (BitVec.ofNat (hi + 1 - lo) (bits w hi lo)).toNat = bits w hi lo :=
  Nat.mod_eq_of_lt (Nat.mod_lt _ (Nat.two_pow_pos _))

/-- TIME_STEP_POLICY with SET: both limits lie within their ranges, and the reply shows them as they are now. -/
theorem timeStepPolicyBody_set (c : Ctx) {w : Word} (s : State) (hresv : resv w 31 22 = true) (hset : bit w 0 = true)
    (hstep : 1 ≤ bits w 14 1) (hfar : bits w 14 1 ≤ 10000) (hslew : 1 ≤ bits w 21 15) (hfast : bits w 21 15 ≤ 100) :
    timeStepPolicyBody c [w] s =
      .done stOk [w32 (fld 0 14 (bits w 14 1) + fld 14 7 (bits w 21 15))]
        (s.modTime fun t => { t with cfg := { t.cfg with
          stepLimit := BitVec.ofNat 14 (bits w 14 1), slewMax := BitVec.ofNat 7 (bits w 21 15) } }) := by
  have hrange : ¬ (bits w 14 1 = 0 ∨ 10000 < bits w 14 1 ∨ bits w 21 15 = 0 ∨ 100 < bits w 21 15) := by omega
  unfold timeStepPolicyBody
  simp only [pw, List.getD_cons_zero, hresv, hset, Bool.not_true, Bool.false_eq_true, if_false]
  rw [if_neg hrange]
  simp only [State.modTime, toNat_ofNat_bits w 14 1, toNat_ofNat_bits w 21 15]

/-! DELAY_TAP_SET and DELAY_TAP_ADJUST (R249, R255). -/

/-- The reply of DELAY_TAP_SET: a sett's tap, its target and its analogue delay (R255). -/
def tapWords (k : SettId) (s : State) : List Word :=
  let x := s.chains[k]
  [w32 (fld 0 8 (x.tap / 128) + fld 8 7 x.tap + fld 15 8 (x.tapT / 128) + fld 23 7 x.tapT + flag 30 (x.tap == x.tapT)),
   w32 s.factory.tAnPs[k]]

section
variable {w trim : Word} {k : SettId} (hk : bits w 5 0 = k.val) (hresv : resv w 31 15 = true)
include hk hresv

theorem delayTapBody_read (c : Ctx) (s : State) (hset : bit w 6 = false) :
    delayTapBody c [w, trim] s = .done stOk (tapWords k s) s := by
  unfold delayTapBody
  simp only [pw, List.getD_cons_zero, List.getD_cons_succ, finOf_val hk, hresv, hset]
  rfl

/-- DELAY_TAP_SET with SET: the analogue delay and the trim together lie within the line. -/
theorem delayTapBody_set (c : Ctx) {s : State} (hset : bit w 6 = true) (hlow : 0 ≤ s.factory.tAnPs[k] + trim.toInt)
    (hhigh : s.factory.tAnPs[k] + trim.toInt ≤ 255992) :
    delayTapBody c [w, trim] s =
      let t := s.modChain k fun x =>
        { x with tapT := tapOfPs (s.factory.tAnPs[k] + trim.toInt), trimPs := trim, adjMs := w.extractLsb' 7 8, tapAt := s.lcN }
      .done stOk (tapWords k t) t := by
  have hline : ¬ ((s.factory.tAnPs[k] : Int) + trim.toInt < 0 ∨ 255992 < (s.factory.tAnPs[k] : Int) + trim.toInt) := by omega
  unfold delayTapBody
  simp only [pw, List.getD_cons_zero, List.getD_cons_succ, finOf_val hk, hresv, hset, Bool.not_true, Bool.false_eq_true, if_false]
  rw [if_neg hline]
  rfl

end

/-- A tap off its target moves at the next adjustment instant (R249). -/
theorem execDelayTapAdjust_off {k : SettId} {s : State} (hoff : (s.chains[k]).tap ≠ (s.chains[k]).tapT) :
    execDelayTapAdjust k s = .next
      (let x := s.chains[k]
       let s1 := atLc (x.tapAt + adjNs x.adjMs) s
       s1.modChain k fun y => { y with tap := if y.tap < y.tapT then y.tap + 1 else y.tap - 1, tapAt := s1.lcN }) :=
  guardNext_pos (bne_iff_ne.mpr hoff)

/-- Settles O40: each command is admitted, within its own checks, and its reply is that of its body. -/
theorem timeCommands : Obligations.TimeCommands := by
  refine ⟨fun p s s1 c h hp hacc => ?read,
    fun p s s1 c w0 w1 k h hp hresv hk => ⟨fun hget hacc => ⟨fun hport hword => ?port, fun hservo hzero hword => ?servo⟩,
      fun hset hacc => ⟨fun hport hword => ?setPort, fun hservo hzero hword hsync hkp hkp' hki hki' hhold hhold' => ?setServo⟩⟩,
    fun p s s1 c w0 w1 w2 w3 h hp hacc hresv0 hresv3 hsource hlock heth => ?role,
    fun p s s1 c w h hp hresv => ⟨fun hget hacc => ?policy, fun hset hacc hstep hfar hslew hfast => ?setPolicy⟩,
    fun p s s1 c w trim k h hp hk hresv => ⟨fun hget hacc => ?tap, fun hset hacc hlow hhigh => ?setTap⟩,
    fun k s hoff => execDelayTapAdjust_off hoff⟩
  case read =>
    exact serve_unbroken timeReadSpec p s s1 c _ _ h hacc rfl (by rw [hp]; rfl) (by rw [hp]; rfl) s1.breaksLimits_self
  case port =>
    exact serve_unbroken timeServoSpec p s s1 c _ _ h (by simp [timeServoSpec, hp, pw, hget, hacc]) rfl (by rw [hp]; rfl)
      (by rw [hp]; exact (timeServoBody_port hresv hk c s1 hport hword).trans (if_neg (ne_true_of_eq_false hget))) s1.breaksLimits_self
  case servo =>
    exact serve_unbroken timeServoSpec p s s1 c _ _ h (by simp [timeServoSpec, hp, pw, hget, hacc]) rfl (by rw [hp]; rfl)
      (by rw [hp]; exact (timeServoBody_servo hresv hk c s1 hservo hzero hword (by simp [hget])).trans (if_neg (ne_true_of_eq_false hget)))
      s1.breaksLimits_self
  case setPort =>
    exact fun hlim => serve_unbroken timeServoSpec p s s1 c _ _ h (by simp [timeServoSpec, hp, pw, hset, hacc]) rfl (by rw [hp]; rfl)
      (by rw [hp]; exact (timeServoBody_port hresv hk c s1 hport hword).trans (if_pos hset)) hlim
  case setServo =>
    have hrange : servoOk w1 = true := by simp [servoOk, hsync, hkp, hkp', hki, hki', hhold, hhold']
    exact fun hlim => serve_unbroken timeServoSpec p s s1 c _ _ h (by simp [timeServoSpec, hp, pw, hset, hacc]) rfl (by rw [hp]; rfl)
      (by rw [hp]; exact (timeServoBody_servo hresv hk c s1 hservo hzero hword fun _ => hrange).trans (if_pos hset)) hlim
  case role =>
    obtain ⟨q, hq, hq'⟩ := heth
    have hgood : ¬ (!resv w0 31 15 || !resv w3 31 16 || bits w0 1 0 = 3 || bits w1 31 16 = 0) = true := by
      simp [hresv0, hresv3, hsource, hlock]
    have heth : ¬ ((bits w0 1 0 = 1 || !c.replay) && !s1.isEth q) = true := by simp [hq']
    obtain rfl : q = ⟨bits w0 5 3, Nat.lt_of_lt_of_le (Nat.mod_lt _ (by decide)) (by decide)⟩ := Fin.ext hq
    exact fun hlim => serve_unbroken timeRoleSpec p s s1 c _ _ h hacc rfl (by rw [hp]; rfl)
      (by rw [hp]; exact (if_neg hgood).trans (if_neg heth)) hlim
  case policy =>
    exact serve_unbroken timeStepPolicySpec p s s1 c _ _ h (by simp [timeStepPolicySpec, hp, pw, hget, hacc]) rfl (by rw [hp]; rfl)
      (by rw [hp]; exact timeStepPolicyBody_read c s1 hresv hget) s1.breaksLimits_self
  case setPolicy =>
    exact fun hlim => serve_unbroken timeStepPolicySpec p s s1 c _ _ h (by simp [timeStepPolicySpec, hp, pw, hset, hacc]) rfl
      (by rw [hp]; rfl) (by rw [hp]; exact timeStepPolicyBody_set c s1 hresv hset hstep hfar hslew hfast) hlim
  case tap =>
    exact serve_unbroken delayTapSpec p s s1 c _ _ h (by simp [delayTapSpec, hp, pw, hget, hacc]) rfl (by rw [hp]; rfl)
      (by rw [hp]; exact delayTapBody_read hk hresv c s1 hget) s1.breaksLimits_self
  case setTap =>
    exact fun hlim => serve_unbroken delayTapSpec p s s1 c _ _ h (by simp [delayTapSpec, hp, pw, hset, hacc]) rfl (by rw [hp]; rfl)
      (by rw [hp]; exact delayTapBody_set hk hresv c hset hlow hhigh) hlim

end Sys2Proof.Machine

namespace Sys2Proof.Machine

/-! A leader's rows, the time map and the wrap of LC (R226, R230, R236, R238, R244 to R247). -/

/-- A realignment made due changes neither TQ nor TIME_EPOCH (R237). -/
theorem startRealign_tq_epoch (s : State) :
    (startRealign s).time.tq = s.time.tq ∧ (startRealign s).time.epoch = s.time.epoch := by
  unfold startRealign
  dsimp only
  split
  · exact ⟨rfl, rfl⟩
  · split
    · simp
    · exact ⟨rfl, rfl⟩

theorem realignIf_tq_epoch {p : Prop} {_ : Decidable p} (s : State) :
    (if p then startRealign s else s).time.tq = s.time.tq ∧ (if p then startRealign s else s).time.epoch = s.time.epoch := by
  split
  · exact startRealign_tq_epoch s
  · exact ⟨rfl, rfl⟩

/-- A change of TQ takes the new value and stays within the epoch (R230, R238). -/
theorem setTq_tq_epoch {q : BitVec 4} {s : State} (h : s.time.tq ≠ q) :
    (setTq q s).time.tq = q ∧ (setTq q s).time.epoch = s.time.epoch := by
  unfold setTq
  rw [if_neg h]
  refine (realignIf_tq_epoch _).imp (fun htq => htq.trans ?_) fun hepoch => hepoch.trans ?_
  · simp [raiseTimeMap]
  · simp [raiseTimeMap]

/-- TQ 4 ends HOLDOVER_S after it began, by whether a source or a parent judges the hub (R238, R247). -/
theorem execHoldoverExpiry_held {t : Nat} {s : State} (hhold : s.time.holdAt = some t) (htq : s.time.tq = 4) :
    execHoldoverExpiry s = .next
      (let s1 := atLc (t + s.time.cfg.holdover.toNat * 1000000000) s
       if s1.fab.leads && !s1.sourceJudges then setTq 3 s1 else if s1.time.parent.isSome then setTq 1 s1 else setTq 0 s1) := by
  unfold execHoldoverExpiry
  simp only [hhold]
  rw [if_pos htq]

/-! The pulse per second (R246). -/

/-- The instant of an edge, less its delay, in 2^-8 ns (R246). -/
def edgeInstant (stamp : Nat) (s : State) : Int := (stamp : Int) - s.time.cfg.ppsDelay.toNat * 256

/-- An instant lies within 100 ppm of one second after another (R246). -/
def secondApart (st l : Int) : Prop := (st - l - 1000000000 * 256).natAbs ≤ 100000 * 256

/-- The whole second that an edge marks: the one TIME_ROLE names, the next, or the nearest (R246). -/
def ppsSecond (nt : Int) (s : State) : Nat :=
  match s.time.cfg.ppsSec, s.time.srcState.lastEdge with
  | some n, _ => n
  | none, some _ => s.time.srcState.second + 1
  | none, none => (roundDiv nt (65536 * 1000000000)).toNat

section
variable {stamp : Nat} {s : State} (hlead : s.fab.leads = true) (hpps : s.time.cfg.source = .pps)
include hlead hpps

theorem execPpsEdge_ignored {l : Int} (hlast : s.time.srcState.lastEdge = some l) (hfar : ¬ secondApart (edgeInstant stamp s) l) :
    execPpsEdge stamp s = .next (s.modTime fun t => { t with srcState := { t.srcState with ignored := t.srcState.ignored + 1 } }) := by
  refine (guardNext_pos (by rw [hlead, hpps]; rfl)).trans (congrArg _ (if_pos ?_))
  rw [hlast]
  exact decide_eq_true (Nat.not_le.mp hfar)

theorem execPpsEdge_taken (hnear : ∀ l, s.time.srcState.lastEdge = some l → secondApart (edgeInstant stamp s) l) :
    execPpsEdge stamp s = .next
      (let st := edgeInstant stamp s
       let sec := ppsSecond (s.ntOfStamp st) s
       sourceUpdate (nsOf (s.ntOfStamp st) - (sec : Rat) * 1000000000) 1000000000 (s.modTime fun t => { t with
         cfg := { t.cfg with ppsSec := none }
         srcState := { t.srcState with second := sec, lastEdge := some st, syncAt := s.lcN } })) := by
  refine (guardNext_pos (by rw [hlead, hpps]; rfl)).trans (congrArg _ (if_neg ?_))
  cases hlast : s.time.srcState.lastEdge with
  | none => exact Bool.false_ne_true
  | some l => exact fun hoff => Nat.not_lt.mpr (hnear l hlast) (of_decide_eq_true hoff)

end

/-! The precision time protocol (R244, R245). -/

section
variable {a : Announce} {s : State} (hon : s.ptpOn a.port = true) (hdomain : a.domain = s.time.cfg.ptpDomain)
include hon hdomain

/-- An announced grandmaster is taken unless another one is selected that it does not come before (R245). -/
theorem execPtpAnnounceRx_taken
    (h : ∀ m, s.time.srcState.master = some m → m.clockId = a.clockId ∨ keyBefore (announceKey a) (announceKey m) = true) :
    execPtpAnnounceRx a s = .next (s.modTime fun t =>
      { t with srcState := { t.srcState with master := some a, announceAt := s.lcN, utcOffset := a.utcOffset } }) := by
  refine (guardNext_pos (by simp [hon, hdomain])).trans (congrArg _ (if_pos ?_))
  cases hmaster : s.time.srcState.master with
  | none => rfl
  | some m => simpa using h m hmaster

theorem execPtpAnnounceRx_passed {m : Announce} (hmaster : s.time.srcState.master = some m) (hother : m.clockId ≠ a.clockId)
    (hworse : keyBefore (announceKey a) (announceKey m) = false) : execPtpAnnounceRx a s = .next s := by
  refine (guardNext_pos (by simp [hon, hdomain])).trans (congrArg _ (if_neg ?_))
  simp [hmaster, hother, hworse]

end

section
variable {k : Fin 8} {id : Word64} {seq : BitVec 16} {s : State} (hfrom : s.fromMaster k id = true)
include hfrom

/-- The follow-up of the sync that came with its number pairs the two times and sends the Delay_Req (R245). -/
theorem execPtpFollowUpRx_paired {t2 : Int} (origin : Int) (hsync : s.time.srcState.syncSeq = some (seq, t2)) :
    execPtpFollowUpRx k id seq origin s = .next (s.modTime fun t => { t with srcState := { t.srcState with
      syncSeq := none, t12 := some (origin, t2), reqSeq := t.srcState.reqSeq + 1, reqOut := some (t.srcState.reqSeq, t.cfg.ptpUdp) } }) := by
  refine (guardNext_pos hfrom).trans (congrArg _ ?_)
  simp only [hsync, if_true]

/-- The response to the Delay_Req that is out completes the measurement and updates the servo (R244, R245). -/
theorem execPtpDelayRespRx_answer {t1 t2 : Int} {udp : Bool} (sent : Nat) (receive : Int) (htimes : s.time.srcState.t12 = some (t1, t2))
    (hout : s.time.srcState.reqOut = some (seq, udp)) :
    execPtpDelayRespRx k id seq sent receive s = .next
      (let x := s.time.srcState
       sourceUpdate (nsOf ((t2 - t1) - (receive - s.ntOfStamp sent)) / 2)
        (if x.received && s.lcN - x.updAt ≠ 0 then ((s.lcN - x.updAt : Nat) : Rat) else 1000000000)
        (s.modTime fun t => { t with srcState := { t.srcState with t12 := none, reqOut := none } })) := by
  refine (guardNext_pos (by simp [hfrom, hout])).trans (congrArg _ ?_)
  simp only [htimes]

end

/-- A response under another number than that of the Delay_Req that is out does nothing (R245). -/
theorem execPtpDelayRespRx_stray {k : Fin 8} {id : Word64} {seq : BitVec 16} {s : State} (sent : Nat) (receive : Int)
    (hout : ∀ udp, s.time.srcState.reqOut ≠ some (seq, udp)) :
    execPtpDelayRespRx k id seq sent receive s = .next s := by
  have hnot : ¬ (s.fromMaster k id && (s.time.srcState.reqOut.map (·.1)) == some seq) = true := by
    rw [Bool.and_eq_true, beq_iff_eq, Option.map_eq_some_iff]
    rintro ⟨-, ⟨n, udp⟩, hreq, rfl⟩
    exact hout udp hreq
  exact congrArg _ (if_neg hnot)

/-- A source that is required, or that TQ 3 rests on, is lost as a parent is (R238, R247). -/
theorem sourceGone_eq (s : State) : sourceGone s =
    if s.time.cfg.srcRequired || s.time.tq == 3 then parentGone s
    else setRate s.time.rI (s.modTime fun t => { t with rP := 0 }) := by
  unfold sourceGone
  cases s.time.cfg.srcRequired with
  | true => rfl
  | false =>
    rw [Bool.false_or, if_neg Bool.false_ne_true]
    by_cases h : s.time.tq = 3
    · rw [if_pos h, if_pos (beq_iff_eq.mpr h)]
    · rw [if_neg h, if_neg (mt beq_iff_eq.mp h)]

theorem execSourceLost_due {s : State} (hlead : s.fab.leads = true) (hsource : s.time.cfg.source ≠ .none)
    (hreceived : s.time.srcState.received = true) (hlost : s.time.srcState.lost = false) :
    execSourceLost s = .next
      (let x := s.time.srcState
       let s1 := atLc ((if s.time.cfg.source == .ptp then min x.announceAt x.syncAt else x.syncAt) + 3000000000) s
       sourceGone (s1.modTime fun t => { t with srcState := { t.srcState with
         lost := true, locked := false, lastEdge := none, master := none, syncSeq := none, t12 := none, reqOut := none } })) :=
  guardNext_pos (by simp [hlead, hsource, hreceived, hlost])

/-- Settles O42: each row runs under its guard, and what it does goes by the source, the grandmaster and the edge before. -/
theorem leaderTime : Obligations.LeaderTime := by
  refine ⟨fun s hlead => guardNext_pos hlead, fun t s hhold htq => execHoldoverExpiry_held hhold htq,
    fun s hclock hfw => guardNext_pos (by rw [hclock, hfw]; rfl), fun q s h => setTq_tq_epoch h,
    fun stamp s hlead hpps => ⟨fun l hlast hfar => execPpsEdge_ignored hlead hpps hlast hfar, fun hnear => ?edge⟩,
    fun a s hon hdomain => ⟨fun hnone => ?first, fun m hmaster hbetter => ?better,
      fun m hmaster hother hworse => execPtpAnnounceRx_passed hon hdomain hmaster hother hworse⟩,
    fun k id seq s hfrom => ⟨fun stamp => guardNext_pos hfrom, fun t2 origin hsync => execPtpFollowUpRx_paired hfrom origin hsync,
      fun t1 t2 sent receive udp htimes hout => execPtpDelayRespRx_answer hfrom sent receive htimes hout,
      fun sent receive hout => execPtpDelayRespRx_stray sent receive hout⟩,
    fun s hlead hsource hreceived hlost => ?lost, fun s hclock => guardNext_pos hclock⟩
  case edge => exact execPpsEdge_taken hlead hpps hnear
  case first => exact execPtpAnnounceRx_taken hon hdomain (by simp [hnone])
  case better =>
    refine execPtpAnnounceRx_taken hon hdomain fun n hn => ?_
    obtain rfl : m = n := Option.some.inj (hmaster.symm.trans hn)
    exact hbetter
  case lost => exact (execSourceLost_due hlead hsource hreceived hlost).trans (congrArg _ (sourceGone_eq _))

end Sys2Proof.Machine

namespace Sys2Proof.Machine

/-! TDC_CONFIG, TDC_WINDOW, TDC_READ and TDC_CAL (R256, R264, R272, R274 to R277). -/

section
variable {w0 w1 w2 : Word} {i : Fin 16} (hi : bits w0 3 0 = i.val) (hresv0 : resv w0 31 5 = true) (hresv1 : resv w1 31 4 = true)
include hi hresv0 hresv1

theorem tdcConfigBody_read (c : Ctx) (s : State) (hset : bit w0 4 = false) :
    tdcConfigBody c [w0, w1, w2] s = tdcConfigReply i s := by
  obtain rfl : i = ⟨bits w0 3 0, Nat.mod_lt _ (by decide)⟩ := Fin.ext hi.symm
  unfold tdcConfigBody
  simp only [pw, List.getD_cons_zero, List.getD_cons_succ, hresv0, hresv1, hset]
  rfl

/-- TDC_CONFIG with SET: DELAY_PS lies within 1 µs (R274). -/
theorem tdcConfigBody_set (c : Ctx) (s : State) (hset : bit w0 4 = true) (hlow : -1000000 ≤ w2.toInt)
    (hhigh : w2.toInt ≤ 1000000) :
    tdcConfigBody c [w0, w1, w2] s = tdcConfigReply i (s.modEdge i fun e =>
      { e with sel := w1.extractLsb' 0 2, stampEn := bit w1 2, cmos := bit w1 3, delayPs := w2
               changeEnd := if e.cmos = bit w1 3 then e.changeEnd else some (s.lcN + 10000) }) := by
  obtain rfl : i = ⟨bits w0 3 0, Nat.mod_lt _ (by decide)⟩ := Fin.ext hi.symm
  have hrange : ¬ (decide (w2.toInt < -1000000) || decide (1000000 < w2.toInt)) = true := by
    simp only [Bool.or_eq_true, decide_eq_true_eq]
    omega
  unfold tdcConfigBody
  simp only [pw, List.getD_cons_zero, List.getD_cons_succ, hresv0, hresv1, hset, Bool.not_true, Bool.or_self,
    Bool.false_eq_true, if_false]
  rw [if_neg hrange]

end

/-- The settings of a unit as TDC_WINDOW gives them, with what was open cleared before (R272, R275). -/
def setWindow (w0 w1 w2 : Word) (u : MeasUnit) : MeasUnit :=
  { clearOpen u with
    enable := bit w0 4, bipolar := bit w0 5, startIn := w0.extractLsb' 6 4, startFall := bit w0 10
    stopIn := w0.extractLsb' 11 4, stopFall := bit w0 15, wPre := w1.extractLsb' 0 20, wPost := w2.extractLsb' 0 30 }

section
variable {w0 w1 w2 : Word} {m : Fin 8} (hm : bits w0 2 0 = m.val) (hresv0 : resv w0 31 16 = true) (hresv1 : resv w1 31 20 = true)
  (hresv2 : resv w2 31 30 = true)
include hm hresv0 hresv1 hresv2

theorem tdcWindowBody_read (c : Ctx) (s : State) (hset : bit w0 3 = false) :
    tdcWindowBody c [w0, w1, w2] s = .done stOk (unitWords m s.tdc.units[m]) s := by
  obtain rfl : m = ⟨bits w0 2 0, Nat.mod_lt _ (by decide)⟩ := Fin.ext hm.symm
  unfold tdcWindowBody
  simp only [pw, List.getD_cons_zero, List.getD_cons_succ, hresv0, hresv1, hresv2, hset]
  rfl

/-- TDC_WINDOW with SET: W_POST lies in its range, and start and stop are not the same edge (R275). -/
theorem tdcWindowBody_set (c : Ctx) (s : State) (hset : bit w0 3 = true) (hshort : 4 ≤ bits w2 29 0)
    (hlong : bits w2 29 0 ≤ 1000000000) (hedges : bits w0 9 6 ≠ bits w0 14 11 ∨ bit w0 10 ≠ bit w0 15) :
    tdcWindowBody c [w0, w1, w2] s =
      let t := (flushTie m s).modUnit m (setWindow w0 w1 w2)
      .done stOk (unitWords m t.tdc.units[m]) t := by
  obtain rfl : m = ⟨bits w0 2 0, Nat.mod_lt _ (by decide)⟩ := Fin.ext hm.symm
  have hgood : ¬ (decide (bits w2 29 0 < 4) || decide (1000000000 < bits w2 29 0) ||
      (bits w0 9 6 == bits w0 14 11 && bit w0 10 == bit w0 15)) = true := by
    simp only [Bool.or_eq_true, Bool.and_eq_true, decide_eq_true_eq, beq_iff_eq]
    rintro ((h | h) | ⟨hinput, hedge⟩)
    · exact Nat.not_lt.mpr hshort h
    · exact Nat.not_lt.mpr hlong h
    · exact hedges.elim (· hinput) (· hedge)
  unfold tdcWindowBody
  simp only [pw, List.getD_cons_zero, List.getD_cons_succ, hresv0, hresv1, hresv2, hset, Bool.not_true, Bool.or_self,
    Bool.false_eq_true, if_false]
  rw [if_neg hgood]
  rfl

end

section
variable {w : Word} (hresv : resv w 31 6 = true)
include hresv

theorem tdcReadBody_input (c : Ctx) (s : State) {i : Fin 16} (hi : bits w 4 0 = i.val) :
    tdcReadBody c [w] s =
      let e := s.tdc.inputs[i]
      .done stOk ((edgeCounters e).flatMap wrapWords ++ words64 (lowBits 64 (e.lastStamp / 256)) ++ [w32 (lowBits 8 e.lastStamp)])
        (if bit w 5 then s.modEdge i clearEdge else s) := by
  unfold tdcReadBody
  simp only [pw, List.getD_cons_zero, hresv, finOf_val hi]
  rfl

theorem tdcReadBody_unit (c : Ctx) (s : State) {m : Fin 8} (hm : bits w 4 0 = 16 + m.val) :
    tdcReadBody c [w] s =
      .done stOk ((unitCounters s.tdc.units[m]).flatMap wrapWords) (if bit w 5 then s.modUnit m clearUnit else s) := by
  have hinput : finOf 16 (bits w 4 0) = none := dif_neg (by omega)
  have hunit : finOf 8 (bits w 4 0 - 16) = some m := finOf_val (by omega)
  unfold tdcReadBody
  simp only [pw, List.getD_cons_zero, hresv, hinput, hunit]
  rfl

end

/-! TDC_CAL (R264, R277). -/

theorem mem_maskFins {n m : Nat} (i : Fin n) : i ∈ maskFins n m ↔ m.testBit i.val = true := by
  simp [maskFins]

theorem maskFins_nodup (n m : Nat) : (maskFins n m).Nodup := (List.nodup_finRange n).filter _

/-- Full calibrations start now on the inputs of a list, which is all that the loop over them changes (R264). -/
theorem forEach_calibrating (l : List (Fin 16)) (s : State) :
    forEach l (fun u i => u.modEdge i fun e => { e with calibrating := some u.lcN }) s =
      s.modTdc fun t => { t with
        inputs := forEach l (fun v i => vmod v i fun e => { e with calibrating := some s.lcN }) t.inputs } := by
  induction l generalizing s with
  | nil => rfl
  | cons a l ih => rw [forEach_cons, ih]; rfl

section
variable {w : Word} (hresv : resv w 31 17 = true)
include hresv

theorem tdcCalBody_read (c : Ctx) (s : State) (hstart : bit w 16 = false) (hmask : bits w 15 0 = 0) :
    tdcCalBody c [w] s = .done stOk (tdcCalWords s.tdc) s := by
  unfold tdcCalBody
  simp only [pw, List.getD_cons_zero, hresv, hstart, hmask]
  rfl

/-- TDC_CAL with START: no input of the mask is in calibration (R277). -/
theorem tdcCalBody_start (c : Ctx) (s : State) (hstart : bit w 16 = true)
    (hidle : ∀ i ∈ maskFins 16 (bits w 15 0), (s.tdc.inputs[i]).calibrating = none) :
    tdcCalBody c [w] s =
      let t := s.modTdc fun t => { t with
        inputs := forEach (maskFins 16 (bits w 15 0)) (fun v i => vmod v i fun e => { e with calibrating := some s.lcN }) t.inputs }
      .done stOk (tdcCalWords t.tdc) t := by
  have hfree : ¬ ((maskFins 16 (bits w 15 0)).any fun i => (s.tdc.inputs[i]).calibrating.isSome) = true := by
    rw [List.any_eq_true]
    rintro ⟨i, hi, hcal⟩
    rw [hidle i hi] at hcal
    exact Bool.false_ne_true hcal
  unfold tdcCalBody
  simp only [pw, List.getD_cons_zero, hresv, hstart, Bool.not_true, Bool.false_and, Bool.or_self, Bool.false_eq_true, if_false]
  rw [if_neg hfree, forEach_calibrating]

end

/-- Settles O43: each command is admitted, within its own checks, and its reply is that of its body. -/
theorem edgeCommands : Obligations.EdgeCommands := by
  refine ⟨fun p s s1 c w0 w1 w2 i h hp hi hresv0 hresv1 => ⟨fun hset hacc => ?config, fun hset hacc hlow hhigh => ?setConfig⟩,
    fun p s s1 c w0 w1 w2 m h hp hm hresv0 hresv1 hresv2 => ⟨fun hset hacc => ?window,
      fun hset hacc hshort hlong hedges => ?setWindow⟩,
    fun p s s1 c w h hp hresv hacc => ⟨fun i hi => ?input, fun m hm => ?unit⟩,
    fun p s s1 c w h hp hresv => ⟨fun hstart hacc hmask => ?cal, fun hstart hacc hidle => ?startCal⟩⟩
  case config =>
    exact serve_unbroken tdcConfigSpec p s s1 c _ _ h (by simp [tdcConfigSpec, hp, pw, hset, hacc]) rfl (by rw [hp]; rfl)
      (by rw [hp]; exact tdcConfigBody_read hi hresv0 hresv1 c s1 hset) s1.breaksLimits_self
  case setConfig =>
    exact fun hlim => serve_unbroken tdcConfigSpec p s s1 c _ _ h (by simp [tdcConfigSpec, hp, pw, hset, hacc]) rfl (by rw [hp]; rfl)
      (by rw [hp]; exact tdcConfigBody_set hi hresv0 hresv1 c s1 hset hlow hhigh) hlim
  case window =>
    exact serve_unbroken tdcWindowSpec p s s1 c _ _ h (by simp [tdcWindowSpec, hp, pw, hset, hacc]) rfl (by rw [hp]; rfl)
      (by rw [hp]; exact tdcWindowBody_read hm hresv0 hresv1 hresv2 c s1 hset) s1.breaksLimits_self
  case setWindow =>
    exact fun hlim => serve_unbroken tdcWindowSpec p s s1 c _ _ h (by simp [tdcWindowSpec, hp, pw, hset, hacc]) rfl (by rw [hp]; rfl)
      (by rw [hp]; exact tdcWindowBody_set hm hresv0 hresv1 hresv2 c s1 hset hshort hlong hedges) hlim
  case input =>
    exact fun hlim => serve_unbroken tdcReadSpec p s s1 c _ _ h (by simpa [tdcReadSpec, hp, pw] using hacc) rfl (by rw [hp]; rfl)
      (by rw [hp]; exact tdcReadBody_input hresv c s1 hi) hlim
  case unit =>
    exact fun hlim => serve_unbroken tdcReadSpec p s s1 c _ _ h (by simpa [tdcReadSpec, hp, pw] using hacc) rfl (by rw [hp]; rfl)
      (by rw [hp]; exact tdcReadBody_unit hresv c s1 hm) hlim
  case cal =>
    exact serve_unbroken tdcCalSpec p s s1 c _ _ h (by simp [tdcCalSpec, hp, pw, hstart, hacc]) rfl (by rw [hp]; rfl)
      (by rw [hp]; exact tdcCalBody_read hresv c s1 hstart hmask) s1.breaksLimits_self
  case startCal =>
    refine ⟨_, fun i => ?_, rfl, fun hlim => serve_unbroken tdcCalSpec p s s1 c _ _ h (by simp [tdcCalSpec, hp, pw, hstart, hacc]) rfl
      (by rw [hp]; rfl) (by rw [hp]; exact tdcCalBody_start hresv c s1 hstart hidle) hlim⟩
    refine (getElem_forEach_vmod _ (maskFins_nodup 16 _) _ i).trans ?_
    simp only [mem_maskFins]

end Sys2Proof.Machine

namespace Sys2Proof.Machine

/-! Edges at the inputs (R256 to R258, R264). -/

theorem State.modEdge_modEdge (s : State) (i : Fin 16) (f g : EdgeIn → EdgeIn) :
    (s.modEdge i f).modEdge i g = s.modEdge i fun e => g (f e) := by
  simp [State.modEdge, State.modTdc, vmod_vmod]

/-- A change of ELEC makes an input deaf to the crossing at n / 256 (R256). -/
def EdgeIn.deafAt (e : EdgeIn) (n : Nat) : Bool :=
  match e.changeEnd with
  | some t => decide (n < 256 * t)
  | none => false

/-- The crossing at n / 256 lies in the dead time of the last accepted edge (R257). -/
def EdgeIn.deadAt (e : EdgeIn) (n : Nat) : Bool :=
  match e.lastRaw with
  | some r => decide ((n : Int) - r < 1024)
  | none => false

theorem EdgeIn.deafAt_iff (e : EdgeIn) (n : Nat) : e.deafAt n = true ↔ ∃ t, e.changeEnd = some t ∧ n < 256 * t := by
  unfold deafAt
  split <;> simp [*]

theorem EdgeIn.deadAt_iff (e : EdgeIn) (n : Nat) : e.deadAt n = true ↔ ∃ r, e.lastRaw = some r ∧ (n : Int) - r < 1024 := by
  unfold deadAt
  split <;> simp [*]

theorem EdgeIn.not_deafAt {e : EdgeIn} {n : Nat} (h : ∀ t, e.changeEnd = some t → 256 * t ≤ n) : ¬ e.deafAt n = true := by
  rw [deafAt_iff]
  rintro ⟨t, hchange, hn⟩
  exact Nat.not_lt.mpr (h t hchange) hn

theorem EdgeIn.not_deadAt {e : EdgeIn} {n : Nat} (h : ∀ r, e.lastRaw = some r → 1024 ≤ (n : Int) - r) : ¬ e.deadAt n = true := by
  rw [deadAt_iff]
  rintro ⟨r, hraw, hn⟩
  exact Int.not_lt.mpr (h r hraw) hn

/-- An edge is not heard while ELEC changes, counts only in DEADTIME in the dead time, is lost during a full calibration and is
accepted otherwise (R256 to R258, R264). -/
theorem execEdgeInput_eq (i : Fin 16) (rising : Bool) (n : Nat) {s : State} (hclock : s.time.tclk = true) :
    execEdgeInput i rising n s = .next
      (let s1 := atLc (n / 256) s
       let e := s1.tdc.inputs[i]
       let s2 := s1.modEdge i (noteEdge n rising)
       if e.deafAt n then s1 else if e.deadAt n then s1.modEdge i fun e => { e with deadtime := e.deadtime + 1 }
       else if e.calibrating.isSome then loseEdge i (edgeStamp s1 i n) true s2
       else acceptEdge i rising (edgeStamp s1 i n) s2) :=
  guardNext_pos hclock

/-! A unit takes a start or a stop (R269 to R271). -/

theorem muStart_open {a : Stamp} (t : Stamp) {u : MeasUnit} (hstart : u.start = some a) :
    muStart t u = ({ u with start := some t, startOrphan := u.startOrphan + 1 }, none) := by
  simp only [muStart, hstart]

theorem muStop_open {a t : Stamp} {u : MeasUnit} (hstart : u.start = some a) (hle : a ≤ t) : muStop t u = muClose a t u := by
  simp only [muStop, hstart, if_pos hle]

theorem muStop_none (t : Stamp) {u : MeasUnit} (hstart : u.start = none) :
    muStop t u = ({ u with stop := some t, stopLate := if u.stop.isSome then u.stopLate + 1 else u.stopLate }, none) := by
  simp only [muStop, hstart]

theorem muStart_idle (t : Stamp) {u : MeasUnit} (hstart : u.start = none) (hstop : u.stop = none) :
    muStart t u = ({ u with start := some t }, none) := by
  simp only [muStart, hstart, hstop]

theorem muStart_equal {t : Stamp} {u : MeasUnit} (hstart : u.start = none) (hstop : u.stop = some t) :
    muStart t u = muClose t t u := by
  simp only [muStart, hstart, hstop, if_true]

theorem muStart_held {b t : Stamp} {u : MeasUnit} (hstart : u.start = none) (hstop : u.stop = some b) (hlt : b < t) :
    muStart t u = if u.bipolar then muClose t b u
      else ({ u with start := some t, stop := none, stopEarly := u.stopEarly + 1 }, none) := by
  simp only [muStart, hstart, hstop, if_neg (Int.ne_of_lt hlt), if_pos hlt]

/-- A held stop that a start closes: the unit had no open start, so only the stop is taken (R270, R271). -/
theorem muClose_held {u : MeasUnit} (a b : Stamp) (hstart : u.start = none) :
    muClose a b u = ({ u with stop := none, results := u.results + 1
                              coincident := if a = b then u.coincident + 1 else u.coincident }, some ⟨a, b - a⟩) := by
  rw [muClose, ← hstart]

theorem muExpire_open {t a : Stamp} {u : MeasUnit} (hstart : u.start = some a) (hstop : u.stop = none) :
    muExpire t u = if a + u.wPost.toNat * 256 < t then { u with start := none, winEmpty := u.winEmpty + 1 } else u := by
  unfold muExpire
  simp only [hstart]
  by_cases h : a + u.wPost.toNat * 256 < t
  · simp only [if_pos h, hstop]
  · simp only [if_neg h, hstop]

theorem unitTake_other {i : Fin 16} {rising : Bool} (t : Stamp) {m : Fin 8} {s : State}
    (hstart : isStart s.tdc.units[m] i rising = false) (hstop : isStop s.tdc.units[m] i rising = false) :
    unitTake i rising t s m = s :=
  if_pos (by rw [hstart, hstop]; rfl)

/-- An edge that meets a tie is coincident with what the first edge was not paired with (R271). -/
theorem unitTake_tie {i : Fin 16} {rising : Bool} {t : Stamp} {m : Fin 8} {s : State} {x : MuTie}
    (htie : (s.tdc.units[m]).tie = some x) (hstamp : x.stamp = t) (hkind : x.byStop = isStart s.tdc.units[m] i rising)
    (hedge : isStart s.tdc.units[m] i rising = true ∨ isStop s.tdc.units[m] i rising = true) :
    unitTake i rising t s m = emitInterval m { start := t, value := 0 } (s.modUnit m (muTieEdge x)) := by
  have hmeets : x.meets (isStart s.tdc.units[m] i rising) t = true := by simp [MuTie.meets, hstamp, hkind]
  have hfilter : ((s.tdc.units[m]).tie.filter fun y => y.meets (isStart s.tdc.units[m] i rising) t) = some x := by
    rw [htie, Option.filter_some, if_pos hmeets]
  refine (if_neg ?_).trans ?_
  · rcases hedge with h | h <;> rw [h] <;> simp
  · simp only [hfilter]

/-! Calibration and tracking of the interpolators (R260 to R264). -/

theorem interps_inputChannel (i : Fin 16) : interps (inputChannel i) = [⟨i.val, by omega⟩, ⟨50 + i.val, by omega⟩] :=
  congrArg (List.cons _) (dif_pos i.isLt)

/-- A full calibration of an input ends, and with it the span of the edges lost in it (R264). -/
def endCalibration (e : EdgeIn) : EdgeIn := { e with calibrating := none, losses := closeLoss e.losses }

/-- The maps of both interpolators of an input come into force as a calibration succeeds (R260, R263, R277). -/
def takeInputMaps (i : Fin 16) (a b : List Rat) (x : Tdc) : Tdc :=
  { x with
    lastFailed := false
    maps := vset (vset x.maps ⟨i.val, by omega⟩ a) ⟨50 + i.val, by omega⟩ b
    inl := vset (vset x.inl ⟨i.val, by omega⟩ (mapInl a)) ⟨50 + i.val, by omega⟩ (mapInl b) }

theorem forEach_putMap_inputChannel (i : Fin 16) (a b : List Rat) (s : State) :
    forEach ((interps (inputChannel i)).zip [a, b]) putMap (s.modTdc fun x => { x with lastFailed := false }) =
      s.modTdc (takeInputMaps i a b) := by
  rw [interps_inputChannel]
  rfl

section
variable {i : Fin 16} {t : Nat} {s : State} (hcal : (s.tdc.inputs[i]).calibrating = some t)
include hcal

theorem execTdcCalDone_failed {hits : List (List Nat)} (hbad : hits.length ≠ 2 ∨ ∃ h ∈ hits, histBad h = true) :
    execTdcCalDone i hits s = .next (emitLoss i
      (((atLc (t + 50000000) s).modEdge i fun e => { endCalibration e with calDeg := true }).modTdc
        fun x => { x with lastFailed := true })) := by
  have hbad : (decide (hits.length ≠ 2) || hits.any histBad) = true := by simpa using hbad
  unfold execTdcCalDone
  simp only [hcal]
  rw [if_pos hbad, State.modEdge_modEdge]
  rfl

theorem execTdcCalDone_good {a b : List Nat} (ha : histBad a = false) (hb : histBad b = false) :
    execTdcCalDone i [a, b] s = .next (emitLoss i (judgeChannel (inputChannel i)
      (((atLc (t + 50000000) s).modEdge i endCalibration).modTdc (takeInputMaps i (histMap a) (histMap b))))) := by
  have hgood : ¬ (decide ([a, b].length ≠ 2) || [a, b].any histBad) = true := by simp [ha, hb]
  rw [← forEach_putMap_inputChannel]
  unfold execTdcCalDone
  simp only [hcal]
  rw [if_neg hgood]
  rfl

end

/-- Edges of an external input pass its first interpolator and its second (R261; log entry 217). -/
theorem finOf_interpChannel (id : Fin 66) (i : Fin 16) :
    finOf 16 (interpChannel id).val = some i ↔ id.val = i.val ∨ id.val = 50 + i.val := by
  have hchan : (interpChannel id).val = if id.val < 50 then id.val else id.val - 50 := by
    unfold interpChannel
    split <;> rfl
  rw [finOf, Option.dite_none_right_eq_some, hchan]
  simp only [Option.some.injEq, Fin.ext_iff, exists_prop]
  split <;> omega

/-- A hit can be launched on an interpolator whose input is idle, and on that of an internal channel (R261). -/
theorem trackIdle_interpChannel {id : Fin 66} {lc : Nat} {s : State}
    (h : ∀ i : Fin 16, (id.val = i.val ∨ id.val = 50 + i.val) → (s.tdc.inputs[i]).idleAt lc = true) :
    s.trackIdle (interpChannel id) lc = true := by
  unfold State.trackIdle
  cases hfin : finOf 16 (interpChannel id).val with
  | none => rfl
  | some i => exact h i ((finOf_interpChannel id i).mp hfin)

theorem idleAt_of_quiet {e : EdgeIn} {lc : Nat} (hcal : e.calibrating = none) (hraw : ∀ r, e.lastRaw = some r → r + 25600 ≤ 256 * lc) :
    e.idleAt lc = true := by
  unfold EdgeIn.idleAt
  rw [hcal]
  cases hlast : e.lastRaw with
  | none => rfl
  | some r => simpa using hraw r hlast

/-- The input of a channel, if it has one, is tracked again: it is not starved (R262). -/
def resumeTracking (c : Fin 50) (s : State) : State :=
  match finOf 16 c.val with
  | some i => s.modEdge i fun e => { e with starved := false, busySince := none }
  | none => s

theorem resumeTracking_inputs (id : Fin 66) (s : State) (i : Fin 16) :
    (resumeTracking (interpChannel id) s).tdc.inputs[i] =
      if id.val = i.val ∨ id.val = 50 + i.val then { s.tdc.inputs[i] with starved := false, busySince := none }
      else s.tdc.inputs[i] := by
  simp only [← finOf_interpChannel]
  unfold resumeTracking
  cases finOf 16 (interpChannel id).val with
  | none => rfl
  | some j => simp [State.modEdge, Fin.ext_iff]

/-- Past the tracking of its input, an update changes one interpolator's map and non-linearity and counts itself (R262, R277). -/
theorem putMap_resumeTracking (c : Fin 50) (id : Fin 66) (m : List Rat) (s : State) :
    (putMap (resumeTracking c s) (id, m)).modTdc (fun t => { t with updates := t.updates + 1 }) =
      s.modTdc fun t => { t with
        inputs := (resumeTracking c s).tdc.inputs, maps := vset t.maps id m, inl := vset t.inl id (mapInl m), updates := t.updates + 1 } := by
  unfold resumeTracking
  split <;> rfl

theorem resumeTracking_maps (c : Fin 50) (s : State) : (resumeTracking c s).tdc.maps = s.tdc.maps := by
  unfold resumeTracking
  split <;> rfl

theorem execTdcTrackUpdate_due {id : Fin 66} {hits : List Nat} {lc : Nat} {s : State} (hclock : s.time.tclk = true)
    (hidle : s.trackIdle (interpChannel id) lc = true) (hhits : hits.sum = trackHits) :
    execTdcTrackUpdate id hits lc s = .next
      (let c := interpChannel id
       let s1 := atLc (lc + 4) s
       let m := stepMap s1.tdc.maps[id] (histMap hits)
       judgeChannel c (s1.modTdc fun t => { t with
         inputs := (resumeTracking c s1).tdc.inputs, maps := vset t.maps id m, inl := vset t.inl id (mapInl m), updates := t.updates + 1 })) := by
  dsimp only
  rw [← putMap_resumeTracking, ← resumeTracking_maps (interpChannel id)]
  exact guardNext_pos (by simp [hclock, hidle, hhits])

/-- A code moves by at most 0.25 fine step, and all the way to a position within that (R262). -/
theorem stepCode_near (a b : Rat) :
    stepCode a b ≤ a + 1 / 4 ∧ a ≤ stepCode a b + 1 / 4 ∧ (a ≤ b + 1 / 4 → b ≤ a + 1 / 4 → stepCode a b = b) := by
  unfold stepCode
  split
  case isTrue h => exact ⟨Rat.le_refl, by grind, fun _ hb => by grind⟩
  case isFalse h =>
    split
    case isTrue h' => exact ⟨by grind, by grind, fun ha _ => by grind⟩
    case isFalse h' => exact ⟨Rat.not_lt.mp h, Rat.not_lt.mp h', fun _ _ => rfl⟩

theorem length_stepMap (old new : List Rat) : (stepMap old new).length = new.length := by simp [stepMap]

theorem getElem?_stepMap {old new : List Rat} {n : Nat} {a b : Rat} (ha : old[n]? = some a) (hb : new[n]? = some b) :
    (stepMap old new)[n]? = some (stepCode a b) := by
  obtain ⟨hn, rfl⟩ := List.getElem?_eq_some_iff.mp hb
  simp [stepMap, hn, ha]

theorem execTrackStarved_busy {i : Fin 16} {t : Nat} {r : Stamp} {s : State} (hbusy : (s.tdc.inputs[i]).busySince = some t)
    (hstarved : (s.tdc.inputs[i]).starved = false) (hraw : (s.tdc.inputs[i]).lastRaw = some r)
    (hr : 256 * ((t + 60000000000 : Nat) : Int) < r + 25600) :
    execTrackStarved i s = .next
      (raise ((atLc (t + 60000000000) s).modEdge i fun e => { e with starved := true }) 0x1009 [w32 i.val]) := by
  have huntil : (s.tdc.inputs[i]).busyUntil (t + 60000000000) = true := by
    unfold EdgeIn.busyUntil
    simp only [hraw]
    exact decide_eq_true hr
  unfold execTrackStarved
  simp only [hbusy]
  rw [if_neg (by rw [hstarved, huntil]; decide)]

theorem execEdgeLossEntry_lost {i : Fin 16} {s : State} (hloss : (s.tdc.inputs[i]).losses ≠ []) :
    execEdgeLossEntry i s = .next (if 256 ≤ (s.tdc.inputs[i]).queue.length then drainEdge i s else emitLoss i s) :=
  guardNext_pos (by simpa using hloss)

/-- Settles O44: each row runs under its guard, and what a unit or an interpolator takes is said once, case by case. -/
theorem edgeRows : Obligations.EdgeRows := by
  refine ⟨fun i rising n s hclock => ⟨fun hdeaf => ?deaf, fun hhears => ⟨fun hdead => ?dead, fun hover => ?heard⟩⟩,
    fun t u => ⟨fun hstart hstop => ⟨muStart_idle t hstart hstop, ?stopIdle⟩,
      fun a hstart => ⟨muStart_open t hstart, fun hle => muStop_open hstart hle⟩,
      fun b hstart hstop hlt => ⟨?stopHeld, fun hbi => ?bipolar, fun huni => ?early⟩, fun hstart hstop => ?equal⟩,
    fun i rising t m s => ⟨unitTake_other t, fun x htie hstamp hkind hedge => unitTake_tie htie hstamp hkind hedge⟩,
    fun t a u hstart hstop => muExpire_open hstart hstop, fun m x s => ⟨?window, ?expiry⟩, ?change,
    fun i hits t s hcal => ⟨execTdcCalDone_failed hcal, ?calibrated⟩,
    fun id hits lc s hclock hhits hquiet => ?track,
    fun old new => ⟨length_stepMap old new, fun n a b ha hb => ⟨_, getElem?_stepMap ha hb, stepCode_near a b⟩⟩,
    fun i t r s hbusy hstarved hraw hr => execTrackStarved_busy hbusy hstarved hraw hr,
    fun i s hloss => execEdgeLossEntry_lost hloss⟩
  case deaf =>
    exact (execEdgeInput_eq i rising n hclock).trans (congrArg _ (if_pos ((EdgeIn.deafAt_iff _ n).mpr hdeaf)))
  case dead =>
    exact (execEdgeInput_eq i rising n hclock).trans (congrArg _
      ((if_neg (EdgeIn.not_deafAt hhears)).trans (if_pos ((EdgeIn.deadAt_iff _ n).mpr hdead))))
  case heard =>
    have htaken := (execEdgeInput_eq i rising n hclock).trans (congrArg _
      ((if_neg (EdgeIn.not_deafAt hhears)).trans (if_neg (EdgeIn.not_deadAt hover))))
    exact ⟨fun hcal => htaken.trans (congrArg _ (if_pos hcal)),
      fun hcal => htaken.trans (congrArg _ (if_neg (by rw [hcal]; decide)))⟩
  case stopIdle => simpa [hstop] using muStop_none t hstart
  case stopHeld => simpa [hstop] using muStop_none t hstart
  case bipolar =>
    rw [muStart_held hstart hstop hlt, if_pos hbi, muClose_held t b hstart, if_neg (Int.ne_of_lt hlt).symm]
  case early =>
    rw [muStart_held hstart hstop hlt, if_neg (ne_true_of_eq_false huni)]
  case equal =>
    rw [muStart_equal hstart hstop, muClose_held t t hstart, if_pos rfl, Int.sub_self]
  case window =>
    intro hstart
    simp only [exec, execMuWindowClose, hstart]
    rfl
  case expiry =>
    intro hstop
    simp only [exec, execMuHeldStopExpiry, hstop]
    rfl
  case change =>
    intro i t s hchange
    simp only [exec, execElecChangeEnd, hchange]
    rfl
  case calibrated =>
    rintro a b rfl ha hb
    exact execTdcCalDone_good hcal ha hb
  case track =>
    have hidle : s.trackIdle (interpChannel id) lc = true :=
      trackIdle_interpChannel fun i hi => idleAt_of_quiet (hquiet i hi).1 (hquiet i hi).2
    exact ⟨_, execTdcTrackUpdate_due hclock hidle hhits, rfl, resumeTracking_inputs id _⟩

end Sys2Proof.Machine

namespace Sys2Proof.Machine

/-! PRJ_DEFINE (R300, R313). -/

section
variable {ws : List Word} {j : Fin 64} (hj : bits (pw ws 0) 5 0 = j.val) (hresv : resv (pw ws 0) 31 19 = true)
include hj hresv

theorem prjDefineBody_read (c : Ctx) (s : State) (hset : bit (pw ws 0) 6 = false) :
    prjDefineBody c ws s = .done stOk (prjReply j s ++ (s.prj j).defn.words) s := by
  obtain rfl : j = ⟨bits (pw ws 0) 5 0, Nat.mod_lt _ (by decide)⟩ := Fin.ext hj.symm
  unfold prjDefineBody
  simp only [hresv, hset]
  rfl

/-- PRJ_DEFINE with SET: the definition is acceptable, and the projection neither locked nor enabled (R313). -/
theorem prjDefineBody_set (c : Ctx) {s : State} (hset : bit (pw ws 0) 6 = true) (hword1 : resv (pw ws 1) 31 21 = true)
    (hword2 : resv (pw ws 2) 31 21 = true) (hword3 : resv (pw ws 3) 31 16 = true)
    (hdefn : prjDefOk s.fab.hubId j.val (prjDefOf ws) = true) (hlock : s.safeLocked (fun b => b.namesPrj j.val) = false)
    (hidle : (s.prj j).enabled = false) :
    prjDefineBody c ws s =
      let t := s.modPrj j fun x => { x with defn := prjDefOf ws, out := [] }
      .done stOk (prjReply j t) t := by
  obtain rfl : j = ⟨bits (pw ws 0) 5 0, Nat.mod_lt _ (by decide)⟩ := Fin.ext hj.symm
  unfold prjDefineBody
  simp only [hresv, hset, hword1, hword2, hword3, hdefn, hlock, hidle, Bool.not_true, Bool.or_self, Bool.false_eq_true, if_false]

end

/-! PRJ_ENABLE (R300, R301, R304, R309, R314, R429). -/

/-- Nothing is refused when each projection of the list is acceptable (R314). -/
theorem firstRefusal_ok {f : Fin 64 → Nat} {l : List (Fin 64)} (h : ∀ x ∈ l, f x = stOk) : firstRefusal f l = stOk := by
  have hnone : (l.map f).find? (fun n => n != stOk) = none := by
    rw [List.find?_eq_none]
    intro n hn
    obtain ⟨x, hx, rfl⟩ := List.mem_map.mp hn
    simp [h x hx]
  rw [firstRefusal, hnone, Option.getD_none]

/-- Terms per second of a list of projections together (R300). -/
def loadOf (ps : List (Fin 64)) (s : State) : Nat := (ps.map fun x => prjLoad (s.prj x).defn).sum

/-- The changes accepted before, their masks of enables and disables changed by f, take effect at the next boundary (R314). -/
def dueNext (f : Word64 → Word64 → Word64 × Word64) (s : State) : State :=
  let old := s.red.enableAt
  s.modRed fun r => { r with
    enableAt := some (s.nextBoundary, f ((old.map (·.2.1)).getD 0) ((old.map (·.2.2)).getD 0)) }

section
variable {lo hi w : Word} (hresv : resv w 31 1 = true)
include hresv

/-- PRJ_ENABLE with ON: each masked projection is acceptable, and so are load and remote inputs after it (R300, R314). -/
theorem prjEnableBody_on (c : Ctx) {s : State} (hon : bit w 0 = true)
    (hall : ∀ x ∈ maskFins 64 (nat64 lo hi), enableRefusal x s = stOk)
    (hload : loadOf (s.enabledAfter (nat64 lo hi) 0) s ≤ 640000000)
    (hremote : (s.remoteInputs (s.enabledAfter (nat64 lo hi) 0)).length ≤ 256) :
    prjEnableBody c [lo, hi, w] s =
      .done stOk (words64 s.nextBoundary ++ [w32 (loadOf (s.enabledAfter (nat64 lo hi) 0) s / 1000)])
        (judgeBounds (fixLatency (maskFins 64 (nat64 lo hi)) (openFeeds (maskFins 64 (nat64 lo hi))
          (dueNext (fun a b => (a ||| (hi ++ lo), b &&& ~~~(hi ++ lo))) s)))) := by
  have hwhy : firstRefusal (fun x => enableRefusal x s) (maskFins 64 (nat64 lo hi)) = stOk := firstRefusal_ok hall
  have hbounds : ¬ (true && (decide (640000000 < loadOf (s.enabledAfter (nat64 lo hi) 0) s) ||
      decide (256 < (s.remoteInputs (s.enabledAfter (nat64 lo hi) 0)).length))) = true := by
    simp [hload, hremote]
  unfold maskFins at hwhy
  unfold loadOf at hbounds
  unfold prjEnableBody
  simp only [pw, List.getD_cons_zero, List.getD_cons_succ, hon, if_true, hwhy, hresv, Bool.not_true, Bool.false_eq_true, if_false,
    ne_eq, not_true_eq_false]
  rw [if_neg hbounds]
  rfl

/-- PRJ_ENABLE without ON: no masked projection is locked (R309, R314). -/
theorem prjEnableBody_off (c : Ctx) {s : State} (hoff : bit w 0 = false)
    (hlock : ∀ x ∈ maskFins 64 (nat64 lo hi), s.safeLocked (fun b => b.namesPrj x.val) = false) :
    prjEnableBody c [lo, hi, w] s =
      .done stOk (words64 s.nextBoundary ++ [w32 (loadOf (s.enabledAfter 0 (nat64 lo hi)) s / 1000)])
        (dueNext (fun a b => (a &&& ~~~(hi ++ lo), b ||| (hi ++ lo))) s) := by
  have hwhy : firstRefusal (fun x => if s.safeLocked (fun b => b.namesPrj x.val) then stSafeLocked else stOk)
      (maskFins 64 (nat64 lo hi)) = stOk :=
    firstRefusal_ok fun x hx => if_neg (ne_true_of_eq_false (hlock x hx))
  unfold maskFins at hwhy
  unfold prjEnableBody
  simp only [pw, List.getD_cons_zero, List.getD_cons_succ, hoff, hwhy, hresv, Bool.not_true, Bool.false_eq_true, if_false,
    ne_eq, not_true_eq_false, Bool.false_and]
  rfl

end

/-! ACC_CONFIG and MINMAX_READ (R310 to R312, R315, R316). -/

section
variable {w : Word} {kind : AccKind} {i : Nat} (hkind : kindAt w = some (kind, i))
include hkind

section
variable (hresv : resv w 31 28 = true) (hgroup : kind ≠ .projection ∨ bit w 11 = false)
include hresv hgroup

/-- ACC_CONFIG of a good word: it reads, or it sets when the settings are acceptable (R315). -/
theorem accConfigBody_good (c : Ctx) (s : State) :
    accConfigBody c [w] s =
      if !bit w 12 then accReply kind i s
      else if !accOk kind w then refuse stBadParam s
      else accReply kind i (forEach (if bit w 11 then (List.range 8).map fun j => i / 8 * 8 + j else [i])
        (fun u n => setAcc kind w n u) s) := by
  have hword : ¬ (!resv w 31 28 || (kind == .projection && bit w 11)) = true := by
    rw [hresv, Bool.not_true, Bool.false_or, Bool.and_eq_true, beq_iff_eq]
    exact fun h => hgroup.elim (· h.1) (fun hone => Bool.false_ne_true (hone.symm.trans h.2))
  unfold accConfigBody
  simp only [pw, List.getD_cons_zero, hkind]
  rw [if_neg hword]

theorem accConfigBody_read (c : Ctx) (s : State) (hset : bit w 12 = false) :
    accConfigBody c [w] s = accReply kind i s := by
  rw [accConfigBody_good hkind hresv hgroup, hset]
  rfl

theorem accConfigBody_set (c : Ctx) (s : State) (hset : bit w 12 = true) (hgood : accOk kind w = true) :
    accConfigBody c [w] s =
      accReply kind i (forEach (if bit w 11 then (List.range 8).map fun j => i / 8 * 8 + j else [i])
        (fun u n => setAcc kind w n u) s) := by
  rw [accConfigBody_good hkind hresv hgroup, hset, hgood]
  rfl

end

theorem minmaxReadBody_ok (c : Ctx) (s : State) (hresv : resv w 31 12 = true) :
    minmaxReadBody c [w] s =
      let m := (s.minMax kind i).getD MinMax.reset
      .done stOk ([w32i m.min, w32i m.max] ++ words64 m.minStamp ++ words64 m.maxStamp ++ [w32 (b2n (m.count == 0)), m.count])
        (if bit w 11 then modMinMax kind i (fun _ => MinMax.reset) s else s) := by
  unfold minmaxReadBody
  simp only [pw, List.getD_cons_zero, hkind, hresv]
  rfl

end

/-- Settles O36: each command is admitted, within its own checks, and its reply is that of its body. -/
theorem reductionCommands : Obligations.ReductionCommands := by
  refine ⟨fun p s s1 c j h hj hresv => ⟨fun hset hacc hlen => ?define,
      fun hset hacc hlen hword1 hword2 hword3 hdefn hlock hidle hlim => ?setDefine⟩,
    fun p s s1 c lo hi w h hp hacc hresv => ⟨fun hon hall hload hremote hlim => ?on, fun hoff hlock hlim => ?off⟩,
    fun p s s1 c w kind i h hp hkind hresv hgroup => ⟨fun hset hacc => ?acc, fun hset hacc hgood hlim => ?setAcc⟩,
    fun p s s1 c w kind i h hp hkind hresv hacc hlim => ?minmax⟩
  case define =>
    exact serve_unbroken prjDefineSpec p s s1 c _ _ h (by simp [prjDefineSpec, hset, hacc]) rfl (by simp [prjDefineSpec, hset, hlen])
      (prjDefineBody_read hj hresv c s1 hset) s1.breaksLimits_self
  case setDefine =>
    exact serve_unbroken prjDefineSpec p s s1 c _ _ h (by simp [prjDefineSpec, hset, hacc]) rfl (by simp [prjDefineSpec, hset, hlen])
      (prjDefineBody_set hj hresv c hset hword1 hword2 hword3 hdefn hlock hidle) hlim
  case on =>
    simp only [hon, if_true] at hload hremote ⊢
    exact serve_unbroken prjEnableSpec p s s1 c _ _ h hacc rfl (by rw [hp]; rfl)
      (by rw [hp]; exact prjEnableBody_on hresv c hon hall hload hremote) hlim
  case off =>
    simp only [hoff, Bool.false_eq_true, if_false]
    exact serve_unbroken prjEnableSpec p s s1 c _ _ h hacc rfl (by rw [hp]; rfl)
      (by rw [hp]; exact prjEnableBody_off hresv c hoff hlock) hlim
  case acc =>
    exact serve_unbroken accConfigSpec p s s1 c _ _ h (by simp [accConfigSpec, hp, pw, hset, hacc]) rfl (by rw [hp]; rfl)
      (by rw [hp]; exact accConfigBody_read hkind hresv hgroup c s1 hset) s1.breaksLimits_self
  case setAcc =>
    exact serve_unbroken accConfigSpec p s s1 c _ _ h (by simp [accConfigSpec, hp, pw, hset, hacc]) rfl (by rw [hp]; rfl)
      (by rw [hp]; exact accConfigBody_set hkind hresv hgroup c s1 hset hgood) hlim
  case minmax =>
    exact serve_unbroken minmaxReadSpec p s s1 c _ _ h (by simpa [minmaxReadSpec, hp, pw] using hacc) rfl (by rw [hp]; rfl)
      (by rw [hp]; exact minmaxReadBody_ok hkind c s1 hresv) hlim

end Sys2Proof.Machine

namespace Sys2Proof.Machine

/-! What a step does (R449), and the frames of notices, replies and admission (R322, R450, R454, R457, R466, R520). -/

theorem step_of_cons {c : Instr} {rest : List Instr} {s : State} (h : s.pending = c :: rest) :
    step s = exec c { s with pending := rest } := by
  simp only [step, h]

theorem step_of_nil {s : State} (h : s.pending = []) : step s = .next (idle s) := by
  simp only [step, h]

/-- Settles O1: `step` reads the front of the queue. -/
theorem frontCommandRuns : Obligations.FrontCommandRuns := ⟨fun _ _ _ => step_of_cons, fun _ => step_of_nil⟩

theorem eq_of_quiet {s t : State} (h : t.quiet = s.quiet) : t = { s with hoard := t.hoard, cmd := t.cmd } :=
  (congrArg (fun u : State => { u with hoard := t.hoard, cmd := t.cmd }) h :)

theorem eq_of_sent {s t : State} (h : t.sent = s.sent) :
    t = { s with lanes := t.lanes, fab := t.fab, hoard := t.hoard, cmd := t.cmd } :=
  (congrArg (fun u : State => { u with lanes := t.lanes, fab := t.fab, hoard := t.hoard, cmd := t.cmd }) h :)

/-- A notice before the firmware runs is neither emitted nor queued (R592). -/
theorem raise_of_not_fwRuns {s : State} (code : Nat) (body : List Word) (h : s.boot.fwRuns = false) : raise s code body = s := by
  simp [raise, pushLimit, pushAll, pushOne, h]

/-- Settles O7: a notice keeps the quiet part of the state, and without the firmware it is dropped at its first step. -/
theorem noticesTouchOnlyStreamsAndWindow : Obligations.NoticesTouchOnlyStreamsAndWindow :=
  ⟨fun s code body => eq_of_quiet (raise_quiet s code body), fun _ code body h => raise_of_not_fwRuns code body h⟩

theorem putCache_eq (p : Packet) (c : Cache) (s : State) : putCache p c s = { s with cmd := (putCache p c s).cmd } := by
  unfold putCache
  split
  · rfl
  · split <;> rfl

theorem putCache_replies (p : Packet) (c : Cache) (s : State) : (putCache p c s).cmd.replies = s.cmd.replies := by
  unfold putCache
  split
  · rfl
  · split <;> rfl

theorem sendReply_controlPort {p : Packet} (h : p.origin = .controlPort) (bytes : List Byte) (s : State) :
    sendReply p bytes s = { s with cmd := { s.cmd with replies := s.cmd.replies ++ [bytes] } } := by
  simp only [sendReply, h]
  rfl

/-- Settles O9: a reply keeps what sending keeps; on the control port it only joins those that wait. -/
theorem repliesTouchOnlyTheWayOut : Obligations.RepliesTouchOnlyTheWayOut := by
  refine ⟨fun code p key st ws s => eq_of_sent (answerWith_sent code p key st ws s), fun code p key st ws s hp => ?_⟩
  unfold answerWith
  rw [sendReply_controlPort hp]
  exact ⟨by rw [putCache_eq], by rw [putCache_replies]⟩

/-- Taking a request up touches the command unit alone (R441). -/
theorem takeUp_eq {code : Nat} {p : Packet} {s t : State} (h : takeUp code p s = some t) : t = { s with cmd := t.cmd } := by
  simp only [takeUp] at h
  split at h
  · cases h; rfl
  · split at h
    · split at h <;> cases h
      rfl
    · cases h; rfl

/-- Steps 4 to 6 of R450 touch the command unit and one count of failed authentications (R454, R520). -/
theorem authentic_frame {code : Nat} {p : Packet} {s s1 : State} {c : Ctx} (h : authentic code p s = some (c, s1)) :
    s1 = { s with cmd := s1.cmd, prot := { s.prot with slots := s1.prot.slots } } ∧
    (∀ k : Fin 8, s1.prot.slots[k] = { s.prot.slots[k] with fails := (s1.prot.slots[k]).fails }) ∧
    c.packet = p ∧ (p.session = 0 → s1.prot = s.prot ∧ c.session = none ∧ c.roles = 0) := by
  unfold authentic at h
  split at h
  · split at h <;> cases h
    exact ⟨rfl, fun _ => rfl, rfl, fun _ => ⟨rfl, rfl, rfl⟩⟩
  · rename_i hsession
    split at h
    · cases h
    · split at h <;> cases h
      refine ⟨rfl, fun k => ?_, rfl, fun h0 => absurd h0 hsession⟩
      simp only [State.modSession, passAuth, State.modSlotKey, State.modCmd_prot, State.modProt_prot, Fin.getElem_fin, getElem_vmod]
      split <;> rfl

/-- An admitted request is taken up, passes steps 4 to 6, and enters its cache (R450). -/
theorem admitted_steps {code : Nat} {p : Packet} {s s1 : State} {c : Ctx} (h : admitted code p s = some (c, s1)) :
    ∃ s0 u, takeUp code p s = some s0 ∧ authentic code p s0 = some (c, u) ∧ s1 = putCache p (enterCache (u.cacheOf p) p) u := by
  unfold admitted at h
  split at h
  · obtain ⟨s0, h0, h⟩ := Option.bind_eq_some_iff.mp h
    obtain ⟨⟨d, u⟩, hu, h⟩ := Option.bind_eq_some_iff.mp h
    simp only [] at h
    split at h <;> cases h
    exact ⟨s0, u, h0, hu, rfl⟩
  · cases h

/-- Settles O10: of the three parts of admission only authentication leaves the command unit. -/
theorem admissionTouchesOnlyTheRequest : Obligations.AdmissionTouchesOnlyTheRequest := by
  intro code p s s1 c h
  obtain ⟨s0, u, h0, hu, rfl⟩ := admitted_steps h
  obtain ⟨hframe, hslots, hpacket, hzero⟩ := authentic_frame hu
  have h0 := takeUp_eq h0
  have hprot : s0.prot = s.prot := by rw [h0]
  have hput : (putCache p (enterCache (u.cacheOf p) p) u).prot = u.prot := by rw [putCache_eq]
  refine ⟨?_, fun k => ?_, hpacket, fun hp => ?_⟩
  · let t := putCache p (enterCache (u.cacheOf p) p) u
    calc t = { u with cmd := t.cmd } := putCache_eq ..
      _ = { s0 with cmd := t.cmd, prot := { s0.prot with slots := u.prot.slots } } := (congrArg (fun v : State => { v with cmd := t.cmd }) hframe :)
      _ = { s with cmd := t.cmd, prot := { s.prot with slots := u.prot.slots } } :=
        (congrArg (fun v : State => { v with cmd := t.cmd, prot := { v.prot with slots := u.prot.slots } }) h0 :)
      _ = { s with cmd := t.cmd, prot := { s.prot with slots := t.prot.slots } } := by rw [hput]
  · rw [hput, ← hprot]; exact hslots k
  · rw [hput, ← hprot]; exact hzero hp

theorem runSpec_no_access {sp : CmdSpec} {p : Packet} {s s1 : State} {c : Ctx} (h : admitted sp.code p s = some (c, s1))
    (ha : sp.access c p.params s1 = false) : runSpec sp c p s1 = refuse stProtected s1 := by
  simp [runSpec, admitted_clean h, ha]

theorem runSpec_bad_mode {sp : CmdSpec} {p : Packet} {s s1 : State} {c : Ctx} (h : admitted sp.code p s = some (c, s1))
    (ha : sp.access c p.params s1 = true) (hm : sp.mode p.params s1 ≠ stOk) :
    runSpec sp c p s1 = refuse (sp.mode p.params s1) s1 := by
  simp [runSpec, admitted_clean h, ha, hm]

theorem runSpec_bad_length {sp : CmdSpec} {p : Packet} {s s1 : State} {c : Ctx} (h : admitted sp.code p s = some (c, s1))
    (ha : sp.access c p.params s1 = true) (hm : sp.mode p.params s1 = stOk) (hl : sp.length p.params = false) :
    runSpec sp c p s1 = refuse stBadLength s1 := by
  simp [runSpec, admitted_clean h, ha, hm, hl]

/-- A request that its checks refuse is answered from the state in which it was admitted. -/
theorem serve_refused {sp : CmdSpec} {p : Packet} {s s1 : State} {c : Ctx} {st : Nat} (h : admitted sp.code p s = some (c, s1))
    (hr : runSpec sp c p s1 = refuse st s1) : serve sp p s = replied sp.code p s1 st [] s1 := by
  rw [serve_admitted sp p s s1 c h, hr]
  simp [refuse, replied]

/-- Settles O12: each check refuses before the body is reached. -/
theorem checksBeforeEffect : Obligations.ChecksBeforeEffect := fun _ _ _ _ _ h =>
  ⟨fun ha => serve_refused h (runSpec_no_access h ha), fun ha hm => serve_refused h (runSpec_bad_mode h ha hm),
    fun ha hm hl => serve_refused h (runSpec_bad_length h ha hm hl)⟩

/-- What `afterAuth` answers where SYS_RESET's own memory does not (R456). -/
theorem afterAuth_of_not_resetRepeated {sp : CmdSpec} (c : Ctx) {p : Packet} {s : State} (h : s.resetRepeated sp.code p = false) :
    afterAuth sp c p s = match lookCache (s.cacheOf p) p with
      | .stale => early sp.code p stStale (s.macKey p) s
      | .reuse => early sp.code p stBadParam (s.macKey p) s
      | .executing => early sp.code p stInProgress (s.macKey p) s
      | .duplicate e =>
        match e.reply with
        | some (st, d, ws) => sendReply p (replyBytes sp.code p s.fab.hubId stDuplicate st.toNat d ws (s.macKey p)) s
        | none => s
      | .fresh => if 16 ≤ s.cmd.running.length then early sp.code p stRetryLater (s.macKey p) s else execute sp c p s :=
  if_neg (by simp [h])

theorem lookCache_stale {C : Cache} {p : Packet} (h : 64 ≤ cacheAge C p.reqId ∧ cacheAge C p.reqId < 2 ^ 31) : lookCache C p = .stale :=
  if_pos h

theorem lookCache_seen {C : Cache} {p : Packet} {e : CacheEntry} (h : ¬ (64 ≤ cacheAge C p.reqId ∧ cacheAge C p.reqId < 2 ^ 31))
    (he : (C.entries.find? fun x => x.reqId == p.reqId) = some e) :
    lookCache C p = if e.crc ≠ p.crc then .reuse else if e.reply.isNone then .executing else .duplicate e :=
  (if_neg h).trans (by rw [he])

theorem lookCache_unseen {C : Cache} {p : Packet} (h : ¬ (64 ≤ cacheAge C p.reqId ∧ cacheAge C p.reqId < 2 ^ 31))
    (hnone : (C.entries.find? fun x => x.reqId == p.reqId) = none) : lookCache C p = .fresh :=
  (if_neg h).trans (by rw [hnone])

/-- Settles O11: `lookCache` tells the answers apart, and only a fresh request executes. -/
theorem replayCacheRule : Obligations.ReplayCacheRule := by
  intro sp c p s hreset C high age seen key
  refine ⟨fun hage => ?_, fun hage => ⟨fun e he => ⟨fun hcrc => ?_, fun hcrc hrep => ?_, fun st d ws hcrc hrep => ?_⟩,
    fun hnone hfull => ?_, fun hnone hroom => ⟨?_, rfl⟩⟩⟩ <;> rw [afterAuth_of_not_resetRepeated c hreset]
  · rw [lookCache_stale hage]
  · rw [lookCache_seen hage he, if_pos hcrc]
  · rw [lookCache_seen hage he, if_neg (not_not.mpr hcrc), hrep]; rfl
  · rw [lookCache_seen hage he, if_neg (not_not.mpr hcrc), hrep]; simp only [Option.isNone_some, Bool.false_eq_true, if_false, hrep, key]
  · rw [lookCache_unseen hage hnone]; exact if_pos hfull
  · rw [lookCache_unseen hage hnone]; exact if_neg (Nat.not_le.mpr hroom)

/-! The coded value of a sample (R358). -/

theorem clamp_eq {lo hi : Int} (h : lo ≤ hi) (v : Int) : clamp lo hi v = max lo (min hi v) := by
  unfold clamp
  split
  · omega
  · split <;> omega

/-- Rounding to the nearest multiple of 2m and holding at the ends: the sample lies within m of its reconstruction, and
within 2m - 1 where the upper end holds it. -/
theorem rounding_error {m : Nat} {l v : Int} (hm : 0 < m) (hlow : -(l * (2 * m)) ≤ v) (hhigh : v < l * (2 * m)) :
    let floor := (v + m) / (2 * m)
    (floor ≤ l - 1 → (v - max (-l) (min (l - 1) floor) * (2 * m)).natAbs ≤ m) ∧
    (l - 1 < floor → (v - max (-l) (min (l - 1) floor) * (2 * m)).natAbs ≤ 2 * m - 1) := by
  intro floor
  have hpos : (0 : Int) < 2 * m := by omega
  have hdown : floor * (2 * m) ≤ v + m := Int.ediv_mul_le (v + m) hpos.ne'
  have hup : v + m < (floor + 1) * (2 * m) := Int.lt_ediv_add_one_mul_self (v + m) hpos
  have hlowest : -l ≤ floor := (Int.le_ediv_iff_mul_le hpos).mpr (by rw [Int.neg_mul]; omega)
  rw [Int.add_mul, Int.one_mul] at hup
  refine ⟨fun h => ?_, fun h => ?_⟩
  · rw [min_eq_right h, max_eq_right hlowest]
    omega
  · have hl : l * (2 * m) ≤ v + m := (Int.le_ediv_iff_mul_le hpos).mp (Int.le_of_sub_one_lt h)
    have hsign : -l ≤ l - 1 := by
      by_contra hneg
      have : l * (2 * m) ≤ 0 := Int.mul_nonpos_of_nonpos_of_nonneg (by omega) hpos.le
      omega
    rw [min_eq_left h.le, max_eq_right hsign, Int.sub_mul, Int.one_mul]
    omega

/-- Settles O59: at depth D the step is 2m with m = 2^(D-1), and the range is 2^(23-D) steps on each side. -/
theorem codedValueOfASample : Obligations.CodedValueOfASample := by
  refine ⟨fun _ _ => rfl, fun _ => rfl, fun d v hd hd' hlow hhigh => ?_⟩
  intro floor low high
  obtain ⟨k, rfl⟩ : ∃ k, d = k + 1 := ⟨d - 1, by omega⟩
  have hstep : (2 : Int) ^ (k + 1) = 2 * (2 ^ k : Nat) := by push_cast; exact pow_succ' 2 k
  have hrange : (2 : Int) ^ (23 - (k + 1)) * (2 * (2 ^ k : Nat)) = 2 ^ 23 := by rw [← hstep, ← pow_add]; congr 1; omega
  have hends : low ≤ high := by
    have : (0 : Int) < 2 ^ (23 - (k + 1)) := by positivity
    simp only [low, high]; omega
  have hq : quantise (k + 1) v = max low (min high floor) := (if_neg (by omega)).trans (clamp_eq hends _)
  have hfloor : floor = (v + (2 ^ k : Nat)) / (2 * (2 ^ k : Nat)) := by rw [← hstep]; push_cast; rfl
  obtain ⟨hnear, hheld⟩ := rounding_error (Nat.two_pow_pos k) (hrange ▸ hlow) (hrange ▸ hhigh)
  rw [← hfloor] at hnear hheld
  rw [hq, restore, hstep, pow_succ' 2 k]
  exact ⟨rfl, hnear, hheld⟩

end Sys2Proof.Machine

namespace Sys2Proof.Machine

/-! SUB_OPEN, SUB_ACK and SUB_CLOSE (R335, R347 to R349). -/

theorem subOpenBody_ok (c : Ctx) {w0 w1 w2 w3 w4 : Word} {i : Fin 64} {s : State} (hi : bits w0 5 0 = i.val)
    (hresv0 : resv w0 31 27 = true) (hresv2 : resv w2 31 22 = true) (hresv3 : resv w3 31 17 = true) (hresv4 : resv w4 31 20 = true)
    (hstart : bits w0 7 6 < 2) (hdest : bit w0 16 = true → bits w0 26 17 ≤ 15) (hlow : 1 ≤ bits w3 12 0) (hhigh : bits w3 12 0 ≤ 4096)
    (hmax : bits w3 16 13 ≠ 0) (hshort : 100 ≤ bits w4 19 0) (hlong : bits w4 19 0 ≤ 1000000) (hfree : s.hoard.subs[i] = none) :
    subOpenBody c [w0, w1, w2, w3, w4] s =
      let curs := (((maskStreams w1 w2).filter fun k : Fin 54 => k.val != 53) ++ [53]).map fun k : Fin 54 =>
        newCursor k.val (if bits w0 7 6 = 1 then (s.hoard.streams[k]).oldest else (s.hoard.streams[k]).nextSeq)
      .done stOk (w32 (fld 8 6 curs.length) :: curs.flatMap fun k => seqWords k.nextSend k.stream)
        (s.setSub i (some
          { uplink := bit w0 16, dest := w0.extractLsb' 17 10, window := w3.extractLsb' 0 13, maxResends := w3.extractLsb' 13 4
            ackUs := w4.extractLsb' 0 20, run := 0, cursors := curs, hold := none })) := by
  obtain rfl : i = ⟨bits w0 5 0, Nat.mod_lt _ (by decide)⟩ := Fin.ext hi.symm
  have hmark : bits w0 7 6 ≠ 2 := by omega
  have hcheck : ¬ (!resv w0 31 27 || !resv w2 31 22 || !resv w3 31 17 || !resv w4 31 20 || bits w0 7 6 == 3 ||
      (bit w0 16 && decide (15 < bits w0 26 17)) || decide (bits w3 12 0 < 1) || decide (4096 < bits w3 12 0) ||
      bits w3 16 13 == 0 || decide (bits w4 19 0 < 100) || decide (1000000 < bits w4 19 0)) = true := by
    have hthree : bits w0 7 6 ≠ 3 := by omega
    simpa [*, Nat.not_lt.mpr] using fun h => hdest h
  have hcurs : ∀ k : Fin 54, startSeq (bits w0 7 6) none k s =
      if bits w0 7 6 = 1 then (s.hoard.streams[k]).oldest else (s.hoard.streams[k]).nextSeq := fun _ => rfl
  unfold subOpenBody
  simp only [pw, List.getD_cons_zero, List.getD_cons_succ]
  rw [if_neg hcheck, hfree]
  simp only [hmark, if_false, Option.isSome_none, Bool.false_eq_true, hcurs, beq_eq_false_iff_ne.mpr hmark, Bool.false_and]

theorem subAckBody_ok (c : Ctx) {ws : List Word} {i : Fin 64} {u : Sub} {s : State} (hi : bits (pw ws 0) 5 0 = i.val)
    (hresv : resv (pw ws 0) 31 12 = true) (hlow : 1 ≤ bits (pw ws 0) 11 6) (hhigh : bits (pw ws 0) 11 6 ≤ 54)
    (hu : s.hoard.subs[i] = some u) (hgood : ∀ e ∈ (List.range (bits (pw ws 0) 11 6)).map (ackEntry ws), ackBad u e = false) :
    subAckBody c ws s =
      let r := ackAll ((List.range (bits (pw ws 0) 11 6)).map (ackEntry ws)) (u, 0, 0)
      .done stOk [w32 (fld 0 6 r.2.1 + fld 6 6 r.2.2)] (s.setSub i (some { r.1 with cursors := r.1.cursors.map resumeCursor })) := by
  obtain rfl : i = ⟨bits (pw ws 0) 5 0, Nat.mod_lt _ (by decide)⟩ := Fin.ext hi.symm
  have hany : ((List.range (bits (pw ws 0) 11 6)).map (ackEntry ws)).any (ackBad u) = false :=
    List.any_eq_false.mpr fun e he => by simp [hgood e he]
  unfold subAckBody
  simp only []
  rw [if_neg (by simp [hresv, hhigh]; omega), hu]
  simp only [hany]
  rfl

theorem subCloseBody_ok (c : Ctx) {w : Word} {i : Fin 64} (s : State) (hi : bits w 5 0 = i.val) (hresv : resv w 31 7 = true) :
    subCloseBody c [w] s = .done stOk []
      { s with hoard := { s.hoard with subs := if bit w 6 then Vector.replicate 64 none else vset s.hoard.subs i none } } := by
  obtain rfl : i = ⟨bits w 5 0, Nat.mod_lt _ (by decide)⟩ := Fin.ext hi.symm
  unfold subCloseBody
  simp only [pw, List.getD_cons_zero, hresv]
  cases bit w 6 <;> rfl

/-! MARK_SET and REWIND (R341, R343, R344, R350, R351). -/

section
variable {w0 w1 w2 w3 w4 : Word} {i : Fin 256} (hi : bits w0 7 0 = i.val) (hresv0 : resv w0 31 23 = true)
  (hresv2 : resv w2 31 22 = true) (hguard : if bit w0 10 then bits w0 22 11 ≠ 0 ∧ bits w0 22 11 ≤ 4064 else bits w0 22 11 = 0)
include hi hresv0 hresv2 hguard

omit hi in
/-- The parameters of MARK_SET within their ranges. -/
theorem markSet_inRange (hop : bits w0 9 8 ≠ 3) :
    ¬ (!resv w0 31 23 || !resv w2 31 22 || bits w0 9 8 == 3 || (bit w0 10 && (bits w0 22 11 == 0 || decide (4064 < bits w0 22 11))) ||
      (!bit w0 10 && bits w0 22 11 != 0)) = true := by
  cases hprot : bit w0 10 <;> simp only [hprot, Bool.false_eq_true, if_false, if_true] at hguard <;> simp [*]

/-- MARK_SET of the present takes the next sequence of each stream. -/
theorem markSetBody_now (c : Ctx) (s : State) (hop : bits w0 9 8 = 0) :
    markSetBody c [w0, w1, w2, w3, w4] s =
      let parts := (maskStreams w1 w2).map fun k => (k, (s.hoard.streams[k]).nextSeq)
      .done stOk (markReply parts) (s.setMark i (some
        { parts := parts.map fun x => (x.1.val, x.2, true), guardMib := if bit w0 10 then some (bits w0 22 11) else none, risked := [] })) := by
  obtain rfl : i = ⟨bits w0 7 0, Nat.mod_lt _ (by decide)⟩ := Fin.ext hi.symm
  have hrange := markSet_inRange hresv0 hresv2 hguard (by omega)
  unfold markSetBody
  simp only [pw, List.getD_cons_zero, List.getD_cons_succ]
  rw [if_neg hrange, hop]
  rfl

theorem markSetBody_clear (c : Ctx) (s : State) (hop : bits w0 9 8 = 2) (h1 : w1 = 0) (h2 : w2 = 0) (h3 : w3 = 0) (h4 : w4 = 0) :
    markSetBody c [w0, w1, w2, w3, w4] s = .done stOk (markReply []) (s.setMark i none) := by
  obtain rfl : i = ⟨bits w0 7 0, Nat.mod_lt _ (by decide)⟩ := Fin.ext hi.symm
  have hrange := markSet_inRange hresv0 hresv2 hguard (by omega)
  unfold markSetBody
  simp only [pw, List.getD_cons_zero, List.getD_cons_succ]
  rw [if_neg hrange, hop]
  subst h1 h2 h3 h4
  rfl

end

theorem foldl_modCursor_run (l : List (Fin 54)) (f : Fin 54 → Cursor → Cursor) (u : Sub) :
    (l.foldl (fun x k => x.modCursor k.val (f k)) u).run = u.run := by
  induction l generalizing u with
  | nil => rfl
  | cons k l ih => rw [List.foldl_cons, ih]; rfl

/-- REWIND OLDEST: a new run, and the cursors named at their oldest records (R344). -/
theorem rewindBody_oldest (c : Ctx) {w0 w1 w2 : Word} {i : Fin 64} {u : Sub} {s : State} (hi : bits w0 5 0 = i.val)
    (hresv0 : resv w0 31 15 = true) (hresv2 : resv w2 31 22 = true) (holdest : bit w0 14 = true) (hu : s.hoard.subs[i] = some u)
    (hnames : ∀ k ∈ rewindNames w1 w2 u none, (u.cursor k.val).isSome = true) :
    rewindBody c [w0, w1, w2] s =
      let names := rewindNames w1 w2 u none
      .done stOk (w32 ((u.run + 1).toNat + fld 8 6 names.length) :: names.flatMap fun k => seqPair k (s.hoard.streams[k]).oldest)
        (s.setSub i (some (names.foldl (fun x k => x.modCursor k.val (rewindCursor (s.hoard.streams[k]).oldest))
          { u with run := u.run + 1, cursors := u.cursors.map fun k => { k with runSent := none } }))) := by
  obtain rfl : i = ⟨bits w0 5 0, Nat.mod_lt _ (by decide)⟩ := Fin.ext hi.symm
  have hany : ((rewindNames w1 w2 u none).any fun k => (u.cursor k.val).isNone) = false :=
    List.any_eq_false.mpr fun k hk => by simp [Option.isSome_iff_ne_none.mp (hnames k hk)]
  unfold rewindBody
  simp only [pw, List.getD_cons_zero, List.getD_cons_succ, hresv0, hresv2, holdest, hu, if_true, hany, foldl_modCursor_run]
  rfl

/-! HOARD_STATUS and QUEUE_CONFIG (R326, R329, R331, R352, R353). -/

section
variable {w : Word} {k : Fin 54} {r : Record} {s : State} (hk : bits w 7 0 = k.val) (hresv : resv w 31 15 = true)
  (hr : (s.hoard.streams[k]).held.head? = some r)
include hk hresv hr

theorem hoardStatusBody_ring (c : Ctx) (hring : bit w 8 = false) :
    hoardStatusBody c [w] s =
      let st := s.hoard.streams[k]
      .done stOk ([w32 st.sizeMib.toNat] ++ seqWords st.oldest 0 ++ seqWords st.nextSeq 0 ++ words64 r.lc.toNat ++ [st.overwrites]) s := by
  unfold hoardStatusBody
  simp only [pw, List.getD_cons_zero, hresv, finOf_val hk, hring, oldestLc, hr]
  rfl

theorem hoardStatusBody_cursor (c : Ctx) {i : Fin 64} {u : Sub} {x : Cursor} (hcur : bit w 8 = true) (hi : bits w 14 9 = i.val)
    (hu : s.hoard.subs[i] = some u) (hx : u.cursor k.val = some x) :
    hoardStatusBody c [w] s =
      let st := s.hoard.streams[k]
      .done stOk ([w32 st.sizeMib.toNat] ++ seqWords st.oldest 0 ++ seqWords st.nextSeq 0 ++ words64 r.lc.toNat ++ [st.overwrites] ++
        cursorWords u x s) s := by
  obtain rfl : i = ⟨bits w 14 9, Nat.mod_lt _ (by decide)⟩ := Fin.ext hi.symm
  unfold hoardStatusBody
  simp only [pw, List.getD_cons_zero, hresv, finOf_val hk, hcur, oldestLc, hr, hu, Option.bind_some, hx, Option.map_some]
  rfl

end

section
variable {w0 w1 : Word} (hresv0 : resv w0 31 11 = true) (hset : bit w0 9 = true)
include hresv0 hset

/-- The watermarks and the tail timeout as QUEUE_CONFIG stores them. -/
def setQueue (w1 : Word) (u : Queue) : Queue :=
  { u with hwm := w1.extractLsb' 0 6, lwm := w1.extractLsb' 6 6, tailUs := w1.extractLsb' 12 16 }

theorem queueConfigBody_queue (c : Ctx) {q : Fin 76} (s : State) (hunit : bits w0 8 7 = 0) (hq : bits w0 6 0 = q.val)
    (hresv1 : resv w1 31 28 = true) (horder : bits w1 11 6 < bits w1 5 0) (hoff : bits w1 27 12 = 0 → q.val ≠ 56 ∧ q.val ≠ 57)
    (hshort : bits w1 27 12 ≠ 0 → 10 ≤ bits w1 27 12) :
    queueConfigBody c [w0, w1] s =
      queueReply q { s with hoard := { s.hoard with
        queues := vmod s.hoard.queues q fun u => (if bit w0 10 then ackWatermark (setQueue w1 u) else setQueue w1 u) } } := by
  have hcheck : ¬ (!resv w1 31 28 || bit w0 9 && (bits w1 5 0 == 0 || decide (bits w1 5 0 ≤ bits w1 11 6) ||
      (bits w1 27 12 != 0 && decide (bits w1 27 12 < 10)) || (bits w1 27 12 == 0 && (q.val == 56 || q.val == 57)))) = true := by
    by_cases htail : bits w1 27 12 = 0
    · simp [*]; omega
    · simp [*, hshort htail]; omega
  unfold queueConfigBody
  simp only [pw, List.getD_cons_zero, List.getD_cons_succ, hresv0, hunit, finOf_val hq, Bool.not_true, Bool.false_eq_true, if_false]
  refine (if_neg hcheck).trans ?_
  simp only [hset, if_true]
  cases bit w0 10
  · rfl
  · simp only [if_true, State.modQueue, State.modHoard, vmod_vmod]
    rfl

theorem queueConfigBody_ring (c : Ctx) {k : Fin 54} {s : State} (hunit : bits w0 8 7 = 1) (hk : bits w0 6 0 = k.val)
    (hresv1 : resv w1 31 18 = true) (hack : bit w0 10 = false) (hhigh : bits w1 11 0 ≤ 4064) (hzero : bits w1 11 0 = 0 → k.val < 48)
    (hmax : recMaxOk k (bits w1 17 12) s = true) (hnew : bits w1 11 0 ≠ (s.hoard.streams[k]).sizeMib.toNat)
    (hspace : spaceMib s (some (k, bits w1 11 0)) s.hoard.spillMib.toNat ≤ 4096) (hidle : s.produces k = false)
    (hfree : s.subscribed k = false) :
    queueConfigBody c [w0, w1] s =
      ringReply k ((resizeRing k (BitVec.ofNat 12 (bits w1 11 0)) s).modStream k fun x => { x with recMax := w1.extractLsb' 12 6 }) := by
  have hcheck : ¬ (decide (4064 < bits w1 11 0) || (bits w1 11 0 == 0 && decide (48 ≤ k.val)) || !recMaxOk k (bits w1 17 12) s ||
      decide (4096 < spaceMib s (some (k, bits w1 11 0)) s.hoard.spillMib.toNat)) = true := by
    simpa [hmax, Nat.not_lt.mpr hspace, Nat.not_lt.mpr hhigh] using hzero
  unfold queueConfigBody
  simp only [pw, List.getD_cons_zero, List.getD_cons_succ, hresv0, hunit, finOf_val hk, Bool.not_true, Bool.false_eq_true, if_false]
  unfold configRing
  simp only [hack, hresv1, hset, Bool.not_true, Bool.or_self, Bool.false_eq_true, if_false]
  rw [if_neg hcheck]
  simp only [bne_iff_ne.mpr hnew, hidle, hfree]
  rfl

theorem queueConfigBody_spill (c : Ctx) {s : State} (hunit : bits w0 8 7 = 2) (hzero : bits w0 6 0 = 0) (hresv1 : resv w1 31 27 = true)
    (hack : bit w0 10 = false) (hlow : 64 ≤ bits w1 10 0) (hhigh : bits w1 10 0 ≤ 1024) (hage : bits w1 26 11 ≠ 0)
    (hlong : bits w1 26 11 ≤ 1000) (hspace : spaceMib s none (bits w1 10 0) ≤ 4096) (hempty : s.hoard.spilled = []) :
    queueConfigBody c [w0, w1] s =
      spillReply { s with hoard := { s.hoard with
        spillMib := BitVec.ofNat 11 (bits w1 10 0), spillAge := BitVec.ofNat 16 (bits w1 26 11) } } := by
  have hcheck : ¬ (decide (bits w1 10 0 < 64) || decide (1024 < bits w1 10 0) || bits w1 26 11 == 0 || decide (1000 < bits w1 26 11) ||
      decide (4096 < spaceMib s none (bits w1 10 0))) = true := by
    simp [hage, hspace, hlow, hhigh, hlong]
  unfold queueConfigBody
  simp only [pw, List.getD_cons_zero, List.getD_cons_succ, hresv0, hunit, Bool.not_true, Bool.false_eq_true, if_false]
  unfold configSpill
  simp only [hack, hresv1, hset, hzero, Bool.not_true, Bool.or_self, Bool.false_eq_true, if_false, bne_self_eq_false]
  exact (if_neg hcheck).trans (if_neg (by simp [hempty]))

end

/-- Settles O46: each command is admitted, within its own checks, and its reply is that of its body. -/
theorem hoardCommands : Obligations.HoardCommands := by
  refine ⟨?subOpen, ?subAck, ?subClose, ?markSet, ?rewind, ?status, ?config⟩
  case subOpen =>
    intro p s s1 c w0 w1 w2 w3 w4 i h hp hacc hsync hi hresv0 hresv2 hresv3 hresv4 hstart hdest hlow hhigh hmax hshort hlong hfree
      curs t hlim
    exact serve_unbroken subOpenSpec p s s1 c _ _ h hacc (by simp [subOpenSpec, modeIf, hsync]) (by rw [hp]; rfl)
      (by rw [hp]; exact subOpenBody_ok c hi hresv0 hresv2 hresv3 hresv4 hstart hdest hlow hhigh hmax hshort hlong hfree) hlim
  case subAck =>
    intro p s s1 c i u h hacc hi hresv hlow hhigh hlen hu es hgood r t hlim
    exact serve_unbroken subAckSpec p s s1 c _ _ h hacc rfl (by simp [subAckSpec, hlen])
      (subAckBody_ok c hi hresv hlow hhigh hu hgood) hlim
  case subClose =>
    intro p s s1 c w i h hp hacc hresv hi t hlim
    exact serve_unbroken subCloseSpec p s s1 c _ _ h hacc rfl (by rw [hp]; rfl) (by rw [hp]; exact subCloseBody_ok c s1 hi hresv) hlim
  case markSet =>
    intro p s s1 c w0 w1 w2 w3 w4 i h hp hacc hresv0 hresv2 hi hguard
    constructor
    · intro hop parts t hlim
      exact serve_unbroken markSetSpec p s s1 c _ _ h hacc rfl (by rw [hp]; rfl)
        (by rw [hp]; exact markSetBody_now hi hresv0 hresv2 hguard c s1 hop) hlim
    · intro hop h1 h2 h3 h4 t hlim
      exact serve_unbroken markSetSpec p s s1 c _ _ h hacc rfl (by rw [hp]; rfl)
        (by rw [hp]; exact markSetBody_clear hi hresv0 hresv2 hguard c s1 hop h1 h2 h3 h4) hlim
  case rewind =>
    intro p s s1 c w0 w1 w2 i u h hp hacc hresv0 hresv2 hi holdest hu names hnames v t hlim
    exact serve_unbroken rewindSpec p s s1 c _ _ h hacc rfl (by rw [hp]; rfl)
      (by rw [hp]; exact rewindBody_oldest c hi hresv0 hresv2 holdest hu hnames) hlim
  case status =>
    intro p s s1 c w k r h hp hacc hresv hk hr st ring
    refine ⟨fun hring => ?_, fun i u x hcur hi hu hx => ?_⟩
    · exact serve_unbroken hoardStatusSpec p s s1 c _ _ h hacc rfl (by rw [hp]; rfl)
        (by rw [hp]; exact hoardStatusBody_ring hk hresv hr c hring) s1.breaksLimits_self
    · exact serve_unbroken hoardStatusSpec p s s1 c _ _ h hacc rfl (by rw [hp]; rfl)
        (by rw [hp]; exact hoardStatusBody_cursor hk hresv hr c hcur hi hu hx) s1.breaksLimits_self
  case config =>
    intro p s s1 c w0 w1 h hp hresv0
    refine ⟨?queue, ?ring, ?spill⟩
    case queue =>
      intro q hunit hq hresv1 hset hacc horder hoff hshort set t x hlim
      exact serve_unbroken queueConfigSpec p s s1 c _ _ h (by simpa [queueConfigSpec, hp, pw, hset] using hacc) rfl (by rw [hp]; rfl)
        (by rw [hp]; exact queueConfigBody_queue hresv0 hset c s1 hunit hq hresv1 horder hoff hshort) hlim
    case ring =>
      intro k hunit hk hresv1 hset hack hacc hhigh hzero hmax hspace hnew hidle hfree u t x hlim
      refine ⟨?_, ?_⟩
      · simp [x, t, u, resizeRing, State.modStream, State.modHoard]
      · exact serve_unbroken queueConfigSpec p s s1 c _ _ h (by simpa [queueConfigSpec, hp, pw, hset] using hacc) rfl (by rw [hp]; rfl)
          (by rw [hp]; exact queueConfigBody_ring hresv0 hset c hunit hk hresv1 hack hhigh hzero hmax hnew hspace hidle hfree) hlim
    case spill =>
      intro hunit hzero hresv1 hset hack hacc hlow hhigh hage hlong hspace hempty t hlim
      have hsize : t.hoard.spillMib.toNat = bits w1 10 0 := toNat_ofNat_bits w1 10 0
      have hages : t.hoard.spillAge.toNat = bits w1 26 11 := toNat_ofNat_bits w1 26 11
      rw [← hsize, ← hages]
      exact serve_unbroken queueConfigSpec p s s1 c _ _ h (by simpa [queueConfigSpec, hp, pw, hset] using hacc) rfl (by rw [hp]; rfl)
        (by rw [hp]; exact queueConfigBody_spill hresv0 hset c hunit hzero hresv1 hack hlow hhigh hage hlong hspace hempty) hlim

end Sys2Proof.Machine

namespace Sys2Proof.Machine

/-! TAIL_TIMEOUT, SUB_SEND, ACK_TIMEOUT_RESEND and SPILL_AGE_EXPIRY (R318, R327, R329, R332, R334, R336 to R338, R346, R369). -/

theorem execTailTimeout_due {k : Fin 54} {s : State}
    (hopen : (s.hoard.streams[k]).openRec.isSome = true ∨ ∃ j : SettId, j.val = k.val ∧ (s.coders[j]).staging ≠ [])
    (htail : (s.hoard.queues[ingress k]).tailUs.toNat ≠ 0) :
    execTailTimeout k s =
      .next (endRecord k (atLc ((s.hoard.streams[k]).tailAt + (s.hoard.queues[ingress k]).tailUs.toNat * 1000) s)) := by
  refine guardNext_pos ?_
  rcases hopen with hrec | ⟨j, hj, hstaged⟩
  · simp only [hrec, Bool.true_or, Bool.true_and, bne_iff_ne]
    exact htail
  · simp only [finOf_val hj.symm, Bool.and_eq_true, Bool.or_eq_true, Bool.not_eq_true', List.isEmpty_eq_false_iff, bne_iff_ne]
    exact ⟨.inr hstaged, htail⟩

section
variable {i : Fin 64} {k : Fin 54} {u : Sub} {x : Cursor} {s : State} (hu : s.hoard.subs[i] = some u) (hx : u.cursor k.val = some x)
include hu hx

/-- The cursor may send now: it is not suspended or held back, and its window has room (R334, R337, R339). -/
def sendRoom (k : Fin 54) (u : Sub) (x : Cursor) (s : State) : Prop :=
  s.delivers = true ∧ x.suspended = false ∧ (k = 53 ∨ u.gapsFirst = false) ∧ (x.nextSend - x.acked - 1).toNat < u.window.toNat

omit hu hx in
theorem sendRoom_iff : sendRoom k u x s ↔ ¬ (!s.delivers || x.suspended || (k != 53 && u.gapsFirst) ||
    decide (u.window.toNat ≤ (x.nextSend - x.acked - 1).toNat)) = true := by
  simp only [sendRoom, Bool.or_eq_true, Bool.and_eq_true, Bool.not_eq_true', decide_eq_true_eq, bne_iff_ne, not_or, not_and_or,
    Bool.not_eq_false, Bool.not_eq_true, not_le, not_not, and_assoc]

theorem execSubSend_idle (ok : Bool) (h : ¬ sendRoom k u x s) : execSubSend i k ok s = .next s := by
  rw [sendRoom_iff, not_not] at h
  simp only [execSubSend, hu, Option.bind_some, hx, Option.map_some]
  rw [if_pos h]

/-- SUB_SEND of a record that does not read passes it over (R332). -/
theorem execSubSend_unreadable {r : Record} (h : sendRoom k u x s) (hr : sendable s.hoard.streams[k] x = some r) :
    execSubSend i k false s = .next (maybeSuspend i k (passUnreadable i k u r.seq s)) := by
  simp only [execSubSend, hu, Option.bind_some, hx, Option.map_some]
  rw [if_neg (sendRoom_iff.mp h), hr]
  simp only [Bool.not_false, if_true]

/-- SUB_SEND of a record that reads: kept back without room in the local reservation (R334). -/
theorem execSubSend_readable {r : Record} (h : sendRoom k u x s) (hr : sendable s.hoard.streams[k] x = some r) :
    execSubSend i k true s = .next (
      let replay := r.seq + 1 != (s.hoard.streams[k]).nextSeq
      let f := recordFrame s i u x r replay
      if localReserve f.clsFin < s.localBytes f.clsFin + f.bytes then s
      else
        let p := passReplay replay r s
        if !p.2 then maybeSuspend i k (passUnreadable i k u r.seq p.1)
        else maybeSuspend i k (sendFrame f (p.1.setSub i (some (u.modCursor k.val (takeRecord r.seq (some s.lcN))).settleHold)))) := by
  simp only [execSubSend, hu, Option.bind_some, hx, Option.map_some]
  rw [if_neg (sendRoom_iff.mp h), hr]
  simp only [Bool.not_true, Bool.false_eq_true, if_false]

theorem execSubSend_missing (ok : Bool) (h : sendRoom k u x s) (hr : sendable s.hoard.streams[k] x = none) :
    execSubSend i k ok s = .next (
      if seqOlder x.nextSend (sendOldest s.hoard.streams[k] x) then declareLost i k u (sendOldest s.hoard.streams[k] x) s else s) := by
  simp only [execSubSend, hu, Option.bind_some, hx, Option.map_some]
  rw [if_neg (sendRoom_iff.mp h), hr]

theorem execAckTimeoutResend_due {q : BitVec 48} {n : Nat} (hdel : s.delivers = true) (hrun : x.suspended = false)
    (hold : x.oldestSent = some (q, n)) :
    execAckTimeoutResend i k s = .next (
      let s1 := atLc (n + u.ackUs.toNat * 1000) s
      s1.setSub i (some (u.modCursor k.val fun y =>
        { y with nextSend := y.acked + 1, consecutive := y.consecutive + 1, resends := satInc y.resends
                 sentAt := y.sentAt.map fun z => if z.1 = q then (z.1, s1.lcN) else z }))) := by
  simp only [execAckTimeoutResend, hu, Option.bind_some, hx, Option.map_some, hold, hdel, hrun]
  rfl

theorem maybeSuspend_last (hrun : x.suspended = false) (hend : x.nextSend = x.sentEnd) (hmax : u.maxResends.toNat ≤ x.consecutive) :
    maybeSuspend i k s = raiseSuspended (s.setSub i (some (u.modCursor k.val fun y => { y with suspended := true }))) i.val k.val
      (x.acked + 1) := by
  simp only [maybeSuspend, hu, Option.bind_some, hx, Option.map_some]
  exact if_pos (by simp [hrun, hend, hmax])

theorem maybeSuspend_early (hmax : x.consecutive < u.maxResends.toNat) : maybeSuspend i k s = s := by
  simp only [maybeSuspend, hu, Option.bind_some, hx, Option.map_some]
  exact if_neg (by simp [Nat.not_le.mpr hmax])

end

theorem settleHold_eq (u : Sub) : u.settleHold = if u.gapsFirst then u else { u with hold := none } := by
  unfold Sub.settleHold
  split <;> rfl

theorem gapsFirst_of_free {u : Sub} (h : u.hold = none) : u.gapsFirst = false := by
  simp [Sub.gapsFirst, h]

theorem gapsFirst_iff {u : Sub} {q : BitVec 48} {x : Cursor} (h : u.hold = some q) (hx : u.cursor 53 = some x) :
    u.gapsFirst = true ↔ x.suspended = false ∧ seqOlder q x.nextSend = false := by
  simp [Sub.gapsFirst, h, hx]

theorem takeRecord_sent (q : BitVec 48) (lc : Nat) (x : Cursor) :
    let y := takeRecord q (some lc) x
    y.nextSend = q + 1 ∧ y.acked = x.acked ∧ y.skip = false ∧ (q, lc) ∈ y.sentAt ∧ (takeRecord q none x).skip = true :=
  ⟨rfl, rfl, rfl, List.mem_append_right _ (List.mem_singleton_self _), rfl⟩

theorem execSpillAgeExpiry_found {k : Port} {replay : Bool} {x : Spilled} {s : State}
    (h : (s.hoard.spilled.find? fun y => y.port == k && y.replay == replay) = some x) :
    execSpillAgeExpiry k replay s = .next ((atLc (x.since + s.hoard.spillAge.toNat * 1000000) s).modHoard fun h =>
      { h with spilled := h.spilled.erase x, spillAged := satInc h.spillAged }) := by
  simp only [execSpillAgeExpiry, h]

/-- Settles O47: each row acts on the cursor that it names, by what it may send. -/
theorem hoardRows : Obligations.HoardRows := by
  refine ⟨fun k s hopen htail => execTailTimeout_due hopen htail, fun i k u x s hu hx => ?cursor, fun r s => rfl,
    fun u => ⟨settleHold_eq u, gapsFirst_of_free, fun q x => gapsFirst_iff⟩, fun q lc x _ => takeRecord_sent q lc x,
    fun k replay x s hx => execSpillAgeExpiry_found hx⟩
  refine ⟨fun h ok => execSubSend_idle hu hx ok h, fun r h hr => ⟨fun hroom => ⟨fun hp => ?sent, fun hp => ?unread⟩, fun hfull => ?full, ?bad⟩,
    fun h hr ok => ⟨fun hold => ?lost, fun hold => ?none⟩,
    fun q n hdel hrun hold => execAckTimeoutResend_due hu hx hdel hrun hold, maybeSuspend_last hu hx, maybeSuspend_early hu hx⟩
  case sent =>
    refine (execSubSend_readable hu hx h hr).trans (congrArg Host.Outcome.next ?_)
    exact (if_neg (Nat.not_lt.mpr hroom)).trans (if_neg (by rw [hp]; decide))
  case unread =>
    refine (execSubSend_readable hu hx h hr).trans (congrArg Host.Outcome.next ?_)
    exact (if_neg (Nat.not_lt.mpr hroom)).trans (if_pos (by rw [hp]; rfl))
  case full => exact (execSubSend_readable hu hx h hr).trans (congrArg Host.Outcome.next (if_pos hfull))
  case bad => exact execSubSend_unreadable hu hx h hr
  case lost => exact (execSubSend_missing hu hx ok h hr).trans (congrArg Host.Outcome.next (if_pos hold))
  case none => exact (execSubSend_missing hu hx ok h hr).trans (congrArg Host.Outcome.next (if_neg (by rw [hold]; decide)))

end Sys2Proof.Machine

namespace Sys2Proof.Machine

/-! CODER_CONFIG, CODER_STATUS, DECODE_TEST and CODER_RESUME (R354, R367, R368, R372 to R374). -/

section
variable {w : Word} {k : SettId} (hk : bits w 5 0 = k.val)
include hk

theorem coderConfigBody_read (c : Ctx) (s : State) (hresv : resv w 31 15 = true) (hset : bit w 6 = false) :
    coderConfigBody c [w] s = coderReply k s := by
  unfold coderConfigBody
  simp only [pw, List.getD_cons_zero, finOf_val hk, hresv, hset]
  rfl

theorem coderConfigBody_set (c : Ctx) {s : State} (hresv : resv w 31 15 = true) (hset : bit w 6 = true) (hratio : bits w 9 8 ≠ 3)
    (hfloor : coderFloor (bits w 9 8) ≤ (s.hoard.streams[settStream k]).recMax.toNat) (hrun : (s.setts[k]).run = false) :
    coderConfigBody c [w] s = coderReply k (s.modCoder k fun x =>
      { x with enable := bit w 7, ratio := w.extractLsb' 8 2, alertEn := bit w 10, depthAlert := w.extractLsb' 11 4 }) := by
  have hcheck : ¬ (bits w 9 8 == 3 || decide ((s.hoard.streams[settStream k]).recMax.toNat < coderFloor (bits w 9 8))) = true := by
    simp only [Bool.or_eq_true, beq_iff_eq, decide_eq_true_eq]
    exact not_or.mpr ⟨hratio, Nat.not_lt.mpr hfloor⟩
  unfold coderConfigBody
  simp only [pw, List.getD_cons_zero, finOf_val hk, hresv, hset, Bool.not_true, Bool.false_eq_true, if_false]
  rw [if_neg hcheck, if_neg (by rw [hrun]; decide)]

theorem coderStatusBody_ok (c : Ctx) (s : State) (hresv : resv w 31 6 = true) :
    coderStatusBody c [w] s = .done stOk
      (let x := s.coders[k]
       w32 (flag 0 x.enable + fld 1 2 x.ratio.toNat + flag 3 (s.coding k) + fld 4 4 x.maxDepth.toNat + fld 8 4 x.lastDepth.toNat) ::
         coderCounters x) s := by
  unfold coderStatusBody
  simp only [pw, List.getD_cons_zero, finOf_val hk, hresv]
  rfl

end

section
variable {w h1 h2 : Word} {data : List Word} (hresv : resv w 31 9 = true) (hresv1 : resv h1 31 24 = true) (hresv2 : resv h2 31 24 = true)
  (hratio : (w.extractLsb' 1 2 : BitVec 2) ≠ 3)
include hresv hresv1 hresv2 hratio

theorem decodeTestBody_encode (c : Ctx) (s : State) (hcode : bit w 0 = false) :
    decodeTestBody c (w :: h1 :: h2 :: data) s =
      let b := encodeBlock (w.extractLsb' 1 2) (if bit w 8 then none else some (sbits h1 23 0, sbits h2 23 0)) (data.map testSample)
        (data.foldl (fun (f : Byte) x => f ||| x.extractLsb' 0 8) 0)
      .done stOk (w32 (fld 2 5 b.exp + fld 7 4 b.depth + fld 11 2 b.order) :: wordsOfBytes b.bytes) s := by
  unfold decodeTestBody
  simp only [pw, List.getD_cons_zero, List.getD_cons_succ, hresv, hresv1, hresv2, beq_eq_false_iff_ne.mpr hratio, hcode]
  rfl

theorem decodeTestBody_decode (c : Ctx) (s : State) (hcode : bit w 0 = true) :
    decodeTestBody c (w :: h1 :: h2 :: data) s =
      let d := decodeBlock (w.extractLsb' 1 2) (sbits h1 23 0, sbits h2 23 0) (bits w 7 3 + 1) (bytesOfWords data)
      .done stOk (w32 (fld 0 2 d.check + fld 2 5 d.exp + fld 7 4 d.depth + fld 11 2 d.order) :: d.words) s := by
  unfold decodeTestBody
  simp only [pw, List.getD_cons_zero, List.getD_cons_succ, hresv, hresv1, hresv2, beq_eq_false_iff_ne.mpr hratio, hcode]
  rfl

end

/-- The words of DECODE_TEST beyond the header are those of the samples, or of one block (R374). -/
theorem decodeTestLength_ok {w h1 h2 : Word} {data : List Word}
    (hlen : data.length = if bit w 0 then blockWords (w.extractLsb' 1 2) else bits w 7 3 + 1) :
    decodeTestLength (w :: h1 :: h2 :: data) = true := by
  simp [decodeTestLength, pw, hlen]
  omega

/-- Settles O54: each command is admitted, within its own checks, and its reply is that of its body. -/
theorem blockCoder : Obligations.BlockCoder := by
  refine ⟨?config, fun p s s1 c w k h hp hacc hk hresv => ?status, ?test, fun k s hstalled hroom => ?resume⟩
  case config =>
    intro p s s1 c w k h hp hk hresv reply
    refine ⟨fun hset hacc => ?_, fun hset hacc hratio hfloor hrun hlim => ?_⟩
    · exact serve_unbroken coderConfigSpec p s s1 c _ _ h (by simpa [coderConfigSpec, hp, pw, hset] using hacc) rfl (by rw [hp]; rfl)
        (by rw [hp]; exact coderConfigBody_read hk c s1 hresv hset) s1.breaksLimits_self
    · exact serve_unbroken coderConfigSpec p s s1 c _ _ h (by simpa [coderConfigSpec, hp, pw, hset] using hacc) rfl (by rw [hp]; rfl)
        (by rw [hp]; exact coderConfigBody_set hk c hresv hset hratio hfloor hrun) hlim
  case status =>
    exact serve_unbroken coderStatusSpec p s s1 c _ _ h hacc rfl (by rw [hp]; rfl)
      (by rw [hp]; exact coderStatusBody_ok hk c s1 hresv) s1.breaksLimits_self
  case test =>
    intro p s s1 c w h1 h2 data h hp hacc hmode hresv hresv1 hresv2 ratio hist hratio
    refine ⟨fun hcode hlen => ?_, fun hcode hlen => ?_⟩
    · exact serve_unbroken decodeTestSpec p s s1 c _ _ h hacc (by simp [decodeTestSpec, modeIf, hmode])
        (by rw [hp]; exact decodeTestLength_ok (by rw [hcode]; exact hlen))
        (by rw [hp]; exact decodeTestBody_encode hresv hresv1 hresv2 hratio c s1 hcode) s1.breaksLimits_self
    · exact serve_unbroken decodeTestSpec p s s1 c _ _ h hacc (by simp [decodeTestSpec, modeIf, hmode])
        (by rw [hp]; exact decodeTestLength_ok (by rw [hcode]; exact hlen))
        (by rw [hp]; exact decodeTestBody_decode hresv hresv1 hresv2 hratio c s1 hcode) s1.breaksLimits_self
  case resume => exact guardNext_pos (by rw [hstalled, hroom]; rfl)

end Sys2Proof.Machine

namespace Sys2Proof.Machine

@[simp] theorem State.lane_modLane (s : State) (p : Port) (f : Lane → Lane) : (s.modLane p f).lane p = f (s.lane p) := by
  simp [State.lane, State.modLane]

theorem State.lane_modLane_ne (s : State) {p q : Port} (f : Lane → Lane) (h : q ≠ p) : (s.modLane p f).lane q = s.lane q := by
  simp [State.lane, State.modLane, Fin.val_ne_of_ne h.symm]

/-! LANE_CONFIG (R26, R383, R396, R399, R400). -/

theorem toNat_field (w : Word) (lo len : Nat) (h : 0 < len) : (w.extractLsb' lo len).toNat = bits w (lo + len - 1) lo := by
  have hwidth : lo + len - 1 + 1 - lo = len := by omega
  simp only [bits, BitVec.extractLsb'_toNat, Nat.shiftRight_eq_div_pow, hwidth]

theorem getLsbD_field (w : Word) {lo len i : Nat} (h : i < len) : (w.extractLsb' lo len).getLsbD i = bit w (lo + i) := by
  simp [bit, h]

theorem modeField_of {a b : Bool} (ha : a = true) (hb : b = true) : modeField a b = stOk := by
  simp [modeField, modeIf, ha, hb]

section
variable {w : Word} {k : Port} {g : Fin 2} {s : State} (hk : bits w 4 0 = k.val) (hg : k.val / 16 = g.val) (hresv : resv w 31 14 = true)
  (href : s.lanes.refPresent[g] = true)
include hk hg hresv href

theorem laneConfigBody_read (c : Ctx) (hwrite : bit w 5 = false) :
    laneConfigBody c [w] s = .done stOk (laneConfigWords (s.lane k)) s := by
  obtain rfl : k = ⟨bits w 4 0, Nat.mod_lt _ (by decide)⟩ := Fin.ext hk.symm
  have hgroup : ∀ hlt : bits w 4 0 / 16 < 2, (⟨bits w 4 0 / 16, hlt⟩ : Fin 2) = g := fun _ => Fin.ext hg
  unfold laneConfigBody
  simp only [pw, List.getD_cons_zero, hresv, hwrite, hgroup, href]
  rfl

/-- The settings that LANE_CONFIG writes are within their ranges (R400). -/
def laneSettingsOk (w : Word) (k : Port) : Prop :=
  (bit w 8 = true → k.val < 8) ∧ bits w 10 9 ≠ 3 ∧ (bits w 10 9 ≠ 0 → bit w 8 = true) ∧ (bits w 10 9 = 2 → bit w 7 = true)

theorem laneConfigBody_write (c : Ctx) (hwrite : bit w 5 = true) (hset : laneSettingsOk w k)
    (hsafe : w.extractLsb' 6 8 = (s.lane k).settings ∨ s.sup.mode = .test ∨ k ∉ s.safetyPorts) :
    laneConfigBody c [w] s =
      let t := if w.extractLsb' 6 8 = (s.lane k).settings then s else applyLane k (w.extractLsb' 6 8) s
      .done stOk (laneConfigWords (t.lane k)) t := by
  obtain rfl : k = ⟨bits w 4 0, Nat.mod_lt _ (by decide)⟩ := Fin.ext hk.symm
  have hgroup : ∀ hlt : bits w 4 0 / 16 < 2, (⟨bits w 4 0 / 16, hlt⟩ : Fin 2) = g := fun _ => Fin.ext hg
  obtain ⟨heth, hthree, hfec, hrate⟩ := hset
  have hcheck : ¬ ((bit w 8 && decide (8 ≤ bits w 4 0)) || bits w 10 9 == 3 || (bits w 10 9 != 0 && !bit w 8) ||
      (bits w 10 9 == 2 && !bit w 7)) = true := by
    simp only [Bool.or_eq_true, Bool.and_eq_true, decide_eq_true_eq, beq_iff_eq, bne_iff_ne, Bool.not_eq_true']
    rintro (((⟨h, hport⟩ | h) | ⟨h, hoff⟩) | ⟨h, hoff⟩)
    · exact Nat.not_lt.mpr hport (heth h)
    · exact hthree h
    · simp [hfec h] at hoff
    · simp [hrate h] at hoff
  unfold laneConfigBody
  simp only [pw, List.getD_cons_zero, hresv, hwrite, hgroup, href, Bool.not_true, Bool.or_self, Bool.false_eq_true, if_false]
  rw [if_neg hcheck, if_neg]
  rcases hsafe with h | h | h
  · simp [h]
  · simp [h]
  · simp [h]

end

/-! LANE_EQ, LANE_PRBS and LANE_MARGIN (R384, R394 to R398, R401 to R403). -/

/-- The tap targets that LANE_EQ writes meet R384. -/
theorem tapsOk_of {w : Word} (hsum : bits w 3 0 + bits w 9 4 + bits w 14 10 ≤ 63) (hmain : bits w 3 0 + bits w 14 10 + 16 ≤ bits w 9 4) :
    tapsOk { pre := w.extractLsb' 0 4, main := w.extractLsb' 4 6, post := w.extractLsb' 10 5 } = true := by
  simp [tapsOk, toNat_field, hsum, hmain, -BitVec.extractLsb'_toNat]

theorem laneEqReply_ok {k : Port} {n : RxCoef} {t : State} (h : (t.lane k).snapshot = some n) :
    laneEqReply k t =
      let l := t.lane k
      .done stOk (w32 (tapsWord l.tapsNow + flag 15 (l.tapsNow == l.tapsT) + flag 16 l.clamped + flag 17 l.snapQualified +
        flag 18 l.adaptCtle + flag 19 l.adaptDfe) :: (rxWords l.rxNow ++ rxWords n ++ [l.clampHits])) t := by
  simp only [laneEqReply, snapshotWords, h]

theorem laneEqBody_ok (c : Ctx) {w0 w1 w2 w3 : Word} {k : Port} {n : RxCoef} {s : State} (hk : bits w0 4 0 = k.val)
    (hresv0 : resv w0 31 9 = true) (hresv1 : resv w1 31 15 = true) (hresv2 : resv w2 31 29 = true) (hresv3 : resv w3 31 6 = true)
    (hsnap : (s.lane k).snapshot = some n)
    (htaps : bit w0 5 = true → bits w1 3 0 + bits w1 9 4 + bits w1 14 10 ≤ 63 ∧ bits w1 3 0 + bits w1 14 10 + 16 ≤ bits w1 9 4) :
    laneEqBody c [w0, w1, w2, w3] s =
      let u := if bit w0 5 then s.modLane k fun l => { l with
        tapsT := { pre := w1.extractLsb' 0 4, main := w1.extractLsb' 4 6, post := w1.extractLsb' 10 5 }, tapAt := s.lcN } else s
      let t := if bit w0 6 then u.modLane k (writeRx w0 w2 w3) else u
      let l := t.lane k
      .done stOk (w32 (tapsWord l.tapsNow + flag 15 (l.tapsNow == l.tapsT) + flag 16 l.clamped + flag 17 l.snapQualified +
        flag 18 l.adaptCtle + flag 19 l.adaptDfe) :: (rxWords l.rxNow ++ rxWords n ++ [l.clampHits])) t := by
  obtain rfl : k = ⟨bits w0 4 0, Nat.mod_lt _ (by decide)⟩ := Fin.ext hk.symm
  have hcheck : ¬ (!resv w0 31 9 || !resv w1 31 15 || !resv w2 31 29 || !resv w3 31 6 || (bit w0 5 &&
      !tapsOk { pre := w1.extractLsb' 0 4, main := w1.extractLsb' 4 6, post := w1.extractLsb' 10 5 })) = true := by
    simp only [hresv0, hresv1, hresv2, hresv3, Bool.not_true, Bool.false_or, Bool.and_eq_true, Bool.not_eq_true', not_and]
    exact fun h => by simp [tapsOk_of (htaps h).1 (htaps h).2]
  unfold laneEqBody
  simp only [pw, List.getD_cons_zero, List.getD_cons_succ]
  rw [if_neg hcheck]
  refine laneEqReply_ok ?_
  split <;> split <;> simp [hsnap, writeRx]

theorem lanePrbsBody_ok (c : Ctx) {w0 w1 : Word} {k : Port} {s : State} (hk : bits w0 4 0 = k.val) (hresv0 : resv w0 31 14 = true)
    (hresv1 : resv w1 31 22 = true) (hnone : bit w1 0 = false → w1 = 0)
    (hinj : bit w1 0 = true → bits w1 15 8 ≠ 0 ∧ 10 ≤ bits w1 21 16 ∧ bits w1 21 16 ≤ 40 ∧ (bit w1 1 = true → s.isEth k = false)) :
    lanePrbsBody c [w0, w1] s =
      let u := if bit w0 5 then applyPrbs k (w0.extractLsb' 6 7) s else s
      let v := if bit w0 5 && bit w1 0 then u.modLane k (startInjection w1) else u
      let x := v.modLane k (accountBits v.lcN)
      .done stOk (lanePrbsWords (x.lane k)) (if bit w0 13 then x.modLane k clearPrbs else x) := by
  obtain rfl : k = ⟨bits w0 4 0, Nat.mod_lt _ (by decide)⟩ := Fin.ext hk.symm
  have hcheck : ¬ (!resv w0 31 14 || !resv w1 31 22 || (!bit w1 0 && w1 != 0) || (bit w1 0 && (bits w1 15 8 == 0 ||
      decide (bits w1 21 16 < 10) || decide (40 < bits w1 21 16) || (bit w1 1 && s.isEth ⟨bits w0 4 0, Nat.mod_lt _ (by decide)⟩)))) = true := by
    cases h : bit w1 0 with
    | false => simpa [hresv0, hresv1] using hnone h
    | true =>
      obtain ⟨hcount, hlow, hhigh, heth⟩ := hinj h
      simpa [hresv0, hresv1, hcount, hlow, hhigh] using heth
  unfold lanePrbsBody
  simp only [pw, List.getD_cons_zero, List.getD_cons_succ]
  rw [if_neg hcheck]

theorem laneMarginBody_ok (c : Ctx) {w : Word} {k : Port} {s : State} (hk : bits w 4 0 = k.val) (hresv : resv w 31 11 = true)
    (hlow : 20 ≤ bits w 10 5) (hhigh : bits w 10 5 ≤ 32) (hscan : (s.lane k).scan = none) :
    laneMarginBody c [w] s = .deferred (s.modLane k fun l => { l with scan := some (bits w 10 5, s.lcN, c.replyTo s) }) := by
  obtain rfl : k = ⟨bits w 4 0, Nat.mod_lt _ (by decide)⟩ := Fin.ext hk.symm
  unfold laneMarginBody
  simp only [pw, List.getD_cons_zero]
  rw [if_neg (by simp [hresv, hlow, hhigh]), hscan]
  rfl

/-! LANE_SLEEP (R389 to R392, R404). -/

section
variable {w : Word} {k : Port} {s : State} (hk : bits w 4 0 = k.val) (hresv : resv w 31 16 = true)
include hk hresv

theorem laneSleepBody_read (c : Ctx) (hwrite : bit w 5 = false) : laneSleepBody c [w] s = .done stOk (laneSleepWords (s.lane k)) s := by
  obtain rfl : k = ⟨bits w 4 0, Nat.mod_lt _ (by decide)⟩ := Fin.ext hk.symm
  unfold laneSleepBody
  simp only [pw, List.getD_cons_zero, hresv, hwrite]
  rfl

/-- LANE_SLEEP with WRITE where R392 does not refuse what newly sleeps. -/
theorem laneSleepBody_write (c : Ctx) (hwrite : bit w 5 = true) (hlow : 2 ≤ bits w 15 9) (hhigh : bits w 15 9 ≤ 100) :
    let l := s.lane k
    let tx := bit w 6 && !l.txQuiet
    let rx := bit w 7 && !l.rxQuiet
    (tx = true ∨ rx = true → s.isEth k = false ∧ s.time.cfg.timeEn[k] = false ∧ (s.sup.mode = .test ∨ k ∉ s.safetyPorts)) →
    (tx = true → l.tx = .on) → (rx = true → l.rx = .up) →
    laneSleepBody c [w] s =
      let a := s.modLane k fun l => { l with autoWake := bit w 8, wakeUs := BitVec.ofNat 7 (bits w 15 9) }
      let b := if tx then a.modLane k (fun l => { l with txQuiet := true }) else if !bit w 6 && l.txQuiet then startWake k a else a
      let t := if rx then enterRxQuiet false k b else if !bit w 7 && l.rxQuiet then b.modLane k (wakeRx b.lcN) else b
      .done stOk (laneSleepWords (t.lane k)) t := by
  obtain rfl : k = ⟨bits w 4 0, Nat.mod_lt _ (by decide)⟩ := Fin.ext hk.symm
  intro l tx rx hsleep htx hrx
  have hport : ¬ (decide (bits w 15 9 < 2) || decide (100 < bits w 15 9) || ((tx || rx) && s.isEth ⟨bits w 4 0, Nat.mod_lt _ (by decide)⟩)) = true := by
    simpa [Nat.not_lt.mpr hlow, Nat.not_lt.mpr hhigh] using fun h => (hsleep h).1
  have htime : ¬ ((tx || rx) && s.time.cfg.timeEn[(⟨bits w 4 0, Nat.mod_lt _ (by decide)⟩ : Port)]) = true := by
    simpa using fun h => (hsleep h).2.1
  have hsafe : ¬ ((tx || rx) && s.sup.mode != .test && s.safetyPorts.contains ⟨bits w 4 0, Nat.mod_lt _ (by decide)⟩) = true := by
    simpa [imp_iff_not_or, or_assoc] using fun h => (hsleep h).2.2
  have hready : ¬ ((tx && l.tx != .on) || (rx && l.rx != .up)) = true := by
    simpa using And.intro htx hrx
  unfold laneSleepBody
  simp only [pw, List.getD_cons_zero, hresv, hwrite, Bool.not_true, Bool.false_eq_true, if_false]
  exact (if_neg hport).trans ((if_neg htime).trans ((if_neg hsafe).trans (if_neg hready)))

end

theorem applyLane_field (k : Port) (w : Word) (s : State) :
    applyLane k (w.extractLsb' 6 8) s =
      let u := trimPlls ((laneStop k s).modLane k fun x => ratedTaps x.rate (bit w 7) { x with settings := w.extractLsb' 6 8 })
      if bit w 6 then laneStart k u else u := by
  simp only [applyLane, getLsbD_field w (show 0 < 8 by decide), getLsbD_field w (show 1 < 8 by decide)]

/-- Settles O52: each command is admitted, within its own checks, and its reply is that of its body. -/
theorem laneCommands : Obligations.LaneCommands := by
  refine ⟨?config, ?eq, ?prbs, ?margin, ?sleep⟩
  case config =>
    intro p s s1 c w k g h hp hk hg hresv href l
    refine ⟨fun hwrite hacc => ?read, fun hwrite hacc hmode htest heth hthree hfec hrate => ?write⟩
    case read =>
      exact serve_unbroken laneConfigSpec p s s1 c _ _ h (by simpa [laneConfigSpec, hp, pw, hwrite] using hacc)
        (by simp [laneConfigSpec, laneConfigMode, hp, pw, modeField_of, hresv, hwrite]) (by rw [hp]; rfl)
        (by rw [hp]; exact laneConfigBody_read hk hg hresv href c hwrite) s1.breaksLimits_self
    case write =>
      have run : ∀ t, laneConfigBody c [w] s1 = .done stOk (laneConfigWords (t.lane k)) t →
          s1.breaksLimits t = false → exec (.laneConfig p) s = replied 0x0B00 p s1 stOk (laneConfigWords (t.lane k)) t :=
        fun t hbody hlim => serve_unbroken laneConfigSpec p s s1 c _ t h (by simpa [laneConfigSpec, hp, pw, hwrite] using hacc)
          (by
            have hloop : (!bit w 13 || s1.sup.mode == .test) = true := by simpa [imp_iff_not_or] using htest
            simp [laneConfigSpec, laneConfigMode, hp, pw, modeField_of, hresv, hmode, hloop])
          (by rw [hp]; rfl) (by rw [hp]; exact hbody) hlim
      have hset : laneSettingsOk w k := ⟨heth, hthree, hfec, hrate⟩
      refine ⟨fun hold => run s1 ?_ s1.breaksLimits_self, fun hnew hsafe hlim => run _ ?_ hlim⟩
      · rw [laneConfigBody_write hk hg hresv href c hwrite hset (.inl hold), if_pos hold]
      · rw [laneConfigBody_write hk hg hresv href c hwrite hset (.inr hsafe), if_neg hnew, applyLane_field]
  case eq =>
    intro p s s1 c w0 w1 w2 w3 k n h hp hk hresv0 hresv1 hresv2 hresv3 hsnap hacc hmode htaps u t l hlim
    refine serve_unbroken laneEqSpec p s s1 c _ _ h (by simpa [laneEqSpec, hp, pw] using hacc) ?_ (by rw [hp]; rfl)
      (by rw [hp]; exact laneEqBody_ok c hk hresv0 hresv1 hresv2 hresv3 hsnap htaps) hlim
    have hsafe : (!(bit w0 5 || bit w0 6) || s1.sup.mode != .safeCore) = true := by simpa [imp_iff_not_or] using hmode
    rw [hp]
    exact modeField_of hresv0 hsafe
  case prbs =>
    intro p s s1 c w0 w1 k h hp hk hresv0 hresv1 hnone hinj hacc u v x t hlim
    refine serve_unbroken lanePrbsSpec p s s1 c _ _ h ?_ ?_ (by rw [hp]; rfl)
      (by rw [hp]; exact lanePrbsBody_ok c hk hresv0 hresv1 hnone hinj) hlim
    · rw [hp]
      cases hset : bit w0 5 <;> simp_all [lanePrbsSpec, pw]
    · rw [hp]
      refine modeField_of hresv0 ?_
      cases hset : bit w0 5 <;> simp_all [pw]
  case margin =>
    intro p s s1 c w k h hp hk hresv hacc hmode hrx hlow hhigh hscan
    obtain rfl : k = ⟨bits w 4 0, Nat.mod_lt _ (by decide)⟩ := Fin.ext hk.symm
    refine serve_deferred laneMarginSpec p s s1 c _ h hacc ?_ (by rw [hp]; rfl)
      (by rw [hp]; exact laneMarginBody_ok c hk hresv hlow hhigh hscan)
    rw [hp]
    exact modeField_of hresv (by simpa [pw, hmode] using hrx)
  case sleep =>
    intro p s s1 c w k h hp hk hresv l tx rx
    refine ⟨fun hwrite hacc => ?_, fun hwrite hacc hmode hlow hhigh hsleep htx hrx hlim => ?_⟩
    · exact serve_unbroken laneSleepSpec p s s1 c _ _ h (by simpa [laneSleepSpec, hp, pw, hwrite] using hacc)
        (by rw [hp]; exact modeField_of hresv (by simp [pw, hwrite])) (by rw [hp]; rfl)
        (by rw [hp]; exact laneSleepBody_read hk hresv c hwrite) s1.breaksLimits_self
    · exact serve_unbroken laneSleepSpec p s s1 c _ _ h (by simpa [laneSleepSpec, hp, pw, hwrite] using hacc)
        (by rw [hp]; exact modeField_of hresv (by simp [hmode])) (by rw [hp]; rfl)
        (by rw [hp]; exact laneSleepBody_write hk hresv c hwrite hlow hhigh hsleep htx hrx) hlim

end Sys2Proof.Machine

namespace Sys2Proof.Machine

/-! A retrain (R382, R383, R388, R398, R412). -/

theorem abortScan_of_none {k : Port} {s : State} (h : (s.lane k).scan = none) : abortScan k s = s := by
  simp [abortScan, h]

@[simp] theorem linkDown_lanes (k : Port) (s : State) : (linkDown k s).lanes = s.lanes := rfl

@[simp] theorem retrainEvent_lanes (s : State) : (retrainEvent s).lanes = s.lanes :=
  (congrArg State.lanes (raiseTransient_quiet s.drawWord.2 _ 6 0) :)

@[simp] theorem retrainEvent_fab (s : State) : (retrainEvent s).fab = s.fab :=
  (congrArg State.fab (raiseTransient_quiet s.drawWord.2 _ 6 0) :)

theorem linkDown_initTx (k : Port) (s : State) : ((linkDown k s).port k).initTx = false := by
  simp [linkDown, State.port, State.modPort, State.modFab]

theorem retrain_on {k : Port} {s : State} (hoff : (s.lane k).rx ≠ .off) (hpll : (s.lane k).rx ≠ .pll) (hscan : (s.lane k).scan = none) :
    retrain k s = (retrainEvent (linkDown k s)).modLane k fun l =>
      { l with rx := .acquire, retrains := satInc l.retrains, clamped := false, idleRun := 0, retraining := true
               rxWakeAt := none, rxQuiet := false, rxqByPeer := false, rxNow := l.snapshot.getD l.rxNow } := by
  unfold retrain
  rw [if_neg (by simp [hoff, hpll]), abortScan_of_none hscan]

/-- A running receiver retrains from its snapshot, unclamped, and no other lane does (R382, R383). -/
theorem retrain_effect {k : Port} {s : State} (hoff : (s.lane k).rx ≠ .off) (hpll : (s.lane k).rx ≠ .pll) (hscan : (s.lane k).scan = none) :
    ((retrain k s).lane k).rx = .acquire ∧ ((retrain k s).lane k).retrains = satInc (s.lane k).retrains ∧
    ((retrain k s).lane k).clamped = false ∧ ((retrain k s).lane k).rxNow = (s.lane k).snapshot.getD (s.lane k).rxNow ∧
    ((retrain k s).port k).initTx = false ∧ ∀ j : Port, j ≠ k → (retrain k s).lane j = s.lane j := by
  have hlane : ∀ j, (retrainEvent (linkDown k s)).lane j = s.lane j := fun j => by
    simp only [State.lane, retrainEvent_lanes, linkDown_lanes]
  rw [retrain_on hoff hpll hscan]
  simp only [State.lane_modLane, hlane]
  refine ⟨trivial, trivial, trivial, trivial, ?_, fun j hj => ?_⟩
  · simp only [State.port, State.modLane_fab, retrainEvent_fab]
    exact linkDown_initTx k s
  · rw [State.lane_modLane_ne _ _ hj, hlane]

/-! The class of an interval (R386, R387). -/

theorem endInterval_good {n b : Nat} (x : RxCoef) (l : Lane) (h : 256 ≤ n ∧ b = 0) :
    (endInterval n b x l).snapshot = some (endInterval n b x l).rxNow ∧ (endInterval n b x l).clamped = false ∧
    (endInterval n b x l).idleRun = 0 ∧ (endInterval n b x l).snapQualified = true := by
  unfold endInterval
  simp only [if_pos h]
  exact ⟨trivial, trivial, trivial, trivial⟩

theorem endInterval_other {n b : Nat} (x : RxCoef) (l : Lane) (h : ¬ (256 ≤ n ∧ b = 0)) :
    (endInterval n b x l).snapshot = l.snapshot ∧ (endInterval n b x l).idleRun = l.idleRun + 1 ∧
    (endInterval n b x l).clamped = (l.clamped || decide (10 ≤ l.idleRun + 1)) := by
  unfold endInterval
  simp only [if_neg h]
  exact ⟨trivial, trivial, trivial⟩

/-! The rows of a lane (R376, R379, R382, R384, R389, R391, R394, R395, R397). -/

section
variable {k : Port} {s : State}

theorem execBlockLock_locking (h : (s.lane k).rx = .locking) :
    execBlockLock k s = .next (
      let u := s.modLane k fun y => { y with
        rx := .up, idleRun := 0, rxWakeAt := none, retraining := false
        snapshot := if y.retraining then some y.rxNow else y.snapshot, snapQualified := y.snapQualified && !y.retraining }
      if (s.lane k).rxWakeAt.isSome || s.isEth k then u else sendInits k u) :=
  guardNext_pos (by rw [h]; decide)

theorem execErrorInjection_some {j : Injector} (h : (s.lane k).inj = some j) :
    execErrorInjection k s = .next (s.modLane k fun y =>
      { y with injDone := y.injDone + 1, inj := if j.left ≤ 1 then none else some { j with left := j.left - 1 } }) := by
  simp only [execErrorInjection, h]

theorem execLaneMarginDone_some {d a : Nat} {r : ReplyTo} (e : EyeScan) (h : (s.lane k).scan = some (d, a, r)) :
    execLaneMarginDone k e s = .next (
      let s1 := atLc (a + 192 * 2 ^ d * 64 / (if (s.lane k).rate then 1650 else 660)) s
      let x := runMiddle (centreRun 32 e.horizontal) s1
      let y := runMiddle (centreRun 63 e.vertical) x.2
      answerLater laneMarginCode r stOk [w32 (fld 0 7 (eyeOf e).1 + fld 7 9 (eyeOf e).2), w32 (fld 0 8 x.1 + fld 8 8 y.1)]
        (y.2.modLane k fun z => { z with scan := none })) := by
  simp only [execLaneMarginDone, h]

end

/-- Settles O53: each row's condition holds in the lane state it names. -/
theorem laneRows : Obligations.LaneRows := by
  refine ⟨fun g rate s hserved href hpll => guardNext_pos (by rw [href, hserved, hpll]; rfl), fun k s => ?rows, fun n b x l => ?interval,
    fun k s => retrain_effect⟩
  case interval =>
    exact ⟨fun hn hb => endInterval_good x l ⟨hn, hb⟩, fun h => endInterval_other x l (by omega)⟩
  case rows =>
    refine ⟨fun x h => guardNext_pos (by rw [h]; decide), fun h => ⟨⟨fun hwoke => ?woke, fun hwake heth => ?fresh⟩, guardNext_pos (by rw [h]; decide)⟩,
      fun n h => guardNext_pos (by rcases h with h | h <;> rw [h] <;> decide),
      fun h => ⟨fun n => guardNext_pos (by rw [h]; decide), guardNext_pos (by rw [h]; decide), fun n b x => guardNext_pos (by rw [h]; decide),
        fun heth => guardNext_pos (by rw [h, heth]; decide)⟩,
      fun h => guardNext_pos (by rw [h]; decide), fun hq ht => guardNext_pos (by rw [hq, ht]; decide),
      fun h => guardNext_pos (by rw [h]; decide), fun h => guardNext_pos (by rw [h]; decide),
      fun h hp => guardNext_pos (by rw [h, hp]; decide), fun h hup => guardNext_pos (by simp [h, hup]),
      fun h => guardNext_pos (by simp [h]), fun hp hrx hl => guardNext_pos (by rw [hp, hrx, hl]; decide),
      fun n e h => guardNext_pos h, fun j h => execErrorInjection_some h, fun d a r e h => execLaneMarginDone_some e h⟩
    case woke => exact (execBlockLock_locking h).trans (congrArg Host.Outcome.next (if_pos (by simpa using hwoke)))
    case fresh => exact (execBlockLock_locking h).trans (congrArg Host.Outcome.next (if_neg (by simp [hwake, heth])))

end Sys2Proof.Machine

namespace Sys2Proof.Machine

/-! FAB_ROUTE (R435). -/

/-- The port of a route entry is up. -/
def routeUp (x : BitVec 6) (s : State) : Bool :=
  match routePort x with
  | some q => s.linkUp q
  | none => false

/-- The reply of FAB_ROUTE for a hub: the state of its route, and its two ports. -/
def routeWords (d : Fin 1024) (s : State) : List Word :=
  let e := s.fab.routes[d]
  [w32 (flag 0 (!routeUp e.1 s && routeUp e.2 s) + flag 1 (!routeUp e.1 s && !routeUp e.2 s)), w32 (fld 0 6 e.1.toNat + fld 6 6 e.2.toNat), 0]

section
variable {w0 w1 : Word} (hresv0 : resv w0 31 12 = true) (hhub : bit w0 11 = false) (hresv1 : resv w1 31 12 = true)
include hresv0 hhub hresv1

theorem fabRouteBody_read (c : Ctx) (s : State) (hwrite : bit w0 10 = false) :
    fabRouteBody c [w0, w1, 0] s = .done stOk (routeWords (w0.extractLsb' 0 10 : BitVec 10).toFin s) s := by
  unfold fabRouteBody
  simp only [pw, List.getD_cons_zero, List.getD_cons_succ, hresv0, hhub]
  unfold routeBody
  simp only [hresv1, hwrite]
  rfl

theorem fabRouteBody_write (c : Ctx) (s : State) (hwrite : bit w0 10 = true) (hfirst : bits w1 5 0 < 32 ∨ bits w1 5 0 = 63)
    (hsecond : bits w1 11 6 < 32 ∨ bits w1 11 6 = 63) :
    fabRouteBody c [w0, w1, 0] s =
      let d : Fin 1024 := (w0.extractLsb' 0 10 : BitVec 10).toFin
      let t := s.modFab fun f => { f with routes := vset f.routes d (w1.extractLsb' 0 6, w1.extractLsb' 6 6) }
      .done stOk (routeWords d t) t := by
  have hgood : ∀ x : Nat, x < 32 ∨ x = 63 → (decide (x < 32) || x == 0x3F) = true := fun x h => by simpa using h
  unfold fabRouteBody
  simp only [pw, List.getD_cons_zero, List.getD_cons_succ, hresv0, hhub]
  unfold routeBody
  simp only [hresv1, hwrite, hgood _ hfirst, hgood _ hsecond]
  rfl

end

section
variable {w0 w1 w2 : Word} {k : Port} (hresv0 : resv w0 31 12 = true) (hport : bit w0 11 = true) (hk : bits w0 4 0 = k.val)
  (hzero : bits w0 9 5 = 0) (hresv1 : resv w1 31 24 = true) (hresv2 : resv w2 31 16 = true)
include hresv0 hport hk hzero hresv1 hresv2

theorem fabRouteBody_readPort (c : Ctx) (s : State) (hwrite : bit w0 10 = false) :
    fabRouteBody c [w0, w1, w2] s = .done stOk (0 :: portSettings (s.port k)) s := by
  obtain rfl : k = ⟨bits w0 4 0, Nat.mod_lt _ (by decide)⟩ := Fin.ext hk.symm
  unfold fabRouteBody
  simp only [pw, List.getD_cons_zero, List.getD_cons_succ, hresv0, hport]
  unfold portRouteBody
  simp only [hzero, hresv1, hresv2, hwrite]
  rfl

theorem fabRouteBody_writePort (c : Ctx) (s : State) (hwrite : bit w0 10 = true) (hweights : ∀ i < 6, bits w1 (4 * i + 3) (4 * i) ≠ 0)
    (hwait : 10 ≤ bits w2 7 0) (hspill : 8 ≤ bits w2 15 8) :
    fabRouteBody c [w0, w1, w2] s =
      let t := s.modPort k fun x => { x with weights := w1.extractLsb' 0 24, ackWait := w2.extractLsb' 0 8, spillThresh := w2.extractLsb' 8 8 }
      .done stOk (0 :: portSettings (t.port k)) t := by
  obtain rfl : k = ⟨bits w0 4 0, Nat.mod_lt _ (by decide)⟩ := Fin.ext hk.symm
  have hany : (List.range 6).any (fun i => bits w1 (4 * i + 3) (4 * i) == 0) = false :=
    List.any_eq_false.mpr fun i hi => by simpa using hweights i (List.mem_range.mp hi)
  have hcheck : ¬ ((List.range 6).any (fun i => bits w1 (4 * i + 3) (4 * i) == 0) || decide (bits w2 7 0 < 10) ||
      decide (bits w2 15 8 < 8)) = true := by
    rw [hany]
    simp [hwait, hspill]
  unfold fabRouteBody
  simp only [pw, List.getD_cons_zero, List.getD_cons_succ, hresv0, hport]
  unfold portRouteBody
  simp only [hzero, hresv1, hresv2, hwrite]
  exact if_neg hcheck

end

/-! FAB_STATUS (R436). -/

theorem fabStatusBody_port (c : Ctx) {w : Word} {k : Port} (s : State) (hresv : resv w 31 7 = true) (hk : bits w 5 0 = k.val) :
    fabStatusBody c [w] s = .done stOk (fabPortWords k s) (if bit w 6 then s.modPort k clearPortCounters else s) := by
  have hne : bits w 5 0 ≠ 32 := by have := k.isLt; omega
  unfold fabStatusBody
  simp only [pw, List.getD_cons_zero, hresv, if_neg hne, finOf_val hk]
  rfl

theorem fabStatusBody_fabric (c : Ctx) {w : Word} {l : Member} {s : State} (hresv : resv w 31 7 = true) (hall : bits w 5 0 = 32)
    (hl : s.leaderMember = some l) :
    fabStatusBody c [w] s = .done stOk
      ([w32 (fld 0 3 s.fab.state.toNat + flag 3 s.fab.leads + fld 4 10 s.fab.leader.toNat + fld 14 7 (s.fab.members.length + 1)),
        s.fab.term, s.fabGen, l.fabGen] ++ words64 s.fabDigest.toNat ++ words64 l.digest.toNat ++ [s.fab.elections, 0, 0, 0])
      (if bit w 6 then s.modFab fun f => { f with elections := 0 } else s) := by
  unfold fabStatusBody
  simp only [pw, List.getD_cons_zero, hresv, hall, fabWords, leaderWords, hl]
  rfl

/-! FAB_CONFIG_PUBLISH (R433, R437). -/

/-- The image as it stands with the chunk of FAB_CONFIG_PUBLISH in it. -/
def publishedWords (ws : List Word) (s : State) : List (Nat × Word) :=
  putAll (bits (pw ws 0) 16 0 / 4) ((ws.drop 3).take (bits (pw ws 0) 24 17)) (if bit (pw ws 0) 25 then [] else (s.fab.staged.map (·.words)).getD [])

section
variable {ws : List Word} {s : State} (hresv : resv (pw ws 0) 31 28 = true) (hoff : bits (pw ws 0) 16 0 % 4 = 0)
  (hcount : bits (pw ws 0) 24 17 ≤ 128) (hmax : bits (pw ws 0) 16 0 / 4 + bits (pw ws 0) 24 17 ≤ imageMax)
include hresv hoff hcount hmax

theorem fabPublishBody_store (c : Ctx) (happly : bit (pw ws 0) 26 = false) :
    fabPublishBody c ws s = .done stOk [w32 (fld 0 17 (4 * (publishedWords ws s).length)), 0, 0]
      (s.modFab fun f => { f with staged := some { words := publishedWords ws s, applyTk := none } }) := by
  unfold fabPublishBody
  simp only []
  rw [if_neg (by simp [hresv, hoff, happly, hcount, hmax]), if_pos (by rw [happly]; rfl)]
  rfl

theorem fabPublishBody_apply (c : Ctx) (happly : bit (pw ws 0) 26 = true) (hlead : s.fab.leads = true ∨ bit (pw ws 0) 27 = true)
    (htk : nat64 (pw ws 1) (pw ws 2) = 0 ∨ s.tkN + 200000 ≤ nat64 (pw ws 1) (pw ws 2))
    (hwhole : (contiguous 0 (publishedWords ws s)).length = (publishedWords ws s).length)
    (hgood : imageResult (contiguous 0 (publishedWords ws s)) s.fabGen = 1) :
    fabPublishBody c ws s =
      let img := contiguous 0 (publishedWords ws s)
      let tick := s.applyTick (nat64 (pw ws 1) (pw ws 2))
      let u := s.modFab fun f => { f with staged := none, next := some (img, tick) }
      .done stOk (w32 (fld 0 17 (4 * (publishedWords ws s).length) + fld 17 3 1) :: words64 tick)
        (if bit (pw ws 0) 27 then u else distribute img tick u) := by
  have hcheck : ¬ (!resv (pw ws 0) 31 28 || bits (pw ws 0) 16 0 % 4 != 0 || decide (128 < bits (pw ws 0) 24 17) ||
      decide (imageMax < bits (pw ws 0) 16 0 / 4 + bits (pw ws 0) 24 17) || (bit (pw ws 0) 26 && ((!s.fab.leads && !bit (pw ws 0) 27) ||
        (nat64 (pw ws 1) (pw ws 2) != 0 && decide (nat64 (pw ws 1) (pw ws 2) < s.tkN + 200000))))) = true := by
    have hleads : (!s.fab.leads && !bit (pw ws 0) 27) = false := by rcases hlead with h | h <;> simp [h]
    have htick : (nat64 (pw ws 1) (pw ws 2) != 0 && decide (nat64 (pw ws 1) (pw ws 2) < s.tkN + 200000)) = false := by
      rcases htk with h | h <;> simp [h]
    simp [hresv, hoff, hcount, hmax, hleads, htick]
  unfold fabPublishBody
  refine (if_neg hcheck).trans ((if_neg (by rw [happly]; decide)).trans ?_)
  have hresult : (if (contiguous 0 (publishedWords ws s)).length = (publishedWords ws s).length
      then imageResult (contiguous 0 (publishedWords ws s)) s.fabGen else 2) = 1 := by rw [if_pos hwhole, hgood]
  exact if_neg (not_not.mpr hresult)

end

/-! ETH_CONFIG (R421, R438). -/

section
variable {ws : List Word} {k : Fin 8} {e : Fin 16} (hk : bits (pw ws 0) 2 0 = k.val) (he : bits (pw ws 0) 8 5 = e.val)
  (hresv : ethReserved (bit (pw ws 0) 4) ws = true)
include hk he hresv

theorem ethConfigBody_read (c : Ctx) (s : State) (hwrite : bit (pw ws 0) 3 = false) :
    ethConfigBody c ws s = ethReply k (bit (pw ws 0) 4) e s := by
  obtain rfl : k = ⟨bits (pw ws 0) 2 0, Nat.mod_lt _ (by decide)⟩ := Fin.ext hk.symm
  obtain rfl : e = ⟨bits (pw ws 0) 8 5, Nat.mod_lt _ (by decide)⟩ := Fin.ext he.symm
  unfold ethConfigBody
  simp only [hresv, hwrite]
  rfl

theorem ethConfigBody_endpoint (c : Ctx) (s : State) (hwrite : bit (pw ws 0) 3 = true) (heth : s.isEth (uplinkPort k) = true)
    (hkind : bit (pw ws 0) 4 = true) :
    ethConfigBody c ws s = ethReply k (bit (pw ws 0) 4) e (s.modUplink k fun x => { x with eps := vmod x.eps e (setEndpoint ws) }) := by
  obtain rfl : k = ⟨bits (pw ws 0) 2 0, Nat.mod_lt _ (by decide)⟩ := Fin.ext hk.symm
  obtain rfl : e = ⟨bits (pw ws 0) 8 5, Nat.mod_lt _ (by decide)⟩ := Fin.ext he.symm
  unfold ethConfigBody
  simp only [hkind] at hresv
  simp only [hresv, hwrite, heth, hkind]
  rfl

theorem ethConfigBody_interface (c : Ctx) (s : State) (hwrite : bit (pw ws 0) 3 = true) (heth : s.isEth (uplinkPort k) = true)
    (hkind : bit (pw ws 0) 4 = false) (hgood : interfaceOk ws = true) :
    ethConfigBody c ws s = ethReply k (bit (pw ws 0) 4) e (s.modUplink k (setInterface ws)) := by
  obtain rfl : k = ⟨bits (pw ws 0) 2 0, Nat.mod_lt _ (by decide)⟩ := Fin.ext hk.symm
  obtain rfl : e = ⟨bits (pw ws 0) 8 5, Nat.mod_lt _ (by decide)⟩ := Fin.ext he.symm
  unfold ethConfigBody
  simp only [hkind] at hresv
  simp only [hresv, hwrite, heth, hkind, hgood]
  rfl

end

/-- Settles O48: each command is admitted, within its own checks, and its reply is that of its body. -/
theorem fabricCommands : Obligations.FabricCommands := by
  refine ⟨?route, ?status, ?publish, ?eth⟩
  case route =>
    intro p s s1 c w0 w1 w2 h hp hresv0
    have haccess : (if bit w0 10 then accEng c else accAny c) = true → fabRouteSpec.access c p.params s1 = true := fun hacc => by
      rw [hp]; exact hacc
    have hlen : fabRouteSpec.length p.params = true := by rw [hp]; rfl
    constructor
    · rintro hhub hresv1 rfl d up reply
      refine ⟨fun hwrite hacc => ?_, fun hwrite hacc hfirst hsecond hlim => ?_⟩
      · exact serve_unbroken fabRouteSpec p s s1 c _ _ h (haccess (by simpa [hwrite] using hacc)) rfl hlen
          (by rw [hp]; exact fabRouteBody_read hresv0 hhub hresv1 c s1 hwrite) s1.breaksLimits_self
      · exact serve_unbroken fabRouteSpec p s s1 c _ _ h (haccess (by simpa [hwrite] using hacc)) rfl hlen
          (by rw [hp]; exact fabRouteBody_write hresv0 hhub hresv1 c s1 hwrite hfirst hsecond) hlim
    · intro k hport hk hzero hresv1 hresv2
      refine ⟨fun hwrite hacc => ?_, fun hwrite hacc hweights hwait hspill hlim => ?_⟩
      · exact serve_unbroken fabRouteSpec p s s1 c _ _ h (haccess (by simpa [hwrite] using hacc)) rfl hlen
          (by rw [hp]; exact fabRouteBody_readPort hresv0 hport hk hzero hresv1 hresv2 c s1 hwrite) s1.breaksLimits_self
      · exact serve_unbroken fabRouteSpec p s s1 c _ _ h (haccess (by simpa [hwrite] using hacc)) rfl hlen
          (by rw [hp]; exact fabRouteBody_writePort hresv0 hport hk hzero hresv1 hresv2 c s1 hwrite hweights hwait hspill) hlim
  case status =>
    intro p s s1 c w h hp hresv hacc
    have haccess : fabStatusSpec.access c p.params s1 = true := by rw [hp]; exact hacc
    have hlen : fabStatusSpec.length p.params = true := by rw [hp]; rfl
    refine ⟨fun k hk hlim => ?_, fun l hall hl hlim => ?_⟩
    · exact serve_unbroken fabStatusSpec p s s1 c _ _ h haccess rfl hlen (by rw [hp]; exact fabStatusBody_port c s1 hresv hk) hlim
    · exact serve_unbroken fabStatusSpec p s s1 c _ _ h haccess rfl hlen (by rw [hp]; exact fabStatusBody_fabric c hresv hall hl) hlim
  case publish =>
    intro p s s1 c h hacc w0 n hcount hresv hoff hn hmax words
    have hlen : fabPublishSpec.length p.params = true := by
      have : p.params.length = 3 + bits (pw p.params 0) 24 17 := hcount
      simp [fabPublishSpec, this]
      omega
    refine ⟨fun happly hlim => ?_, fun happly hlead htk hwhole hgood hlim => ?_⟩
    · exact serve_unbroken fabPublishSpec p s s1 c _ _ h hacc rfl hlen (fabPublishBody_store hresv hoff hn hmax c happly) hlim
    · exact serve_unbroken fabPublishSpec p s s1 c _ _ h hacc rfl hlen
        (fabPublishBody_apply hresv hoff hn hmax c happly hlead htk hwhole hgood) hlim
  case eth =>
    intro p s s1 c k e h hcount w0 hk he hresv reply
    have haccess : (if bit w0 3 then accEng c else accAny c) = true → ethConfigSpec.access c p.params s1 = true := id
    have hlen : ethConfigSpec.length p.params = true := by simp [ethConfigSpec, hcount]
    refine ⟨fun hwrite hacc => ?_, fun hwrite hacc heth => ⟨fun hkind hlim => ?_, fun hkind hlow hhigh hshort hlong hlim => ?_⟩⟩
    · exact serve_unbroken ethConfigSpec p s s1 c _ _ h (haccess (by simpa [hwrite] using hacc)) rfl hlen
        (ethConfigBody_read hk he hresv c s1 hwrite) s1.breaksLimits_self
    · exact serve_unbroken ethConfigSpec p s s1 c _ _ h (haccess (by simpa [hwrite] using hacc)) rfl hlen
        (ethConfigBody_endpoint hk he hresv c s1 hwrite heth hkind) hlim
    · exact serve_unbroken ethConfigSpec p s s1 c _ _ h (haccess (by simpa [hwrite] using hacc)) rfl hlen
        (ethConfigBody_interface hk he hresv c s1 hwrite heth hkind (by simp [interfaceOk, hlow, hhigh, hshort, hlong])) hlim

end Sys2Proof.Machine

namespace Sys2Proof.Machine

/-! Ports and their classes after an update. -/

@[simp] theorem State.port_modPort (s : State) (p : Port) (f : FabPort → FabPort) : (s.modPort p f).port p = f (s.port p) := by
  simp [State.port, State.modPort, State.modFab]

theorem State.modPort_modPort (s : State) (p : Port) (f g : FabPort → FabPort) :
    (s.modPort p f).modPort p g = s.modPort p fun x => g (f x) := by
  simp [State.modPort, State.modFab, vmod_vmod]

theorem State.modClass_modClass (s : State) (p : Port) (c : Fin 6) (f g : PortClass → PortClass) :
    (s.modClass p c f).modClass p c g = s.modClass p c fun x => g (f x) := by
  simp [State.modClass, State.modPort_modPort, vmod_vmod]

/-! Acceptance of a frame on a link (R405, R409, R410). -/

section
variable {k : Port} {f : Frame} {s : State} (hheader : f.headerOk = true) (hseq : sequenced f = true)
include hheader hseq

theorem acceptFrame_badCrc (hcrc : f.crcOk = false) (hstomp : f.stomped = false) :
    acceptFrame k f s = .dropped (sendNak k f.clsFin (s.modPort k fun q => { q with framesRx := satInc q.framesRx })) := by
  unfold acceptFrame
  simp only [hheader, hcrc, hstomp, hseq]
  rfl

theorem acceptFrame_outOfSequence (hcrc : f.crcOk = true) (hnext : f.lseq ≠ ((s.port k).classes[f.clsFin]).rxSeq) :
    acceptFrame k f s = .dropped (sendNak k f.clsFin (s.modPort k fun q => { q with framesRx := satInc q.framesRx })) := by
  unfold acceptFrame
  simp only [hheader, hcrc, hseq, State.port_modPort, bne_iff_ne.mpr hnext]
  rfl

theorem acceptFrame_taken (hcrc : f.crcOk = true) (hstomp : f.stomped = false) (hnext : f.lseq = ((s.port k).classes[f.clsFin]).rxSeq)
    (htype : f.typeOk = true) :
    ∃ t, acceptFrame k f s = .taken t ∧
      (t.port k).classes[f.clsFin] = { (s.port k).classes[f.clsFin] with
        rxSeq := ((s.port k).classes[f.clsFin]).rxSeq + 1
        held := if f.isLocal then ((s.port k).classes[f.clsFin]).held else ((s.port k).classes[f.clsFin]).held + f.bytes } ∧
      (t.port k).linkCtl = linkCtlBlock f.clsFin.val false false ((s.port k).classes[f.clsFin]).rxSeq 0 :: (s.port k).linkCtl := by
  unfold acceptFrame
  simp only [hheader, hcrc, hseq, State.port_modPort, bne_eq_false_iff_eq.mpr hnext, hstomp, htype]
  refine ⟨_, rfl, ?_, ?_⟩
  · simp [State.modClass, sendLinkCtl]
  · simp [State.modClass, sendLinkCtl]

end

/-! FRAME_FORWARD (R414, R415, R420, R428). -/

section
variable {k : Port} {f : Frame} {s : State} (hserved : s.served = true) (hup : (s.lane k).upForLink = true)
  (htest : (s.lane k).testUse = false) (heth : s.isEth k = false)
include hserved hup htest heth

theorem execFrameForward_dropped {t : State} (h : acceptFrame k f s = .dropped t) :
    execFrameForward k f s = .next (cutShort k f s t) := by
  refine (guardNext_pos (by rw [hserved, hup, htest, heth]; rfl)).trans ?_
  rw [h]

theorem execFrameForward_taken {t : State} (h : acceptFrame k f s = .taken t) :
    execFrameForward k f s = .next (
      let drop := returnCredits k f.clsFin f t
      if (t.port k).verDiff = true ∧ crossesVersions f = false then drop
      else if t.sup.mode = .safeCore ∧ safeCoreTakes t f = false then noRoute k drop
      else if f.type = 0x20 then takeBeacon k f drop
      else if f.dst = t.fab.hubId then deliverLocal (some k) f t
      else if f.isLocal then noRoute k drop
      else forwardFrame k f t) := by
  refine (guardNext_pos (by rw [hserved, hup, htest, heth]; rfl)).trans ?_
  rw [h]
  simp only [Bool.and_eq_true, Bool.not_eq_true', beq_iff_eq]

end

theorem forwardFrame_lost (k : Port) {f : Frame} {s : State} (h : f.hopsLeft = 0 ∨ s.route f.dst f.clsFin = none) :
    forwardFrame k f s = noRoute k (returnCredits k f.clsFin f s) := by
  unfold forwardFrame
  rcases h with h | h
  · exact if_pos h
  · simp only [h, ite_self]

theorem forwardFrame_routed (k : Port) {f : Frame} {s : State} {q : Port} (hhop : f.hopsLeft ≠ 0) (hroute : s.route f.dst f.clsFin = some q) :
    forwardFrame k f s = enqueueOut q f.clsFin (some k) (lessHop f) s := by
  unfold forwardFrame
  simp only [if_neg hhop, hroute]

/-! PORT_FRAME_START, LINK_CTL_RX, ACK_WAIT_EXPIRY, FRAME_AGE_DISCARD and SPILL_DRAIN (R408, R410, R412, R416, R419). -/

section
variable {k : Port} {s : State}

theorem execPortFrameStart_some {c : Fin 6} {q : Queued} {r : List (Nat × Nat)}
    (h : ((List.finRange 6).findSome? fun i => (s.nextFrame k i).map fun y => (i, y)) = some (c, q, r)) :
    execPortFrameStart k s = .next (if q.isSync then stampSync k (startFrame k c q r s) else startFrame k c q r s) := by
  simp only [execPortFrameStart, h]

theorem execPortFrameStart_none (h : ((List.finRange 6).findSome? fun i => (s.nextFrame k i).map fun y => (i, y)) = none) :
    execPortFrameStart k s = .next s := by
  simp only [execPortFrameStart, h]

theorem execLinkCtlRx_up {b : BitVec 56} {c : Fin 6} (hup : (s.lane k).upForLink = true) (heth : s.isEth k = false)
    (hc : b.toNat % 8 = c.val) :
    execLinkCtlRx k b s = .next (
      let n := b.toNat / 2 ^ 21 % 2 ^ 16
      let seq : BitVec 16 := b.extractLsb' 5 16
      if b.getLsbD 4 then s.modClass k c fun x => { x with initRx := true, credits := n }
      else if b.getLsbD 3 then replayClass k c (s.modClass k c fun x => ackClass (seq - 1) { x with credits := x.credits + n })
      else s.modClass k c fun x => ackClass seq { x with credits := x.credits + n }) := by
  simp only [execLinkCtlRx, finOf_val hc, hup, heth, State.modClass_modClass]
  rfl

theorem execAckWaitExpiry_waiting {c : Fin 6} {f : Frame} {a : Nat} {l : List (Frame × Nat)}
    (h : ((s.port k).classes[c]).unacked = (f, a) :: l) :
    execAckWaitExpiry k c s = .next (replayClass k c (atLc (a + (s.port k).ackWait.toNat * 1000) s)) := by
  simp only [execAckWaitExpiry, h, List.head?_cons]
  rfl

theorem replayClass_last {c : Fin 6} (h : ((s.port k).classes[c]).unacked ≠ []) (hmax : 8 ≤ ((s.port k).classes[c]).replays) :
    replayClass k c s = retrain k s := by
  unfold replayClass
  exact (if_neg (mt List.isEmpty_iff.mp h)).trans (if_pos hmax)

theorem replayClass_again {c : Fin 6} (h : ((s.port k).classes[c]).unacked ≠ []) (hmax : ((s.port k).classes[c]).replays < 8) :
    (((replayClass k c s).port k).classes[c]).replays = ((s.port k).classes[c]).replays + 1 := by
  unfold replayClass
  simp only []
  rw [if_neg (mt List.isEmpty_iff.mp h), if_neg (Nat.not_le.mpr hmax)]
  simp [State.modClass]

theorem execFrameAgeDiscard_aged {c : Fin 6} {ns : Nat} {x : Queued} {l : List Queued} (hns : ageLimit c = some ns)
    (h : ((s.port k).classes[c]).queue = x :: l) :
    execFrameAgeDiscard k c s = .next (
      let u := (atLc (x.since + ns) s).modClass k c fun y => { y with queue := y.queue.erase x, aged := satInc y.aged }
      let v := if c = 0 then u.modPort k fun y => { y with safetyStale := satInc y.safetyStale } else u
      match x.input with
      | some i => returnCredits i c x.frame v
      | none => v) := by
  simp only [execFrameAgeDiscard, hns, h, List.head?_cons] <;> rfl

theorem execSpillDrain_found {replay : Bool} {x : Spilled}
    (h : (s.hoard.spilled.find? fun y => y.port == k && y.replay == replay) = some x) :
    execSpillDrain k replay s = .next (
      let c : Fin 6 := if replay then 4 else 3
      if ((s.port k).classes[c]).queue = [] ∧ s.noCredits k c = false ∧ s.mayStart k c x.frame = true ∧ s.spillBacklog = 0 then
        useSpillRate x.frame.bytes ((s.modHoard fun h => { h with spilled := h.spilled.erase x }).modClass k c fun y =>
          { y with queue := [{ input := none, since := s.lcN, frame := x.frame }] })
      else s) := by
  simp only [execSpillDrain, h, Bool.and_eq_true, List.isEmpty_iff, Bool.not_eq_true', beq_iff_eq, and_assoc]

end

/-- Settles O49: each row's outcome under the conditions that its clause names. -/
theorem linkRows : Obligations.LinkRows := by
  refine ⟨fun k f s hserved hup htest heth => ⟨fun t h => execFrameForward_dropped hserved hup htest heth h, fun t h => ?taken⟩,
    fun k f s hheader hseq => ⟨acceptFrame_badCrc hheader hseq, acceptFrame_outOfSequence hheader hseq, acceptFrame_taken hheader hseq⟩,
    fun k s => ⟨fun c r q => execPortFrameStart_some, execPortFrameStart_none⟩,
    fun k b c s hup heth hc => ?control, fun k c f a l s h => execAckWaitExpiry_waiting h,
    fun k c s h => ⟨replayClass_last h, replayClass_again h⟩, fun k c ns x l s hns h => execFrameAgeDiscard_aged hns h, by decide,
    fun k replay x s h => ⟨fun hfree => ?drain, fun hbusy => ?stay⟩⟩
  case taken =>
    intro drop other shed
    have run : exec (.frameForward k f) s = _ := execFrameForward_taken hserved hup htest heth h
    rw [run]
    refine ⟨fun ho => ?_, fun ho hs => ?_, fun ho hs hb => ?_, fun ho hs hb hd => ?_, fun ho hs hb hd hl => ?_,
      fun ho hs hb hd hl => ⟨fun hway => ?_, fun q hhop hroute => ?_⟩⟩ <;> refine congrArg Host.Outcome.next ?_
    · exact if_pos ho
    · exact (if_neg ho).trans (if_pos hs)
    · exact (if_neg ho).trans ((if_neg hs).trans (if_pos hb))
    · exact (if_neg ho).trans ((if_neg hs).trans ((if_neg hb).trans (if_pos hd)))
    · exact (if_neg ho).trans ((if_neg hs).trans ((if_neg hb).trans ((if_neg hd).trans (if_pos hl))))
    · exact (if_neg ho).trans ((if_neg hs).trans ((if_neg hb).trans ((if_neg hd).trans ((if_neg (by simp [hl])).trans
        (forwardFrame_lost k hway)))))
    · exact (if_neg ho).trans ((if_neg hs).trans ((if_neg hb).trans ((if_neg hd).trans ((if_neg (by simp [hl])).trans
        (forwardFrame_routed k hhop hroute)))))
  case control =>
    intro put n seq
    have run : exec (.linkCtlRx k b) s = _ := execLinkCtlRx_up hup heth hc
    refine ⟨fun hinit => ?_, fun hinit hnak => ?_, fun hinit hnak => ?_⟩ <;> rw [run]
    · exact congrArg Host.Outcome.next (if_pos hinit)
    · exact congrArg Host.Outcome.next ((if_neg (Bool.eq_false_iff.mp hinit)).trans (if_neg (Bool.eq_false_iff.mp hnak)))
    · exact congrArg Host.Outcome.next ((if_neg (Bool.eq_false_iff.mp hinit)).trans (if_pos hnak))
  case drain => exact (execSpillDrain_found h).trans (congrArg Host.Outcome.next (if_pos hfree))
  case stay => exact (execSpillDrain_found h).trans (congrArg Host.Outcome.next (if_neg hbusy))

end Sys2Proof.Machine

namespace Sys2Proof.Machine

/-! Beacons and membership (R424, R425, R428). -/

section
variable {k : Port} {f : Frame} {s : State}

theorem execBeaconRx_linked (hserved : s.served = true) (hlink : s.linkUp k = true) (hmask : s.fab.portMask.getLsbD k.val = true)
    (htype : f.type = 0x20) :
    (∀ t, acceptFrame k f s = .dropped t → execBeaconRx k f s = .next t) ∧
    ∀ t, acceptFrame k f s = .taken t → execBeaconRx k f s = .next (takeBeacon k f (returnCredits k f.clsFin f t)) := by
  have hguard : (s.served && s.linkUp k && s.fab.portMask.getLsbD k.val && f.type == 0x20) = true := by
    rw [hserved, hlink, hmask, htype]; rfl
  refine ⟨fun t h => (guardNext_pos hguard).trans ?_, fun t h => (guardNext_pos hguard).trans ?_⟩ <;> rw [h]

/-- The neighbour of a port is named by a beacon that has made no hop (R424, R428). -/
def heardBeacon (k : Port) (f : Frame) (s : State) : State :=
  if f.hopsLeft = 15 then noteNeighbour k (memberOf f s.lcN) s else s

/-- A beacon of this hub or of another version changes no member (R428). -/
theorem takeBeacon_own (h : f.src = s.fab.hubId ∨ (memberOf f s.lcN).verMajor ≠ 1) : takeBeacon k f s = heardBeacon k f s := by
  unfold takeBeacon
  exact if_pos (by simpa [bne_iff_ne] using h)

theorem heardBeacon_members : (heardBeacon k f s).fab.members = s.fab.members := by
  unfold heardBeacon
  split <;> rfl

/-- A beacon no newer than the last of its sender changes no member (R424). -/
theorem takeBeacon_old {o : Member} (ho : (heardBeacon k f s).fab.members.find? (fun x => x.hub == (memberOf f s.lcN).hub) = some o)
    (hold : serialOlder o.bseq (memberOf f s.lcN).bseq = false) : takeBeacon k f s = heardBeacon k f s := by
  rw [heardBeacon_members] at ho
  unfold takeBeacon
  simp only [ho, hold]
  split <;> rfl

theorem takeBeacon_new (hsrc : f.src ≠ s.fab.hubId) (hver : (memberOf f s.lcN).verMajor = 1)
    (hnew : ∀ o, (heardBeacon k f s).fab.members.find? (fun x => x.hub == (memberOf f s.lcN).hub) = some o →
      serialOlder o.bseq (memberOf f s.lcN).bseq = true) :
    takeBeacon k f s =
      let v := judgeMember (judgeAlone (noteMember (memberOf f s.lcN) (heardBeacon k f s)))
      if f.hopsLeft = 0 then v else flood (some k) (lessHop f) v := by
  rw [heardBeacon_members] at hnew
  unfold takeBeacon
  simp only []
  rw [if_neg (by simp [hsrc, hver])]
  cases ho : s.fab.members.find? (fun x => x.hub == (memberOf f s.lcN).hub) with
  | none => rfl
  | some o => simp only [hnew o ho]; rfl

end

theorem execMemberTimeout_known {h : BitVec 10} {m : Member} {s : State} (hm : s.fab.members.find? (fun x => x.hub == h) = some m) :
    execMemberTimeout h s = .next (judgeMember (judgeAlone ((atLc (m.seenAt + 3000000) s).modFab fun f =>
      { f with members := f.members.filter fun x => x.hub != h }))) := by
  simp only [execMemberTimeout, hm]

/-- Entering MISMATCH is noticed, and a state that is neither MEMBER nor MISMATCH stays (R425, R428). -/
theorem judgeMember_state (s : State) :
    (judgeMember s).fab.state = if s.fab.state = 2 ∨ s.fab.state = 3 then (if s.mismatched then 3 else 2) else s.fab.state := by
  unfold judgeMember
  split
  · split
    · split
      · assumption
      · rw [raise_fab]; rfl
    · rfl
  · rfl

/-! Leadership (R426, R427). -/

/-- The highest term that this hub knows. -/
def topTerm (s : State) : Nat := (s.selfMember :: s.fab.members).foldl (fun n m => max n m.term.toNat) 0

theorem elect_alone {s : State} (h : bestMember (candidates (s.selfMember :: s.fab.members)) = none) :
    elect s = followTerm s.fab.term s.fab.hubId true s := by
  simp only [elect, h]

theorem elect_best {s : State} {w : Member} (h : bestMember (candidates (s.selfMember :: s.fab.members)) = some w)
    (hself : w.hub = s.fab.hubId) (hlead : s.fab.leads = false ∨ s.fab.term.toNat ≠ topTerm s) :
    elect s = followTerm (w32 (topTerm s + 1)) s.fab.hubId true s := by
  have hme : (decide (w.hub = s.selfMember.hub) && !(s.fab.leads && decide (s.fab.term.toNat = topTerm s))) = true := by
    have : w.hub = s.selfMember.hub := hself
    rcases hlead with h | h <;> simp [this, h]
  simp only [elect, h]
  exact if_pos hme

/-- The fabric without the instant from which TQ 3 has held, which is all of it that the time quality touches. -/
def State.unlockedFab (s : State) : Fab := { s.fab with lockedSince := none }

theorem unlockedFab_of_fab {s t : State} (h : t.fab = s.fab) : t.unlockedFab = s.unlockedFab := by
  rw [State.unlockedFab, h]; rfl

theorem startRealign_fab (s : State) : (startRealign s).fab = s.fab := by
  unfold startRealign
  split
  · rfl
  · simp only []
    split
    · rw [raise_fab]; rfl
    · rfl

theorem setTq_unlockedFab (q : BitVec 4) (s : State) : (setTq q s).unlockedFab = s.unlockedFab := by
  have hmap : ∀ u : State, (raiseTimeMap u).fab = u.fab := fun u => raise_fab ..
  have hrealign : ∀ (c : Prop) [Decidable c] (u : State), (if c then startRealign u else u).unlockedFab = u.unlockedFab := fun c _ u => by
    split
    · exact unlockedFab_of_fab (startRealign_fab u)
    · rfl
  unfold setTq
  simp only []
  rw [apply_ite State.unlockedFab, hrealign]
  simp only [State.unlockedFab, State.modFab_fab, hmap]
  exact ite_self _

theorem takeParent_unlockedFab (p : Port) (s : State) : (takeParent p s).unlockedFab = s.unlockedFab := by
  unfold takeParent
  simp only []
  split
  · exact setTq_unlockedFab ..
  · rfl

theorem seekParent_unlockedFab (s : State) : (seekParent s).unlockedFab = s.unlockedFab := by
  unfold seekParent
  split
  · rfl
  · split
    · exact takeParent_unlockedFab ..
    · rfl

theorem ownTime_fab (s : State) : (ownTime s).fab = s.fab := by
  unfold ownTime
  split <;> rfl

theorem leadTime_unlockedFab (s : State) : (leadTime s).unlockedFab = s.unlockedFab := by
  unfold leadTime
  simp only []
  split
  · exact (setTq_unlockedFab ..).trans (unlockedFab_of_fab (ownTime_fab _))
  · exact unlockedFab_of_fab (ownTime_fab _)

theorem followTerm_fab (term : Word) (l : BitVec 10) (me : Bool) (s : State) :
    let t := followTerm term l me s
    t.fab.term = term ∧ t.fab.leader = l ∧ t.fab.leads = me ∧ t.fab.image = s.fab.image ∧ t.fab.members = s.fab.members := by
  have hfields : ∀ {t : State} {f : Fab}, t.unlockedFab = { f with lockedSince := none } → f.term = term → f.leader = l → f.leads = me →
      f.image = s.fab.image → f.members = s.fab.members →
      t.fab.term = term ∧ t.fab.leader = l ∧ t.fab.leads = me ∧ t.fab.image = s.fab.image ∧ t.fab.members = s.fab.members := by
    intro t f h hterm hleader hleads himage hmembers
    exact ⟨(congrArg Fab.term h).trans hterm, (congrArg Fab.leader h).trans hleader, (congrArg Fab.leads h).trans hleads,
      (congrArg Fab.image h).trans himage, (congrArg Fab.members h).trans hmembers⟩
  unfold followTerm
  simp only []
  split
  · rename_i h
    simp only [Bool.and_eq_true, decide_eq_true_eq] at h
    obtain ⟨⟨hterm, hleader⟩, hleads⟩ := h
    exact ⟨hterm, hleader, hleads, rfl, rfl⟩
  · split
    · exact hfields ((leadTime_unlockedFab _).trans (unlockedFab_of_fab (raise_fab ..))) rfl rfl rfl rfl rfl
    · split
      · exact hfields ((seekParent_unlockedFab _).trans (unlockedFab_of_fab (raise_fab ..))) rfl rfl rfl rfl rfl
      · exact hfields (unlockedFab_of_fab (raise_fab ..)) rfl rfl rfl rfl rfl

/-! The fabric configuration image (R432, R433). -/

section
variable {off : Nat} {ws : List Word} {tk : Word64} {s : State}

/-- The chunks of the image of one tick of adoption, with this one (R433). -/
def receivedWords (off : Nat) (ws : List Word) (tk : Word64) (s : State) : List (Nat × Word) :=
  putAll (off / 4) ws (match s.fab.staged with
    | some c => if c.applyTk = some tk.toNat then c.words else []
    | none => [])

theorem execConfigImgRx_joined (hserved : s.served = true) (hmode : s.sup.mode ≠ .safeCore) (hjoin : s.fab.join = true) :
    execConfigImgRx off ws tk s = .next (
      let all := receivedWords off ws tk s
      if (contiguous 0 all).length = all.length ∧ imageResult (contiguous 0 all) s.fabGen = 1 then
        s.modFab fun f => { f with staged := none, next := some (contiguous 0 all, tk.toNat) }
      else s.modFab fun f => { f with staged := some { words := all, applyTk := some tk.toNat } }) := by
  refine (guardNext_pos (by simp [hserved, hmode, hjoin])).trans ?_
  simp only [Bool.and_eq_true, decide_eq_true_eq]
  rfl

theorem execFabConfigApply_next {img : List Word} {n : Nat} (h : s.fab.next = some (img, n)) :
    execFabConfigApply s = .next (judgeMember ((atTk n s).modFab fun f => { f with image := img, next := none, staged := none })) := by
  simp only [execFabConfigApply, h]

theorem execFabConfigApply_staged {x : CfgImage} {n : Nat} (hnext : s.fab.next = none) (hx : s.fab.staged = some x)
    (hn : x.applyTk = some n) :
    execFabConfigApply s = .next (judgeMember ((atTk n s).modFab fun f => { f with staged := none })) := by
  simp only [execFabConfigApply, hnext, hx, Option.bind_some, hn]

end

/-- Settles O50: each row's outcome under the conditions that its clause names. -/
theorem membershipRows : Obligations.MembershipRows := by
  refine ⟨fun s hserved hports => guardNext_pos (by simp [hserved, hports]),
    fun k f s hserved hlink hmask htype => execBeaconRx_linked hserved hlink hmask htype,
    fun k f s => ⟨takeBeacon_own, fun o => takeBeacon_old, takeBeacon_new⟩, fun h m s hm => execMemberTimeout_known hm,
    fun s hserved hjoin => ⟨guardNext_pos (by rw [hserved, hjoin]; rfl), elect_alone, fun w => elect_best⟩, followTerm_fab,
    fun s h => guardNext_pos (by rw [h]; rfl), judgeMember_state, fun off ws tk s hserved hmode hjoin => ⟨fun hdone => ?_, fun hopen => ?_⟩,
    fun s => ⟨fun img tk => execFabConfigApply_next, fun x tk => execFabConfigApply_staged⟩⟩
  · exact (execConfigImgRx_joined hserved hmode hjoin).trans (congrArg Host.Outcome.next (if_pos hdone))
  · exact (execConfigImgRx_joined hserved hmode hjoin).trans (congrArg Host.Outcome.next (if_neg hopen))

end Sys2Proof.Machine


namespace Sys2Proof.Machine

/-! ## Ethernet uplinks: what a live uplink takes, answers and discards -/

/-- The datagram is one that an uplink never takes: a fragment, one with options, a tagged or a pause frame (R421). -/
def neverTaken (d : Datagram) : Bool := d.fragment || d.options || d.tagged || d.pause

theorem execUdpDatagramRx_odd {k : Fin 8} {d : Datagram} {s : State} (hlive : s.uplinkLive k = true) (hodd : neverTaken d = true) :
    execUdpDatagramRx k d s = .next (uplinkDiscard k s) :=
  (guardNext_pos hlive).trans (congrArg Host.Outcome.next (if_pos hodd))

theorem execUdpDatagramRx_foreign {k : Fin 8} {d : Datagram} {s : State}
    (hforeign : ¬ (d.dstIp = (s.fab.uplinks[k]).ip ∧ d.dstUdp = (s.fab.uplinks[k]).udpPort))
    (hlive : s.uplinkLive k = true) (hodd : ¬ neverTaken d = true) : execUdpDatagramRx k d s = .next s := by
  have hother : (d.dstIp != (s.fab.uplinks[k]).ip || d.dstUdp != (s.fab.uplinks[k]).udpPort) = true := by
    simpa [bne_iff_ne, imp_iff_not_or] using hforeign
  exact (guardNext_pos hlive).trans (congrArg Host.Outcome.next ((if_neg hodd).trans (if_pos hother)))

/-- What becomes of a datagram for the uplink's own address (R421 to R423). -/
theorem execUdpDatagramRx_mine {k : Fin 8} {d : Datagram} {s : State}
    (hmine : d.dstIp = (s.fab.uplinks[k]).ip ∧ d.dstUdp = (s.fab.uplinks[k]).udpPort)
    (hlive : s.uplinkLive k = true) (hodd : ¬ neverTaken d = true) :
    execUdpDatagramRx k d s = .next (if !d.checksumOk then uplinkDiscard k s else
      match d.frame with
      | none => uplinkDiscard k s
      | some f =>
        let got := s.modPort (uplinkPort k) fun q => { q with framesRx := satInc q.framesRx }
        if !f.headerOk then uplinkDiscard k (badFrame (uplinkPort k) got)
        else if !f.crcOk then uplinkDiscard k got else uplinkFrame k d f got) := by
  have hown : ¬ (d.dstIp != (s.fab.uplinks[k]).ip || d.dstUdp != (s.fab.uplinks[k]).udpPort) = true := by
    rw [hmine.1, hmine.2]; simp
  exact (guardNext_pos hlive).trans (congrArg Host.Outcome.next ((if_neg hodd).trans (if_neg hown)))

theorem execUdpDatagramRx_spoiled {k : Fin 8} {d : Datagram} {s : State}
    (hmine : d.dstIp = (s.fab.uplinks[k]).ip ∧ d.dstUdp = (s.fab.uplinks[k]).udpPort)
    (hlive : s.uplinkLive k = true) (hodd : ¬ neverTaken d = true) (hbad : d.checksumOk = false ∨ d.frame = none) :
    execUdpDatagramRx k d s = .next (uplinkDiscard k s) := by
  rw [execUdpDatagramRx_mine hmine hlive hodd]
  obtain hsum | hnone := hbad
  · rw [hsum]; rfl
  · simp only [hnone, ite_self]

/-- A datagram that carries a frame: the header is judged before the CRC, and both before the frame's class (R421, R422). -/
theorem execUdpDatagramRx_frame {k : Fin 8} {d : Datagram} {f : Frame} {s : State}
    (hmine : d.dstIp = (s.fab.uplinks[k]).ip ∧ d.dstUdp = (s.fab.uplinks[k]).udpPort)
    (hlive : s.uplinkLive k = true) (hodd : ¬ neverTaken d = true) (hsum : d.checksumOk = true) (hf : d.frame = some f) :
    let got := s.modPort (uplinkPort k) fun q => { q with framesRx := satInc q.framesRx }
    (f.headerOk = false → execUdpDatagramRx k d s = .next (uplinkDiscard k (badFrame (uplinkPort k) got))) ∧
    (f.headerOk = true → f.crcOk = false → execUdpDatagramRx k d s = .next (uplinkDiscard k got)) ∧
    (f.headerOk = true → f.crcOk = true → execUdpDatagramRx k d s = .next (uplinkFrame k d f got)) := by
  rw [execUdpDatagramRx_mine hmine hlive hodd]
  simp only [hsum, hf, Bool.not_true, Bool.false_eq_true, if_false]
  refine ⟨fun hh => ?_, fun hh hc => ?_, fun hh hc => ?_⟩ <;> simp [*]

/-- A frame of class CONTROL or below goes on from an uplink only from an endpoint in use, and not in Safe-Core (R423). -/
theorem uplinkFrame_passing {k : Fin 8} {d : Datagram} {f : Frame} {s : State}
    (hcls : 2 ≤ f.cls) (htype : f.typeOk = true) (hdst : f.dst ≠ s.fab.hubId) :
    uplinkFrame k d f s = if s.sup.mode == .safeCore then s else
      match (s.fab.uplinks[k]).sourceEndpoint d.srcIp d.srcUdp with
      | some e => forwardFrame (uplinkPort k) (fromEndpoint s e f) s
      | none => s :=
  (if_neg (Nat.not_lt.mpr hcls)).trans ((if_neg (by simp [htype])).trans (if_neg hdst))

/-- A REQUEST frame for this hub, of a class other than MGMT, is served from the uplink's address (R422, R423). -/
theorem uplinkFrame_served {k : Fin 8} {d : Datagram} {f : Frame} {s : State}
    (hcls : 2 ≤ f.cls) (htype : f.typeOk = true) (hdst : f.dst = s.fab.hubId) (hcmd : f.type = 0x04) (hmgmt : f.cls ≠ 5) :
    uplinkFrame k d f s = framePacket (.uplink k d.srcIp d.srcUdp) none f.dst (bytesOfWords f.payload) s :=
  (if_neg (Nat.not_lt.mpr hcls)).trans ((if_neg (by simp [htype])).trans ((if_pos hdst).trans
    (if_pos (by simp [hcmd, hmgmt]))))

/-- Settles O51, from the branches of each row on a live uplink. -/
theorem ethernetRows : Obligations.EthernetRows := by
  unfold Obligations.EthernetRows
  refine ⟨fun k d s hlive => ⟨execUdpDatagramRx_odd hlive, fun hodd hforeign => execUdpDatagramRx_foreign hforeign hlive hodd,
      fun hodd hmine => execUdpDatagramRx_spoiled hmine hlive hodd,
      fun f hodd hmine => execUdpDatagramRx_frame hmine hlive hodd⟩,
    fun k d f s => ⟨fun hcls => if_pos hcls, fun hcls htype hdst hmode => ?endpoint, fun hcls htype hdst hmode => ?safeCore,
      uplinkFrame_served⟩,
    fun k a s hlive => ⟨fun hreq hown => ?asked, fun hreq hother => ?unasked, fun hreply => ?resolved⟩,
    fun s hserved hlive => guardNext_pos (by simpa [hserved] using hlive),
    fun k src dst a b l s hlive hdst => guardNext_pos (by rw [hlive, hdst, beq_self_eq_true]; rfl),
    fun k s hdead => ⟨fun d => ?_, fun a => ?_, fun src dst a b l => ?_⟩⟩
  case endpoint =>
    rw [uplinkFrame_passing hcls htype hdst, if_neg (by simpa using hmode)]
    exact ⟨fun e he => by rw [he], fun he => by rw [he]⟩
  case safeCore => exact (uplinkFrame_passing hcls htype hdst).trans (if_pos (by rw [hmode]; rfl))
  case asked => exact (guardNext_pos hlive).trans (congrArg Host.Outcome.next ((if_pos hreq).trans (if_pos hown)))
  case unasked => exact (guardNext_pos hlive).trans (congrArg Host.Outcome.next ((if_pos hreq).trans (if_neg hother)))
  case resolved => exact (guardNext_pos hlive).trans (congrArg Host.Outcome.next (if_neg (Bool.eq_false_iff.mp hreply)))
  all_goals simp only [exec, execUdpDatagramRx, execArpRx, execIcmpEchoRx, guardNext, hdead, Bool.false_and, Bool.false_eq_true, if_false]

end Sys2Proof.Machine


namespace Sys2Proof.Machine

/-! ## The agreement of two parties -/

/-- A change is recorded in the first free place, after what has expired there, when no proposal of its object is held (R512,
R513, R515). -/
theorem propose_recorded {c : Ctx} {k i : Fin 8} {s : State} (action code : Nat) (ws : List Word) (d : List Byte)
    (hslot : c.slot = some k) (hfree : ((List.finRange 8).find? fun j => (s.proposalAt j).isNone) = some i)
    (hobj : ∀ j q, s.proposalAt j = some q →
      q.object ≠ changeObject (BitVec.ofNat 16 code).toNat (BitVec.ofNat 2 action).toNat ws) :
    propose c action code ws d s = .done stSecondParty (w32 i.val :: wordsOfBytes d) ((endProposal i 0 s).setProposal i (some
      { action := BitVec.ofNat 2 action, opcode := BitVec.ofNat 16 code, params := ws, digest := d, slot := k, since := s.lcN })) := by
  have hnone : ¬ ((List.finRange 8).any fun j => (s.proposalAt j).any fun q =>
      q.object == changeObject (BitVec.ofNat 16 code).toNat (BitVec.ofNat 2 action).toNat ws) = true := by
    simp only [List.any_eq_true, Option.any_eq_true, beq_iff_eq, not_exists, not_and]
    exact fun j _ q hq => hobj j q hq
  unfold propose
  simp only [hslot, hfree]
  exact if_neg hnone

/-- A held proposal stands in its place (R515). -/
theorem proposals_of_proposalAt {s : State} {i : Fin 8} {x : Proposal} (h : s.proposalAt i = some x) :
    s.prot.proposals[i] = some x := by
  unfold State.proposalAt at h
  split at h
  · next q hq =>
    split at h
    · exact hq.trans h
    · cases h
  · cases h

theorem endProposal_of {s : State} {i : Fin 8} {x : Proposal} (cause : Nat) (h : s.prot.proposals[i] = some x) :
    endProposal i cause s = raise (s.setProposal i none) 0x0701 (protBody x 0 cause) := by
  simp only [endProposal, h]

theorem maskFins_single (i : Fin 8) : maskFins 8 (2 ^ i.val) = [i] := by revert i; decide

theorem maskOf_single (i : Fin 8) : (maskOf 8 fun j => j == i) = 2 ^ i.val := by revert i; decide

theorem proposalNo_of {ws : List Word} {i : Fin 8} (h : bits (pw ws 0) 2 0 = i.val) : proposalNo ws = i := Fin.ext h

/-! FAB_JOIN (R434). -/

theorem fabJoinBody_read {c : Ctx} {w0 w1 : Word} {s : State} (hresv : resv w0 31 20 = true) (hread : bit w0 10 = false) :
    fabJoinBody c [w0, w1] s = .done stOk (fabJoinWords s) s := by
  simp [fabJoinBody, pw, hresv, hread]

/-- The checks of FAB_JOIN pass where the mask names no Ethernet port, and the ID stays or no subscription is open. -/
theorem fabJoinCheck_ok {w0 w1 : Word} {s : State} (hports : ∀ k : Port, w1.getLsbD k.val = true → s.isEth k = false)
    (hid : w0.extractLsb' 0 10 = s.fab.hubId ∨ ∀ i : Fin 64, s.hoard.subs[i] = none) : fabJoinCheck [w0, w1] s = stOk := by
  have hmask : ¬ (allPorts.any fun k => w1.getLsbD k.val && s.isEth k) = true := by
    simp only [List.any_eq_true, Bool.and_eq_true, not_exists, not_and]
    exact fun k _ hk => Bool.eq_false_iff.mp (hports k hk)
  have hopen : ¬ (w0.extractLsb' 0 10 != s.fab.hubId && s.hoard.subs.any (·.isSome)) = true := by
    obtain hsame | hnone := hid
    · simp [hsame]
    · simp only [Bool.and_eq_true, Vector.any_eq_true, not_and, not_exists]
      exact fun _ j hj => by have := hnone ⟨j, hj⟩; simp_all
  exact (if_neg hmask).trans (if_neg hopen)

theorem fabJoinBody_applied {c : Ctx} {w0 w1 : Word} {s : State} (hresv : resv w0 31 20 = true) (hwrite : bit w0 10 = true)
    (hlead : w0.extractLsb' 12 8 = s.fab.leadPriority) (hcheck : fabJoinCheck [w0, w1] s = stOk) :
    fabJoinBody c [w0, w1] s = .done stOk (fabJoinWords (applyFabJoin [w0, w1] s)) (applyFabJoin [w0, w1] s) := by
  simp [fabJoinBody, pw, hresv, hwrite, hcheck, joinProtected, hlead]

theorem fabJoinBody_proposed {c : Ctx} {w0 w1 : Word} {s : State} (hresv : resv w0 31 20 = true) (hwrite : bit w0 10 = true)
    (hlead : w0.extractLsb' 12 8 ≠ s.fab.leadPriority) (hcheck : fabJoinCheck [w0, w1] s = stOk) (hreplay : c.replay = false) :
    fabJoinBody c [w0, w1] s = propose c 0 0x0C00 [w0, w1] (genericDigest s 0x0C00 0 (bytesOfWords [w0, w1])) s := by
  simp [fabJoinBody, pw, hresv, hwrite, hcheck, joinProtected, hlead, hreplay]

/-! PAIR_CONFIG (R550). -/

theorem pairConfigBody_read {c : Ctx} {w0 w1 : Word} {s : State} (hread : bit w0 0 = false) (hresv0 : resv w0 31 9 = true)
    (hresv1 : resv w1 31 24 = true) : pairConfigBody c [w0, w1] s = .done stOk (pairConfigWords s) s := by
  simp [pairConfigBody, pw, hread, hresv0, hresv1]

theorem pairConfigBody_proposed {c : Ctx} {w0 w1 : Word} {s : State} (hwrite : bit w0 0 = true)
    (hwords : pairWordsOk [w0, w1] s = true) (hover : bit w0 1 = true → s.overLimits = false) (hreplay : c.replay = false) :
    pairConfigBody c [w0, w1] s = propose c 0 0x0F00 [w0, w1] (genericDigest s 0x0F00 0 (bytesOfWords [w0, w1])) s := by
  have hcheck : pairConfigCheck [w0, w1] s = stOk := by
    refine if_neg ?_
    simp only [pw, List.getD_cons_zero, hwords, Bool.not_true, Bool.false_or, Bool.and_eq_true, not_and]
    exact fun hpaired => Bool.eq_false_iff.mp (hover hpaired)
  simp [pairConfigBody, pw, hwrite, hcheck, hreplay]

theorem resv_of_pairWordsOk {w0 w1 : Word} {s : State} (h : pairWordsOk [w0, w1] s = true) : resv w0 31 9 = true := by
  simp only [pairWordsOk, pw, List.getD_cons_zero, Bool.and_eq_true] at h
  simp only [h]

/-! PROT_PROPOSE of the protection configuration (R512, R518). -/

/-- A word 1 of PROT_PROPOSE names a change of the protection configuration. -/
theorem action_of_one : bits 1#32 1 0 = 1 := by decide

theorem proposalOk_one : proposalOk 1#32 = true := by decide

theorem protProposeBody_config {c : Ctx} {w : Word} {d : List Word} {s : State} (hlen : d.length = 8)
    (hdigest : bytesOfWords d = genericDigest s 0x0E00 1 (bytesOfWords [w])) (hcheck : cfgCheck [w] s = stOk) :
    protProposeBody c (1 :: (d ++ [w])) s = propose c 1 0x0E00 [w] (genericDigest s 0x0E00 1 (bytesOfWords [w])) s := by
  have hdrop : changeWords (1 :: (d ++ [w])) = [w] := by
    rw [changeWords, List.drop_succ_cons, ← hlen, List.drop_left]
  have htake : ((1 :: (d ++ [w])).drop 1).take 8 = d := by
    rw [List.drop_succ_cons, List.drop_zero, ← hlen, List.take_left]
  unfold protProposeBody
  simp only [hdrop, htake, hdigest]
  simp [pw, action_of_one, hcheck]

theorem proposeAccess_config {c : Ctx} (ws : List Word) (s : State) (hacc : accParty 0x0E00 1 c = true) :
    proposeAccess c (1 :: ws) s = true := by
  simp [proposeAccess, pw, proposalOk_one, action_of_one, hacc]

theorem proposeMode_config (ws : List Word) (s : State) : proposeMode (1 :: ws) s = stOk := by
  simp [proposeMode, pw, proposalOk_one, action_of_one]

theorem proposeLength_config {d : List Word} (w : Word) (hlen : d.length = 8) : proposeLength (1 :: (d ++ [w])) = true := by
  simp [proposeLength, pw, action_of_one, hlen]

/-! PROT_CONFIRM and PROT_ABORT (R514, R515). -/

theorem protConfirmBody_own {c : Ctx} {w : Word} {d : List Word} {i : Fin 8} {x : Proposal} {s : State}
    (hi : bits w 2 0 = i.val) (hresv : resv w 31 3 = true) (hx : s.proposalAt i = some x) (hslot : c.slot = some x.slot) :
    protConfirmBody c (w :: d) s = .done stSecondParty (partyWords i x) s := by
  have hno : proposalNo (w :: d) = i := proposalNo_of hi
  unfold protConfirmBody
  simp only [hno, hx, hslot, if_true]
  exact if_neg (by simp [pw, hresv])

theorem protConfirmBody_other {c : Ctx} {w : Word} {d : List Word} {i k : Fin 8} {x : Proposal} {s : State} (hlen : d.length = 8)
    (hi : bits w 2 0 = i.val) (hresv : resv w 31 3 = true) (hx : s.proposalAt i = some x) (hslot : c.slot = some k)
    (hk : k ≠ x.slot) (hd : bytesOfWords d = x.digest) : protConfirmBody c (w :: d) s = confirmChange i x k s := by
  have hno : proposalNo (w :: d) = i := proposalNo_of hi
  have htake : ((w :: d).drop 1).take 8 = d := by rw [List.drop_succ_cons, List.drop_zero, ← hlen, List.take_length]
  unfold protConfirmBody
  simp only [hno, hx, hslot, htake, hd]
  exact (if_neg (by simp [pw, hresv])).trans ((if_neg hk).trans (if_neg (by simp)))

/-- A change whose checks pass again, within the limits of R543, applies with its notice (R514, R525). -/
theorem confirmChange_applied {i k : Fin 8} {x : Proposal} {r : List Word} {s s2 : State}
    (hjudge : changeJudge x.opcode.toNat x.action.toNat x.params s = (stOk, r, s2))
    (hlim : (s2.setProposal i none).breaksLimits (changeApply x.opcode.toNat x.action.toNat x.params (s2.setProposal i none)).2 = false) :
    let a := changeApply x.opcode.toNat x.action.toNat x.params (s2.setProposal i none)
    confirmChange i x k s = .done stOk a.1 (raise a.2 0x0700 (protBody x k.val 0)) := by
  intro a
  unfold confirmChange
  simp only [hjudge]
  exact (if_neg (by simp)).trans (if_neg (Bool.eq_false_iff.mp hlim))

theorem confirmAccess_of {c : Ctx} {ws : List Word} {i : Fin 8} {x : Proposal} {s : State} (hi : bits (pw ws 0) 2 0 = i.val)
    (hx : s.proposalAt i = some x) (hroles : confirmRoles x c s = true) : protConfirmSpec.access c ws s = true := by
  have hno : proposalNo ws = i := proposalNo_of hi
  simp only [protConfirmSpec, hno, hx, hroles]

theorem protAbortBody_named {c : Ctx} {w : Word} {i : Fin 8} {x : Proposal} {s : State} (hresv : resv w 31 4 = true)
    (hnamed : bit w 3 = false) (hi : bits w 2 0 = i.val) (hx : s.proposalAt i = some x) :
    let t := raise (s.setProposal i none) 0x0701 (protBody x 0 1)
    protAbortBody c [w] s = .done stOk [w32 (2 ^ i.val + fld 8 8 (maskOf 8 fun j => (t.proposalAt j).isSome))] t := by
  intro t
  have hno : proposalNo [w] = i := proposalNo_of hi
  have hheld : (fun j => j == i && (s.proposalAt j).isSome) = fun j => j == i := by
    funext j
    by_cases hj : j = i
    · simp [hj, hx]
    · simp [hj]
  have hmask : abortMask c [w] s = 2 ^ i.val := by
    simp only [abortMask, pw, List.getD_cons_zero, hnamed, Bool.false_eq_true, if_false, hno, hheld, maskOf_single]
  unfold protAbortBody
  simp only [hmask, maskFins_single, forEach, List.foldl_cons, List.foldl_nil, endProposal_of 1 (proposals_of_proposalAt hx)]
  exact if_neg (by simp [pw, hresv])

/-- The access of a PROT_ABORT that names a held proposal (R515). -/
theorem abortAccess_of {c : Ctx} {w : Word} {i : Fin 8} {x : Proposal} {s : State} (hnamed : bit w 3 = false)
    (hi : bits w 2 0 = i.val) (hx : s.proposalAt i = some x) (hmay : mayAbort c x = true) :
    protAbortSpec.access c [w] s = true := by
  have hno : proposalNo [w] = i := proposalNo_of hi
  simp only [protAbortSpec, pw, List.getD_cons_zero, hnamed, hno, hx, hmay, Bool.false_eq_true, if_false]

/-- The effect of each change of the protected set (R510). -/
theorem changeApply_effects (ws : List Word) (s : State) :
    changeApply 0x0D01 0 ws s = ([0], commissionApply (bit (pw ws 0) 0) s) ∧ (changeApply 0x0E03 0 ws s).2 = keyApply ws s ∧
    changeApply 0x0E05 0 ws s = ([], { s with prot := { s.prot with switching := true } }) ∧
    changeApply 0x0F00 0 ws s = ([pw ws 0 &&& 0xFFFFFFFE, pw ws 1], { s with pair := { s.pair with word0 := pw ws 0 &&& 0xFFFFFFFE, word1 := pw ws 1 } }) ∧
    (changeApply 0x0C00 0 ws s).2 = applyFabJoin ws s ∧ (changeApply 0x1003 0 ws s).2 = restoreApply (pw ws 0) s ∧
    changeApply 0x0E00 1 ws s = ([], { s with prot := { s.prot with cfg := pw ws 0 } }) ∧
    changeApply 0x0E00 2 ws s = ([], { s with prot := { s.prot with debugUntil := some (s.lcN + bits (pw ws 0) 7 0 * 60000000000) } }) := by
  simp only [changeApply]
  exact ⟨trivial, trivial, rfl, rfl, trivial, trivial, rfl, rfl⟩

/-- Settles O57, from the bodies of the commands of the agreement and the rows that end what it holds. -/
theorem twoPartyChanges : Obligations.TwoPartyChanges := by
  unfold Obligations.TwoPartyChanges
  refine ⟨fun p s s1 c w0 w1 h hp hresv => ⟨fun hread hacc => ?read, fun hwrite hacc hlead hports hid hlim => ?applied⟩,
    fun p s s1 c k i hslot hreplay hfree =>
      ⟨fun w0 w1 h hp hacc hresv hwrite hlead hcheck hobj => ?join, fun w0 w1 h hp hacc hwrite hmode hwords hover hobj => ?pair,
        fun d w h hp hlen hacc hdigest hcheck hobj => ?config⟩,
    fun p s s1 c w0 w1 h hp hacc hread hresv0 hresv1 => ?pairRead,
    fun p s s1 c w d i k x h hp hlen hi hresv hx hslot hroles => ⟨fun hk => ?own, fun r s2 hk hd hjudge hinner hlim => ?other⟩,
    changeApply_effects,
    fun p s s1 c w i x h hp hresv hnamed hi hx hmay hlim => ?abort,
    fun i x s hx => ?expiry, fun k a s ha => ?lockout, fun a s ha => ?debug⟩
  case read =>
    exact serve_unbroken fabJoinSpec p s s1 c _ _ h (by simp [fabJoinSpec, hp, pw, joinProtected, hread, hacc]) rfl
      (by rw [hp]; rfl) (by rw [hp]; exact fabJoinBody_read hresv hread) s1.breaksLimits_self
  case applied =>
    exact serve_unbroken fabJoinSpec p s s1 c _ _ h (by simp [fabJoinSpec, hp, pw, joinProtected, hwrite, hlead, hacc]) rfl
      (by rw [hp]; rfl) (by rw [hp]; exact fabJoinBody_applied hresv hwrite hlead (fabJoinCheck_ok hports hid)) hlim
  case join =>
    exact serve_done fabJoinSpec p s s1 c stSecondParty _ _ h (by simp [fabJoinSpec, hp, pw, joinProtected, hwrite, hlead, hacc])
      rfl (by rw [hp]; rfl) (by
        rw [hp]; exact (fabJoinBody_proposed hresv hwrite hlead hcheck hreplay).trans (propose_recorded _ _ _ _ hslot hfree hobj)) rfl
  case pair =>
    exact serve_done pairConfigSpec p s s1 c stSecondParty _ _ h (by simp [pairConfigSpec, hp, pw, hwrite, hacc])
      (by simp [pairConfigSpec, hp, pw, hwrite, modeField_of (resv_of_pairWordsOk hwords) hmode]) (by rw [hp]; rfl) (by
        rw [hp]; exact (pairConfigBody_proposed hwrite hwords hover hreplay).trans (propose_recorded _ _ _ _ hslot hfree hobj)) rfl
  case config =>
    exact serve_done protProposeSpec p s s1 c stSecondParty _ _ h (by rw [hp]; exact proposeAccess_config _ s1 hacc)
      (by rw [hp]; exact proposeMode_config _ s1) (by rw [hp]; exact proposeLength_config w hlen) (by
        rw [hp, hdigest]
        exact (protProposeBody_config hlen hdigest hcheck).trans (propose_recorded _ _ _ _ hslot hfree hobj)) rfl
  case pairRead =>
    exact serve_unbroken pairConfigSpec p s s1 c _ _ h (by simp [pairConfigSpec, hp, pw, hread, hacc])
      (by simp [pairConfigSpec, hp, pw, hread]) (by rw [hp]; rfl) (by rw [hp]; exact pairConfigBody_read hread hresv0 hresv1)
      s1.breaksLimits_self
  case own =>
    exact serve_done protConfirmSpec p s s1 c stSecondParty _ _ h (by rw [hp]; exact confirmAccess_of hi hx hroles) rfl
      (by simp [protConfirmSpec, hp, hlen]) (by rw [hp]; exact protConfirmBody_own hi hresv hx (hk ▸ hslot)) rfl
  case other =>
    exact serve_unbroken protConfirmSpec p s s1 c _ _ h (by rw [hp]; exact confirmAccess_of hi hx hroles) rfl
      (by simp [protConfirmSpec, hp, hlen]) (by
        rw [hp]; exact (protConfirmBody_other hlen hi hresv hx hslot hk hd).trans (confirmChange_applied hjudge hinner)) hlim
  case abort =>
    exact serve_unbroken protAbortSpec p s s1 c _ _ h (by rw [hp]; exact abortAccess_of hnamed hi hx hmay) rfl
      (by rw [hp]; rfl) (by rw [hp]; exact protAbortBody_named hresv hnamed hi hx) hlim
  case expiry => simp only [exec, execProposalExpiry, hx]
  case lockout => simp only [exec, execLockoutEnd, ha]; rfl
  case debug => simp only [exec, execDebugAccessEnd, ha]; rfl

end Sys2Proof.Machine


namespace Sys2Proof.Machine

/-! ## SYS_MODE_SET: targets, modes and transitions -/

/-- The mode from which each target is reached, in a hub where no Safe-Core trigger of the same instant is ahead (R30, R31). -/
def Reaches (target : Nat) (s : State) : Prop :=
  (target = 1 ∧ s.sup.mode = .service ∧ s.pair.paired = false) ∨
  (target = 3 ∧ (s.sup.mode = .service ∨ (s.sup.mode = .test ∧ s.prot.debugUntil = none) ∨
    (s.sup.mode = .safeCore ∧ s.sup.causes &&& 0xE = 0))) ∨
  (target = 4 ∧ (s.working = true ∨ s.sup.mode = .safeCore)) ∨
  (target = 5 ∧ s.sup.mode = .service)

theorem targetOk_of {w : Word} {s : State} (hresv : resv w 31 4 = true) (h : Reaches (bits w 3 0) s) : targetOk w = true := by
  unfold targetOk
  rw [hresv]
  obtain ⟨ht, -⟩ | ⟨ht, -⟩ | ⟨ht, -⟩ | ⟨ht, -⟩ := h <;> rw [ht] <;> rfl

theorem targetMode_of {w : Word} {s : State} (hlost : ¬ (s.sup.mode = .safeCore ∧ s.sup.safeAt = some s.time.aonNs))
    (h : Reaches (bits w 3 0) s) : targetMode w s = true := by
  have hfirst : (s.sup.mode == .safeCore && s.sup.safeAt == some s.time.aonNs) = false := by
    simpa [Bool.eq_false_iff] using hlost
  unfold targetMode
  rw [hfirst]
  obtain ⟨ht, hmode, -⟩ | ⟨ht, hmode | ⟨hmode, hdebug⟩ | ⟨hmode, hcause⟩⟩ | ⟨ht, hmode⟩ | ⟨ht, hmode⟩ := h <;>
    simp_all

/-- A hub of a pair is refused Hibernate before its mode is changed (R35); every other target that is reached takes effect. -/
theorem sysModeSetBody_reached {c : Ctx} {ws : List Word} {s : State} (h : Reaches (bits (pw ws 0) 3 0) s) :
    sysModeSetBody c ws s = .done stOk [(goTo (pw ws 0) s).modeStatus] (goTo (pw ws 0) s) := by
  refine if_neg fun ⟨ht, hpaired⟩ => ?_
  rw [ht] at h
  obtain ⟨-, -, halone⟩ | ⟨h3, -⟩ | ⟨h4, -⟩ | ⟨h5, -⟩ := h
  · rw [halone] at hpaired; cases hpaired
  all_goals contradiction

/-- The transition of each target (R30). -/
theorem goTo_eq (w : Word) (s : State) : goTo w s =
    if bits w 3 0 = 1 then (enterHibernate s).modSup fun u => { u with hold := true }
    else if bits w 3 0 = 3 then if s.sup.mode = .test then leaveTest s else if s.sup.mode = .safeCore then leaveSafe s else s
    else if bits w 3 0 = 4 then enterSafe 0 s
    else enterTest s := by
  unfold goTo
  split
  · next h => simp [h]
  · next h => simp [h]
  · next h => simp [h]
  · next h1 h3 h4 => exact ((if_neg h1).trans ((if_neg h3).trans (if_neg h4))).symm

/-- Settles O17, from the checks of a target that can be reached and its transition. -/
theorem modeSet : Obligations.ModeSet := by
  unfold Obligations.ModeSet
  intro p s s1 c h hlen hlost w target hacc hresv hreach t hlim
  have hreach : Reaches (bits (pw p.params 0) 3 0) s1 := hreach
  have ht : t = goTo (pw p.params 0) s1 := (goTo_eq _ _).symm
  rw [ht] at hlim ⊢
  refine serve_unbroken sysModeSetSpec p s s1 c _ _ h (by simpa [sysModeSetSpec] using hacc)
    (modeField_of (targetOk_of hresv hreach) (targetMode_of hlost hreach)) (by simp [sysModeSetSpec, hlen])
    (sysModeSetBody_reached (c := c) hreach) hlim

end Sys2Proof.Machine


namespace Sys2Proof.Machine

/-! ## The safety commands, and what the outputs leave of Owl -/

/-- Owl with the demand and the outputs set aside. -/
def Owl.unswitched (o : Owl) : Owl := { o with sos := Vector.replicate 8 So.reset, demand := 0 }

@[simp] theorem commandOutputs_unswitched (s : State) : (commandOutputs s).owl.unswitched = s.owl.unswitched := by
  unfold commandOutputs
  simp only []
  split
  · rfl
  · exact forEach_keeps (fun u => u.owl.unswitched) commandOutput (fun _ _ => rfl) _ _

@[simp] theorem dropOutput_on (o : So) : (dropOutput o).on = false := by
  unfold dropOutput
  split
  · rfl
  · next h => exact Bool.eq_false_iff.mpr h

theorem outputsOff_on (s : State) (n : Fin 8) : ((outputsOff s).owl.sos[n]).on = false := by
  simp [outputsOff]

/-- With no block in force every output is off. -/
theorem commandOutputs_on_of_none {s : State} (h : s.owl.block = none) (n : Fin 8) : ((commandOutputs s).owl.sos[n]).on = false := by
  unfold commandOutputs
  simp only [State.modOwl_owl, h]
  exact outputsOff_on _ n

/-! A block that comes into force (R499). -/

theorem orMasks_eq_zero {l : List (BitVec 16)} (h : ∀ x ∈ l, x = 0) : orMasks l = 0 := by
  induction l with
  | nil => rfl
  | cons x xs ih =>
    obtain ⟨rfl, hxs⟩ := List.forall_mem_cons.mp h
    exact ih hxs

theorem latchedBits_cleared (o : Owl) : latchedBits o.cleared = 0 := by
  refine orMasks_eq_zero fun x hx => ?_
  simp only [Owl.cleared, List.mem_append, Vector.toList_map, Vector.toList_replicate, List.map_replicate, List.map_map] at hx
  obtain ((hx | hx) | hx) | hx := hx
  · exact (List.mem_replicate.mp hx).2
  · obtain ⟨i, -, rfl⟩ := List.mem_map.mp hx
    rfl
  · exact (List.mem_replicate.mp hx).2
  · obtain ⟨c, -, rfl⟩ := List.mem_map.mp hx
    rfl

/-- The outputs set aside, a block comes into force with everything else cleared. -/
theorem putBlock_unswitched (b : Option Block) (s : State) : (putBlock b s).owl.unswitched =
    Owl.unswitched { s.owl.cleared with block := b, scv := (b.map fun b => scvOf b.words).getD 0 } := by
  unfold putBlock
  rw [commandOutputs_unswitched]
  refine (forEach_keeps (fun u : State => u.owl.unswitched) _ ?_ _ _).trans rfl
  exact fun _ _ => rfl

theorem commissionApply_withdrawn (s : State) : commissionApply true s = raise (putBlock none s) 0x0601 [s.owl.scv, 1] := rfl

theorem commissionApply_owl_staged (s : State) :
    (commissionApply false s).owl = { (putBlock s.stagedBlock s).owl with scvBad := false } := by
  unfold commissionApply
  rw [if_neg Bool.false_ne_true, raise_owl, State.modOwl_owl]

/-- A block that comes into force, or goes, leaves READY and every latch clear (R499). -/
theorem commissionApply_cleared (w : Bool) (s : State) :
    (commissionApply w s).owl.ready = false ∧ latchedBits (commissionApply w s).owl = 0 := by
  have hlatched : ∀ (b : Option Block) (o : Owl), o.unswitched = (putBlock b s).owl.unswitched → o.ready = false ∧ latchedBits o = 0 := by
    intro b o ho
    rw [putBlock_unswitched] at ho
    exact ⟨congrArg Owl.ready ho, (congrArg latchedBits ho).trans (latchedBits_cleared s.owl)⟩
  cases w with
  | true => exact hlatched none _ (congrArg Owl.unswitched (raise_owl _ _ _))
  | false =>
    rw [commissionApply_owl_staged]
    exact hlatched s.stagedBlock (putBlock s.stagedBlock s).owl rfl

theorem commissionApply_block (s : State) : (commissionApply true s).owl.block = none ∧ (commissionApply false s).owl.block = s.stagedBlock := by
  rw [commissionApply_withdrawn, raise_owl, commissionApply_owl_staged]
  exact ⟨congrArg Owl.block (putBlock_unswitched none s), congrArg Owl.block (putBlock_unswitched s.stagedBlock s)⟩

theorem commissionApply_withdrawn_on (s : State) (n : Fin 8) : ((commissionApply true s).owl.sos[n]).on = false := by
  rw [commissionApply_withdrawn, raise_owl]
  exact commandOutputs_on_of_none rfl n

/-! The checks of SAFE_COMMISSION (R499). -/

theorem commissionCheck_withdraw {scv : Word} {s : State} (hcomm : s.owl.commEn = true) (hmode : s.sup.mode = .test) :
    commissionCheck true scv s = (0, stOk) := by
  simp [commissionCheck, hcomm, hmode]

theorem commissionCheck_staged {b : Block} {s : State} (hcover : ∀ e ∈ b.outputs, s.plan.bank.asCycle.coversOutput e.1.val e.2.widthMax = true)
    (hdigest : planDigest (fun j => b.settMask.getLsbD j.val) s.plan.bank = b.planDigest.toNat)
    (hactive : s.plan.active = true) (hmatch : s.matchesBlock b = true) (hblock : s.stagedBlock = some b)
    (hcomm : s.owl.commEn = true) (hmode : s.sup.mode = .test) : commissionCheck false (scvOf b.words) s = (0, stOk) := by
  have hall : b.outputs.all (fun x => s.plan.bank.asCycle.coversOutput x.1.val x.2.widthMax) = true := List.all_eq_true.mpr hcover
  unfold commissionCheck
  simp only [hblock, hcomm, hmode, hmatch, hactive, hdigest, hall]
  simp

/-- A commission whose checks pass is recorded as a proposal (R502, R512). -/
theorem safeCommissionBody_proposed {c : Ctx} {w scv : Word} {s : State} (hresv : resv w 31 1 = true) (hzero : bit w 0 = true → scv = 0)
    (hcheck : commissionCheck (bit w 0) scv s = (0, stOk)) (hlim : s.breaksLimits (commissionApply (bit w 0) s) = false) :
    safeCommissionBody c [w, scv] s = propose c 0 0x0D01 [w, scv] (commissionDigest [w, scv] s) s := by
  have hform : ¬ (!resv w 31 1 || (bit w 0 && scv != 0)) = true := by simpa [hresv] using hzero
  have hjudge : commissionJudge [w, scv] s = (stOk, [w32 0]) := by
    unfold commissionJudge
    simp only [pw, List.getD_cons_zero, List.getD_cons_succ, hcheck, hlim]
    exact (if_neg hform).trans (if_neg (by simp))
  unfold safeCommissionBody
  rw [hjudge]
  exact if_neg (by simp)

/-! The bodies of the other safety commands (R501, R503 to R505). -/

theorem safeParamBody_ok (c : Ctx) {ws : List Word} {s : State} (hresv : resv (pw ws 0) 31 23 = true) (halign : bits (pw ws 0) 13 0 % 4 = 0)
    (hmin : 1 ≤ bits (pw ws 0) 21 14) (hmax : bits (pw ws 0) 21 14 ≤ 128) (hend : bits (pw ws 0) 13 0 + 4 * bits (pw ws 0) 21 14 ≤ 8192) :
    let u := withdrawProposals isCommission s
    let t := { u with owl := { u.owl with
      staged := putAll (bits (pw ws 0) 13 0 / 4) ((ws.drop 1).take (bits (pw ws 0) 21 14)) (if bit (pw ws 0) 22 then [] else u.owl.staged) } }
    safeParamBody c ws s = .done stOk
      [w32 (fld 0 14 (4 * t.owl.staged.length) + flag 14 (s.holdsProposal isCommission))] t := by
  refine if_neg ?_
  simp only [hresv, halign, Bool.not_true, Bool.false_or, bne_self_eq_false, Bool.or_eq_true, decide_eq_true_eq]
  omega

theorem safePulseBody_read {c : Ctx} {w : Word} {n : Fin 8} {e : SoEntry} {s : State} (hn : bits w 2 0 = n.val) (hresv : resv w 31 24 = true)
    (he : s.soAt n = some e) (hread : bit w 3 = false) : safePulseBody c [w] s = .done stOk (pulseReply n s) s := by
  obtain rfl : n = ⟨bits w 2 0, Nat.mod_lt _ (by decide)⟩ := Fin.ext hn.symm
  simp only [safePulseBody, pw, List.getD_cons_zero, he, hresv, hread]
  rfl

theorem safePulseBody_set {c : Ctx} {w : Word} {n : Fin 8} {e : SoEntry} {s : State} (hn : bits w 2 0 = n.val) (hresv : resv w 31 24 = true)
    (he : s.soAt n = some e) (hset : bit w 3 = true) (hmin : 50 ≤ bits w 13 4) (hmax : bits w 13 4 ≤ e.widthMax)
    (hpmin : 1 ≤ bits w 23 14) (hpmax : bits w 23 14 ≤ e.periodMax) (hfits : s.widthFits n (bits w 13 4) = true) :
    let t := s.modSo n fun o => o.setPulse s.lcN (bits w 13 4) (bits w 23 14)
    safePulseBody c [w] s = .done stOk (pulseReply n t) t := by
  obtain rfl : n = ⟨bits w 2 0, Nat.mod_lt _ (by decide)⟩ := Fin.ext hn.symm
  simp only [safePulseBody, pw, List.getD_cons_zero, he, hresv, hset, Bool.not_true, Bool.false_eq_true, if_false]
  refine if_neg ?_
  simp only [hfits, Bool.not_true, Bool.or_false, Bool.or_eq_true, decide_eq_true_eq]
  omega

theorem safeResetBody_ok {c : Ctx} {w : Word} {s : State} (hresv : resv w 31 17 = true)
    (hfault : bit w 16 = true → s.readbackClearable = true) :
    let rel := w.extractLsb' 0 16 &&& latchedBits s.owl &&& ~~~stuckBits s.lcN s.owl
    let u := (if bit w 16 then clearReadback s else s).modOwl (Owl.release rel)
    let v := (resetOutputs (u.modOwl fun o => { o with demand := demandBits s.lcN o })).modOwl fun o => { o with demand := s.owl.demand }
    safeResetBody c [w] s = .done stOk [w32 (fld 0 16 rel.toNat + fld 16 16 (latchedBits v.owl).toNat)]
      (raise v 0x0602 [w32 (fld 0 16 rel.toNat + flag 16 (bit w 16)), w32 ((c.session.map fun i => i.val + 1).getD 0)]) :=
  (if_neg (by simp [pw, hresv])).trans (if_neg (by simpa [pw] using hfault))

/-- Settles O55, from the bodies of the safety commands and the effect of a commission. -/
theorem safetyCommands : Obligations.SafetyCommands := by
  unfold Obligations.SafetyCommands
  refine ⟨fun p s s1 c h hacc hlen hresv halign hmin hmax hend hlim => ?param, ?commission,
    fun s => ⟨⟨(commissionApply_block s).1, commissionApply_withdrawn_on s⟩, (commissionApply_block s).2, fun w => commissionApply_cleared w s⟩,
    fun p s s1 c h hp hacc => ?status, fun p s s1 c w n e h hp hn hresv he => ?pulse, ?release⟩
  case param =>
    have hbody := safeParamBody_ok (s := s1) c hresv halign hmin hmax hend
    exact serve_unbroken safeParamSpec p s s1 c _ _ h hacc rfl (beq_iff_eq.mpr hlen) hbody hlim
  case commission =>
    intro p s s1 c w scv k i h hp hacc hslot hresv hcomm hmode hlim hobj hfree d x told
    have hrecorded : (bit w 0 = true → scv = 0) → commissionCheck (bit w 0) scv s1 = (0, stOk) → exec (.safeCommission p) s = told :=
      fun hzero hcheck => serve_done safeCommissionSpec p s s1 c stSecondParty _ _ h hacc rfl (by rw [hp]; rfl) (by
        rw [hp]
        exact (safeCommissionBody_proposed hresv hzero hcheck hlim).trans (propose_recorded _ _ _ _ hslot hfree hobj)) rfl
    refine ⟨fun hw hscv => hrecorded (fun _ => hscv) (by rw [hw]; exact commissionCheck_withdraw hcomm hmode),
      fun b hw hblock hscv hmatch hactive hdigest hcover => hrecorded (fun h => absurd h (Bool.eq_false_iff.mp hw)) ?_⟩
    rw [hw, hscv]
    exact commissionCheck_staged hcover hdigest hactive hmatch hblock hcomm hmode
  case status =>
    exact serve_unbroken safeStatusSpec p s s1 c _ _ h hacc rfl (by rw [hp]; rfl) (by rw [hp]; rfl) s1.breaksLimits_self
  case pulse =>
    refine ⟨fun hread hacc => ?_, fun hset hacc hmin hmax hpmin hpmax hfits => ?_⟩
    · have hbody := safePulseBody_read (c := c) hn hresv he hread
      exact serve_unbroken safePulseSpec p s s1 c _ _ h (by simpa [safePulseSpec, hp, pw, hread] using hacc) rfl (by rw [hp]; rfl)
        (by rw [hp]; exact hbody) s1.breaksLimits_self
    · have hbody := safePulseBody_set (c := c) hn hresv he hset hmin hmax hpmin hpmax hfits
      intro t hlim
      exact serve_unbroken safePulseSpec p s s1 c _ t h (by simpa [safePulseSpec, hp, pw, hset] using hacc) rfl (by rw [hp]; rfl)
        (by rw [hp]; exact hbody) hlim
  case release =>
    intro p s s1 c w h hp hacc hmode hresv hfault rel u r v t hlim
    exact serve_unbroken safeResetSpec p s s1 c _ _ h hacc (if_pos (by simpa using hmode)) (by rw [hp]; rfl)
      (by rw [hp]; exact safeResetBody_ok hresv hfault) hlim

end Sys2Proof.Machine


namespace Sys2Proof.Machine

/-! ## What the entry to Safe-Core leaves of Owl: all of it, but for the outputs that a yield turns off -/

theorem owl_of_quiet {s t : State} (h : t.quiet = s.quiet) : t.owl = s.owl := (congrArg State.owl h :)
theorem owl_of_coded {s t : State} (h : t.coded = s.coded) : t.owl = s.owl := (congrArg State.owl h :)
theorem owl_of_still {s t : State} (h : t.still = s.still) : t.owl = s.owl := (congrArg State.owl h :)
theorem owl_of_sent {s t : State} (h : t.sent = s.sent) : t.owl = s.owl := (congrArg State.owl h :)
theorem owl_of_unreduced {s t : State} (h : t.unreduced = s.unreduced) : t.owl = s.owl := (congrArg State.owl h :)
theorem owl_of_undriven {s t : State} (h : t.undriven = s.undriven) : t.owl = s.owl := (congrArg State.owl h :)

@[simp] theorem forEach_owl {α : Type} (l : List α) (f : State → α → State) (h : ∀ s a, (f s a).owl = s.owl) (s : State) :
    (forEach l f s).owl = s.owl := forEach_keeps State.owl f h l s

@[simp] theorem answerLater_owl (code : Nat) (r : ReplyTo) (status : Nat) (words : List Word) (s : State) :
    (answerLater code r status words s).owl = s.owl := owl_of_sent (answerLater_sent code r status words s)

@[simp] theorem withdrawSwap_owl (cause : Nat) (s : State) : (withdrawSwap cause s).owl = s.owl := by
  unfold withdrawSwap
  split <;> simp

/-! Injections and calibrations. -/

@[simp] theorem releaseCal_owl (c : Chan) (s : State) : (releaseCal c s).owl = s.owl := by
  refine forEach_owl _ _ (fun u d => ?_) s
  unfold releaseGroup
  split
  · rfl
  · dsimp only
    split
    · rfl
    · exact forEach_owl _ _ (fun v e => State.modChan_owl v e _) u

@[simp] theorem dropInject_owl (c : Chan) (status : Nat) (s : State) : (dropInject c status s).owl = s.owl := by
  unfold dropInject
  split
  · rfl
  · dsimp only
    unfold finishInject
    split <;> simp [State.drawWord]

@[simp] theorem answerEarly_owl (c : Chan) (p : CalPoint) (s : State) : (answerEarly c p s).owl = s.owl := by
  unfold answerEarly
  split
  · rfl
  · exact (answerLater_owl _ _ _ _ _).trans (forEach_owl _ _ (fun u d => State.modChan_owl u d _) s)

@[simp] theorem endCalNoted_owl (c : Chan) (cause : Nat) (s : State) : (endCalNoted c cause s).owl = s.owl := by
  unfold endCalNoted endCal
  split
  · rfl
  · rw [raise_owl]
    dsimp only
    split
    · rfl
    · split <;> simp [State.modCal]

@[simp] theorem endWindow_owl (kind : AccKind) (i : Nat) (part : Bool) (s : State) : (endWindow kind i part s).owl = s.owl :=
  owl_of_unreduced (endWindow_unreduced kind i part s)

@[simp] theorem endShedWork_owl (k : SettId) (s : State) : (endShedWork k s).owl = s.owl := by
  simp [endShedWork, endRawWindow, endSettWindows]

@[simp] theorem endShedPrjs_owl (s : State) : (endShedPrjs s).owl = s.owl := by
  refine forEach_owl _ _ (fun u p => ?_) s
  split <;> simp

/-! Lanes. -/

@[simp] theorem abortScan_owl (p : Port) (s : State) : (abortScan p s).owl = s.owl := by
  unfold abortScan
  split
  · rfl
  · exact answerLater_owl _ _ _ _ _

@[simp] theorem laneStop_owl (p : Port) (s : State) : (laneStop p s).owl = s.owl := abortScan_owl p s

@[simp] theorem retrain_owl (p : Port) (s : State) : (retrain p s).owl = s.owl := by
  have hdown : (linkDown p (abortScan p s)).owl = s.owl := abortScan_owl p s
  unfold retrain
  split
  · exact hdown
  · exact (raise_owl _ _ _).trans hdown

@[simp] theorem lanesLeaveTest_owl (s : State) : (lanesLeaveTest s).owl = s.owl := by
  refine forEach_owl _ _ (fun u p => ?_) s
  dsimp only
  split
  · exact retrain_owl p _
  · rfl

@[simp] theorem trimPlls_owl (s : State) : (trimPlls s).owl = s.owl := rfl

@[simp] theorem lanesEnterSafe_owl (s : State) : (lanesEnterSafe s).owl = s.owl := by
  rw [lanesEnterSafe, trimPlls_owl]
  refine forEach_owl _ _ (fun u p => ?_) s
  dsimp only
  split
  · exact abortScan_owl p u
  · exact (laneStop_owl p _).trans (abortScan_owl p u)

@[simp] theorem endTest_owl (s : State) : (endTest s).owl = s.owl := by
  unfold endTest
  split
  · exact (owl_of_quiet (closeTaps_quiet _)).trans (lanesLeaveTest_owl s)
  · rfl

/-! Coders and setts. -/

@[simp] theorem shedStaging_owl (k : SettId) (s : State) : (shedStaging k s).owl = s.owl := by
  unfold shedStaging
  rw [owl_of_quiet (pushAll_quiet _ _ _), State.modChain_owl, owl_of_coded (endRefusal_coded _ _)]
  exact forEach_owl _ _ (fun u g => owl_of_quiet (noteShed_quiet _ u)) s

@[simp] theorem shedSett_owl (k : SettId) (s : State) : (shedSett k s).owl = s.owl :=
  (State.modSett_owl _ _ _).trans (owl_of_undriven (driverOut_undriven k s))

@[simp] theorem shedAll_owl (causes : BitVec 4) (s : State) : (shedAll causes s).owl = s.owl := by
  have hedges : (drainEdges 4352 (flushTies (2 ^ 64) (withdrawSwap 0 (endTest s)))).owl = s.owl := by
    rw [owl_of_still (drainEdges_still _ _), owl_of_still (flushTies_still _ _), withdrawSwap_owl, endTest_owl]
  have hrecords : ∀ u : State, (endRecords u).owl = u.owl := fun u => owl_of_coded (endRecords_coded u)
  unfold shedAll
  rw [lanesEnterSafe_owl, forEach_owl _ _ (fun u k => shedSett_owl k u), State.modHoard_owl, State.modSup_owl, hrecords,
    forEach_owl _ _ (fun u k => shedStaging_owl k u), raiseMode, raise_owl, endShedPrjs_owl,
    forEach_owl _ _ (fun u k => endShedWork_owl k u), hedges]

@[simp] theorem startYield_owl (req : Option ReplyTo) (s : State) : (startYield req s).owl = (outputsOff s).owl := by
  have hsetts : ∀ (l : List SettId) (b : Nat), (forEach l (fun u k => u.modChain k fun c => { c with startAt := none, stopAt := some b }) s).owl = s.owl :=
    fun l b => forEach_owl l _ (fun u k => State.modChain_owl u k _) s
  unfold startYield
  simp only [outputsOff, State.modOwl_owl, State.modPair_owl, hsetts]

/-- Entry to Safe-Core leaves Owl as it was, or with every output off. -/
theorem enterSafe_owl (cause : Nat) (s : State) : (enterSafe cause s).owl = s.owl ∨ (enterSafe cause s).owl = (outputsOff s).owl := by
  have hentered : ∀ u : State, u.owl = s.owl → (startYield none u).owl = (outputsOff s).owl := by
    intro u hu
    rw [startYield_owl, outputsOff, outputsOff, State.modOwl_owl, State.modOwl_owl, hu]
  unfold enterSafe
  extract_lets s1
  have hs1 : s1.owl = s.owl := by
    dsimp only [s1]
    split
    · rfl
    · split
      · exact (State.modSup_owl _ _).trans (shedAll_owl _ s)
      · rfl
  clear_value s1
  split
  · exact Or.inr (hentered s1 hs1)
  · exact Or.inl hs1

/-- Owl has failed, and every output is off. -/
def Owl.Dead (o : Owl) : Prop := o.fail = true ∧ ∀ n : Fin 8, (o.sos[n]).on = false

/-- A failed Owl stays failed with every output off through the fault it causes (R491). -/
theorem chipFault_owl_dead {code : Byte} {s : State} (h : s.owl.Dead) : (chipFault code s).owl.Dead := by
  have hoff : (outputsOff s).owl.Dead := ⟨h.1, outputsOff_on s⟩
  unfold chipFault
  split
  · exact hoff
  · obtain hs | hs := enterSafe_owl 2 s
    · exact hs ▸ h
    · exact hs ▸ hoff

theorem owlFailure_owl_dead (s : State) : (owlFailure s).owl.Dead := by
  refine chipFault_owl_dead ?_
  rw [raiseTrip, raise_owl]
  exact ⟨rfl, outputsOff_on s⟩

end Sys2Proof.Machine


namespace Sys2Proof.Machine

/-! ## The rows of Owl -/

/-- A change of an entry shows in the vector only what it makes of that entry. -/
theorem vmod_congr {α : Type} {n : Nat} {v : Vector α n} {i : Fin n} {f g : α → α} (h : f v[i] = g v[i]) : vmod v i f = vmod v i g :=
  congrArg (fun x => v.set i x) h

theorem State.modSi_congr {s : State} {i : Fin 4} {f g : Si → Si} (h : f s.owl.sis[i] = g s.owl.sis[i]) : s.modSi i f = s.modSi i g :=
  congrArg (fun v => s.modOwl fun o => { o with sis := v }) (vmod_congr h)

/-! The cycle and its watchdog (R470, R490). -/

/-- What a cycle starts from: its instant, its count and the toggle (R470, R490). -/
def cycleBegun (s : State) : State :=
  let s1 := atLc (s.owl.cycleAt + 50000) s
  s1.modOwl fun o => { o with cycleAt := s1.lcN, cycles := o.cycles + 1, alive := !o.alive }

theorem owlRuns {s : State} (hserved : s.served = true) (hrun : s.owl.running = true) (hok : s.owl.fail = false) :
    (s.served && s.owl.running && !s.owl.fail) = true := by simp [hserved, hrun, hok]

theorem execOwlCycle_failed {si : BitVec 4} {sofb : Byte} {s : State} (h : (s.served && s.owl.running && !s.owl.fail) = true) :
    execOwlCycle si sofb false s = .next (owlFailure (cycleBegun s)) :=
  (guardNext_pos h).trans (congrArg Host.Outcome.next (if_pos rfl))

theorem execOwlCycle_idle {si : BitVec 4} {sofb : Byte} {s : State} (h : (s.served && s.owl.running && !s.owl.fail) = true)
    (hnone : (cycleBegun s).owl.block = none) : execOwlCycle si sofb true s = .next (commandOutputs (cycleBegun s)) := by
  refine (guardNext_pos h).trans (congrArg Host.Outcome.next ((if_neg Bool.false_ne_true).trans ?_))
  split
  · rfl
  · next b hb => exact nomatch hnone.symm.trans hb

theorem execOwlCycle_block {si : BitVec 4} {sofb : Byte} {b : Block} {s : State}
    (h : (s.served && s.owl.running && !s.owl.fail) = true) (hb : (cycleBegun s).owl.block = some b) :
    execOwlCycle si sofb true s = .next (commandOutputs (judgeReady b (forEach b.monitors evalMon
      (forEach (List.finRange 2) (judgePair b) (forEach b.outputs (readSo sofb) (forEach b.inputs (readSi b si) (cycleBegun s))))))) := by
  refine (guardNext_pos h).trans (congrArg Host.Outcome.next ((if_neg Bool.false_ne_true).trans ?_))
  split
  · next hnone => exact nomatch hb.symm.trans hnone
  · next c hc =>
    obtain rfl := Option.some.inj (hb.symm.trans hc)
    rfl

/-! Monitors (R472 to R475). -/

theorem execMonitorInvalidTrip_trips {i : Fin 16} {m : MonEntry} {s : State} (htrip : (s.owl.mons[i]).tripped = false)
    (hrun : m.invTol < (s.owl.mons[i]).invalidRun) (hm : s.monAt i = some m) :
    execMonitorInvalidTrip i s = .next (commandOutputs (tripMon i m 1 s)) := by
  simp only [execMonitorInvalidTrip, hm]
  refine congrArg Host.Outcome.next (if_neg ?_)
  rw [htrip, Bool.false_or, decide_eq_true_eq]
  exact Nat.not_le.mpr hrun

theorem execMonitorPlausTrip_trips {i : Fin 16} {m : MonEntry} {s : State} (htrip : (s.owl.mons[i]).tripped = false)
    (hrun : m.plausCyc ≤ (s.owl.mons[i]).plausRun ∨ 20000 ≤ (s.owl.mons[i]).chkInvalid) (hcheck : m.check.isSome = true)
    (hm : s.monAt i = some m) : execMonitorPlausTrip i s = .next (commandOutputs (tripMon i m 2 s)) := by
  simp only [execMonitorPlausTrip, hm]
  refine congrArg Host.Outcome.next (if_pos ?_)
  rw [htrip, hcheck]
  simpa using hrun

theorem tripMon_mons (i : Fin 16) (m : MonEntry) (cause : Nat) (s : State) :
    (tripMon i m cause s).owl.mons = vmod s.owl.mons i fun x => { x with tripped := true, held := m.demandMask } := by
  rw [tripMon, raiseTrip, raise_owl]
  rfl

theorem tripMon_effect (i : Fin 16) (m : MonEntry) (cause : Nat) (s : State) :
    ((tripMon i m cause s).owl.mons[i]).tripped = true ∧ ((tripMon i m cause s).owl.mons[i]).held = m.demandMask ∧
    ∀ j : Fin 16, j ≠ i → (tripMon i m cause s).owl.mons[j] = s.owl.mons[j] := by
  refine ⟨?_, ?_, fun j hj => ?_⟩
  · simp [tripMon_mons]
  · simp [tripMon_mons]
  · have hval : j.val ≠ i.val := fun h => hj (Fin.ext h)
    simp [tripMon_mons, hval.symm]

/-! Safety inputs (R476, R477). -/

section
variable {i : Fin 4} {b : Block} {e : SiEntry} {s : State} (hblock : s.owl.block = some b)
  (hinput : (b.inputs.find? fun x => x.1 == i) = some (i, e))
include hblock hinput

theorem execSiFilterChange_waits (hrun : (s.owl.sis[i]).run < e.filterCyc) : execSiFilterChange i s = .next s := by
  simp only [execSiFilterChange, hblock, hinput]
  exact congrArg Host.Outcome.next (if_pos hrun)

theorem execSiFilterChange_low (hrun : e.filterCyc ≤ (s.owl.sis[i]).run) (hhigh : (s.owl.sis[i]).filtered = true) :
    execSiFilterChange i s = .next (commandOutputs (raiseTrip 1 i.val 0 (b.siMask i.val) 0
      (forEach (List.finRange 2) (judgePair b) (s.modSi i fun y =>
        { y with filtered := false, run := 0, held := if e.latch then b.siMask i.val else y.held })))) := by
  have hstep : (s.modSi i fun y => { y with
      filtered := !y.filtered, run := 0, held := if (s.owl.sis[i]).filtered && e.latch then b.siMask i.val else y.held }) =
      s.modSi i fun y => { y with filtered := false, run := 0, held := if e.latch then b.siMask i.val else y.held } :=
    State.modSi_congr (by rw [hhigh]; rfl)
  simp only [execSiFilterChange, hblock, hinput]
  rw [if_neg (Nat.not_lt.mpr hrun), hstep, if_pos hhigh]

theorem execSiFilterChange_high (hrun : e.filterCyc ≤ (s.owl.sis[i]).run) (hlow : (s.owl.sis[i]).filtered = false) :
    execSiFilterChange i s = .next (commandOutputs (forEach (List.finRange 2) (judgePair b)
        (s.modSi i fun y => { y with filtered := true, run := 0 }))) := by
  have hstep : (s.modSi i fun y => { y with
      filtered := !y.filtered, run := 0, held := if (s.owl.sis[i]).filtered && e.latch then b.siMask i.val else y.held }) =
      s.modSi i fun y => { y with filtered := true, run := 0 } :=
    State.modSi_congr (by rw [hlow]; rfl)
  simp only [execSiFilterChange, hblock, hinput]
  rw [if_neg (Nat.not_lt.mpr hrun), hstep, if_neg (Bool.eq_false_iff.mp hlow)]

end

theorem execSiDisc_latches {d : Fin 2} {b : Block} {i j : Fin 4} {a : Nat} {s : State} (hsince : s.owl.discSince[d] = some a)
    (hopen : s.owl.siDisc.getLsbD d.val = false) (hblock : s.owl.block = some b) (hpair : b.pairOf d = some (i, j)) :
    execSiDisc d s = .next (commandOutputs (raiseTrip 2 d.val 0 (b.siMask i.val) 0 ((atLc (a + b.discMs * 1000000) s).modOwl fun o =>
      { o with siDisc := o.siDisc ||| BitVec.ofNat 2 (2 ^ d.val), discHeld := vset o.discHeld d (b.siMask i.val) }))) := by
  simp only [execSiDisc, hblock, hpair, hsince]
  exact congrArg Host.Outcome.next (if_neg (Bool.eq_false_iff.mp hopen))

/-! Outputs and off-pulses (R480 to R482). -/

section
variable {n : Fin 8} {e : SoEntry} {s : State} (hserved : s.served = true) (hrun : s.owl.running = true) (he : s.soAt n = some e)
include hserved hrun he

theorem outputUsed : (s.served && s.owl.running && (s.soAt n).isSome) = true := by simp [hserved, hrun, he]

theorem execSoReadbackFailure_fails (hfault : s.owl.soFault = false) : execSoReadbackFailure n s = .next
    (enterSafe 3 (raiseTrip 4 n.val 0 0 0 ((outputsOff s).modOwl fun o => { o with soFault := true, pulseFail := satInc o.pulseFail }))) :=
  guardNext_pos (by rw [outputUsed hserved hrun he, hfault]; rfl)

theorem execOffPulseStart_starts (hidle : ∀ m : Fin 8, (s.owl.sos[m]).idle s.lcN = true ∧ (m < n → s.pulseFits m = false))
    (hfits : s.pulseFits n = true) : execOffPulseStart n s = .next (s.modSo n fun o =>
      { o with pulse := some s.lcN, due := false, pulseTaken := false, pulseWidth := o.dueWidth }) := by
  have hfree : ((List.finRange 8).all fun m => (s.owl.sos[m]).idle s.lcN && (decide (n ≤ m) || !s.pulseFits m)) = true := by
    refine List.all_eq_true.mpr fun m _ => ?_
    obtain ⟨hm, hbefore⟩ := hidle m
    rw [hm, Bool.true_and]
    by_cases hle : n ≤ m
    · simp [hle]
    · simp [hbefore (Fin.not_le.mp hle)]
  exact guardNext_pos (by rw [outputUsed hserved hrun he, hfree, hfits]; rfl)

end

/-- What the end of an off-pulse leaves of the output (R481, R482, R504). -/
def So.pulseEnded (z : Nat) (fall rise : Byte) (o : So) : So :=
  { o with pulse := none, tFall := fall, tRise := if o.pulseTaken then o.tRise else rise
           readUntil := if o.pulseTaken then o.readUntil else z + 100 * rise.toNat }

theorem execOffPulseEnd_ends {n : Fin 8} {a : Nat} {fall rise : Byte} {s : State} (h : (s.owl.sos[n]).pulse = some a) :
    execOffPulseEnd n fall rise s = .next
      (let z := a + 1000 * (s.owl.sos[n]).pulseWidth.toNat
       let u := (atLc z s).modSo n (So.pulseEnded z fall rise)
       match u.soAt n with
       | some e => commandOutput u (n, e)
       | none => u) := by
  have hended : ∀ z : Nat, (fun o : So => if o.pulseTaken then { o with pulse := none, tFall := fall }
      else { o with pulse := none, tFall := fall, tRise := rise, readUntil := z + 100 * rise.toNat }) = So.pulseEnded z fall rise := by
    intro z
    funext o
    unfold So.pulseEnded
    cases o.pulseTaken <;> rfl
  simp only [execOffPulseEnd, h, hended] <;> rfl

/-! Safety connections (R485 to R487). -/

section
variable {i : Fin 8} {b : Block} {e : ConnEntry} {s : State} (hconn : s.connAt i = some (b, e))
include hconn

theorem execSafetyDataTx_sends (hsend : e.send = true) : execSafetyDataTx i s = .next
    (let s1 := atLc ((s.owl.conns[i]).sentAt + 100000) s
     sendSafety i b e (s1.modConn i fun c => { c with sentAt := s1.lcN, extraSent := false })) := by
  simp only [execSafetyDataTx, hconn]
  exact congrArg Host.Outcome.next (if_neg (by rw [hsend]; decide))

theorem execSafetyDataExtraTx_sends (hextra : (s.owl.conns[i]).extraSent = false)
    (hbits : (s.owl.conns[i]).sentBits ≠ s.owl.demand &&& e.sendMask) (hsend : e.send = true) :
    execSafetyDataExtraTx i s = .next (sendSafety i b e (s.modConn i fun c => { c with extraSent := true })) := by
  have hnew : ((s.owl.conns[i]).sentBits == sentBits s e) = false := beq_eq_false_iff_ne.mpr hbits
  simp only [execSafetyDataExtraTx, hconn]
  exact congrArg Host.Outcome.next (if_neg (by rw [hsend, hextra, hnew]; decide))

theorem execSafetyConnLoss_lost (hsynced : (s.owl.conns[i]).synced = true) (hrecv : e.recv = true) :
    execSafetyConnLoss i s = .next (commandOutputs (raiseTrip 3 i.val 0 e.lossMask 0
      ((atLc (s.cycleFrom ((s.owl.conns[i]).acceptAt + 300000)) s).modConn i fun c =>
        { c with synced := false, resync := false, lost := true, held := e.lossMask }))) := by
  simp only [execSafetyConnLoss, hconn]
  exact congrArg Host.Outcome.next ((if_neg (by rw [hrecv, hsynced, Bool.true_or]; decide)).trans (if_neg (by rw [hsynced]; decide)))

theorem execSafetyConnLoss_unsynced (hsynced : (s.owl.conns[i]).synced = false) (hresync : (s.owl.conns[i]).resync = true)
    (hrecv : e.recv = true) : execSafetyConnLoss i s = .next
      ((atLc (s.cycleFrom ((s.owl.conns[i]).acceptAt + 300000)) s).modConn i fun c => { c with resync := false }) := by
  simp only [execSafetyConnLoss, hconn]
  exact congrArg Host.Outcome.next ((if_neg (by rw [hrecv, hsynced, hresync]; decide)).trans (if_pos (by rw [hsynced]; rfl)))

/-- A frame goes to the first connection with RECV for its sender (R485). -/
theorem execSafetyDataRx_taken {w0 w1 w2 w3 : Word} (hrecv : e.recv = true) (hpartner : e.partner = w2.extractLsb' 0 10)
    (hfirst : ∀ j b' e', j < i → s.connAt j = some (b', e') → e'.recv = true → e'.partner ≠ w2.extractLsb' 0 10) :
    execSafetyDataRx w0 w1 w2 w3 s = .next (takeSafety i b e w0 w1 w2 w3 s) := by
  unfold execSafetyDataRx
  rw [find?_finRange_of_least (i := i)]
  · simp only [hconn]
  · simp [hconn, hrecv, hpartner]
  · intro j hj
    refine Fin.not_lt.mp fun hlt => ?_
    split at hj
    · next b' e' hc =>
      obtain ⟨hr, hp⟩ := Bool.and_eq_true_iff.mp hj
      exact hfirst j b' e' hlt hc hr (beq_iff_eq.mp hp)
    · cases hj

end

/-- The bytes of a SAFETY_DATA frame are good: the block's ID, and the CRC (R485, R486). -/
def goodSafety (b : Block) (w0 w1 w2 w3 : Word) : Bool := w0 == b.safetyId && w3 == crcIeee (bytesOfWords [w0, w1, w2])

theorem goodSafety_iff {b : Block} {w0 w1 w2 w3 : Word} :
    goodSafety b w0 w1 w2 w3 = true ↔ w0 = b.safetyId ∧ w3 = crcIeee (bytesOfWords [w0, w1, w2]) := by
  simp [goodSafety]

section
variable {i : Fin 8} {b : Block} {e : ConnEntry} {w0 w1 w2 w3 : Word} {s : State}

theorem takeSafety_accepts (hlive : (s.owl.conns[i]).synced = true ∨ (s.owl.conns[i]).resync = true)
    (hahead : 1 ≤ (w1.extractLsb' 0 16 - (s.owl.conns[i]).lastSeq).toNat ∧ (w1.extractLsb' 0 16 - (s.owl.conns[i]).lastSeq).toNat ≤ 3)
    (hgood : goodSafety b w0 w1 w2 w3 = true) : takeSafety i b e w0 w1 w2 w3 s =
      missFrames ((w1.extractLsb' 0 16 - (s.owl.conns[i]).lastSeq).toNat - 1) (s.modConn i fun c =>
        { c with synced := true, resync := false, lost := false, lastSeq := w1.extractLsb' 0 16, acceptAt := s.lcN
                 demand := w1.extractLsb' 16 16 &&& e.acceptMask, okSince := if c.synced then c.okSince else s.lcN }) := by
  refine if_pos ?_
  simp only [Bool.and_eq_true, decide_eq_true_eq, Bool.or_eq_true]
  exact ⟨⟨⟨Bool.and_eq_true_iff.mp hgood, hlive⟩, hahead.1⟩, hahead.2⟩

theorem takeSafety_resyncs (hsynced : (s.owl.conns[i]).synced = false) (hresync : (s.owl.conns[i]).resync = false)
    (hgood : goodSafety b w0 w1 w2 w3 = true) : takeSafety i b e w0 w1 w2 w3 s =
      s.modConn i fun c => { c with resync := true, lastSeq := w1.extractLsb' 0 16, acceptAt := s.lcN } := by
  unfold takeSafety
  simp only [hsynced, hresync]
  refine (if_neg (by simp)).trans (if_pos ?_)
  simpa using goodSafety_iff.mp hgood

theorem takeSafety_outOfStep (hlive : (s.owl.conns[i]).synced = true ∨ (s.owl.conns[i]).resync = true)
    (hahead : ¬ (1 ≤ (w1.extractLsb' 0 16 - (s.owl.conns[i]).lastSeq).toNat ∧ (w1.extractLsb' 0 16 - (s.owl.conns[i]).lastSeq).toNat ≤ 3)) :
    takeSafety i b e w0 w1 w2 w3 s = missFrames 1 s := by
  refine (if_neg fun h => ?_).trans (if_neg fun h => ?_)
  · simp only [Bool.and_eq_true, decide_eq_true_eq] at h
    exact hahead ⟨h.1.2, h.2⟩
  · simp only [Bool.and_eq_true, Bool.not_eq_true'] at h
    obtain hs | hr := hlive
    · rw [hs] at h; exact Bool.noConfusion h.1.2
    · rw [hr] at h; exact Bool.noConfusion h.2

theorem takeSafety_bad (hbad : ¬ goodSafety b w0 w1 w2 w3 = true) : takeSafety i b e w0 w1 w2 w3 s = missFrames 1 s := by
  refine (if_neg fun h => ?_).trans (if_neg fun h => ?_)
  · exact hbad (Bool.and_eq_true_iff.mp (Bool.and_eq_true_iff.mp (Bool.and_eq_true_iff.mp h).1).1).1
  · exact hbad (Bool.and_eq_true_iff.mp (Bool.and_eq_true_iff.mp h).1).1

end

/-- Settles O56, from the row lemmas of Owl's cycle, inputs, outputs and connections. -/
theorem owlRows : Obligations.OwlRows := by
  unfold Obligations.OwlRows
  refine ⟨fun si sofb s hserved hrun hok => ⟨execOwlCycle_failed (owlRuns hserved hrun hok), guardNext_pos (owlRuns hserved hrun hok),
      execOwlCycle_idle (owlRuns hserved hrun hok), fun b => execOwlCycle_block (owlRuns hserved hrun hok)⟩,
    owlFailure_owl_dead,
    fun i m s hm htrip => ⟨fun hrun => execMonitorInvalidTrip_trips htrip hrun hm,
      fun hcheck hrun => execMonitorPlausTrip_trips htrip hrun hcheck hm⟩,
    tripMon_effect,
    fun i b e s hblock hinput => ⟨execSiFilterChange_waits hblock hinput, execSiFilterChange_low hblock hinput, execSiFilterChange_high hblock hinput⟩,
    fun d b i j a s hblock hpair hsince hopen => execSiDisc_latches hsince hopen hblock hpair,
    fun n e s hserved hrun he => ⟨execSoReadbackFailure_fails hserved hrun he, guardNext_pos (outputUsed hserved hrun he),
      fun hfits hidle => execOffPulseStart_starts hserved hrun he hidle hfits⟩,
    fun n a fall rise s h => execOffPulseEnd_ends h,
    fun i b e s hconn => ⟨execSafetyDataTx_sends hconn, fun hsend hextra hbits => execSafetyDataExtraTx_sends hconn hextra hbits hsend,
      fun hrecv hsynced => execSafetyConnLoss_lost hconn hsynced hrecv,
      fun hrecv hsynced hresync => execSafetyConnLoss_unsynced hconn hsynced hresync hrecv⟩,
    fun i b e w0 w1 w2 w3 s hconn => execSafetyDataRx_taken hconn,
    fun i b e w0 w1 w2 w3 s => ⟨fun hgood hlive hahead => takeSafety_accepts hlive hahead (goodSafety_iff.mpr hgood),
      fun hgood hsynced hresync => takeSafety_resyncs hsynced hresync (goodSafety_iff.mpr hgood),
      fun _ hlive hahead => takeSafety_outOfStep hlive hahead, fun hbad => takeSafety_bad (mt goodSafety_iff.mp hbad)⟩⟩

end Sys2Proof.Machine


namespace Sys2Proof.Machine

/-! ## Key slots and firmware images -/

/-! Sessions of a slot close (R454, R517). -/

/-- One session closes if it is of the slot. -/
def closeOwned (k : Fin 8) (s : State) (i : Fin 8) : State :=
  match s.cmd.sessions[i] with
  | some x => if x.slot = k then closeSession i s else s
  | none => s

theorem closeSlotSessions_eq (k : Fin 8) (s : State) : closeSlotSessions k s = forEach (List.finRange 8) (closeOwned k) s := rfl

theorem closeOwned_prot (k : Fin 8) (s : State) (i : Fin 8) : (closeOwned k s i).prot = s.prot := by
  unfold closeOwned
  split
  · split <;> rfl
  · rfl

/-- A session that is left was there before, and it is not one of the slot if it has been looked at. -/
theorem closeOwned_left {k i j : Fin 8} {x : Session} {s : State} (h : (closeOwned k s i).cmd.sessions[j] = some x) :
    s.cmd.sessions[j] = some x ∧ (j = i → x.slot ≠ k) := by
  unfold closeOwned at h
  split at h
  · next y hy =>
    split at h
    · by_cases hj : j = i
      · subst hj
        simp [closeSession, State.modCmd, vset] at h
      · have hval : i.val ≠ j.val := fun e => hj (Fin.ext e.symm)
        exact ⟨by simpa [closeSession, State.modCmd, vset, hval] using h, fun e => absurd e hj⟩
    · next hne =>
      refine ⟨h, fun hj => ?_⟩
      subst hj
      obtain rfl := Option.some.inj (hy.symm.trans h)
      exact hne
  · next hnone =>
    refine ⟨h, fun hj => ?_⟩
    subst hj
    exact nomatch hnone.symm.trans h

theorem forEach_closeOwned_left {k j : Fin 8} {x : Session} (l : List (Fin 8)) {s : State}
    (h : (forEach l (closeOwned k) s).cmd.sessions[j] = some x) : s.cmd.sessions[j] = some x ∧ (j ∈ l → x.slot ≠ k) := by
  induction l generalizing s with
  | nil => exact ⟨h, fun hj => nomatch hj⟩
  | cons i l ih =>
    obtain ⟨hstep, hl⟩ := ih h
    obtain ⟨hs, hi⟩ := closeOwned_left hstep
    refine ⟨hs, fun hj => ?_⟩
    obtain rfl | hj := List.mem_cons.mp hj
    · exact hi rfl
    · exact hl hj

theorem closeSlotSessions_left {k i : Fin 8} {x : Session} {s : State} (h : (closeSlotSessions k s).cmd.sessions[i] = some x) :
    x.slot ≠ k := by
  rw [closeSlotSessions_eq] at h
  exact (forEach_closeOwned_left (List.finRange 8) h).2 (List.mem_finRange i)

theorem closeSlotSessions_prot (k : Fin 8) (s : State) : (closeSlotSessions k s).prot = s.prot := by
  rw [closeSlotSessions_eq]
  exact forEach_keeps State.prot _ (closeOwned_prot k) _ s

/-! The withdrawal of proposals leaves the slots and the sessions (R515). -/

theorem endProposal_slots (i : Fin 8) (cause : Nat) (s : State) : (endProposal i cause s).prot.slots = s.prot.slots := by
  unfold endProposal
  split
  · rw [raise_prot]; rfl
  · rfl

theorem endProposal_sessions (i : Fin 8) (cause : Nat) (s : State) : (endProposal i cause s).cmd.sessions = s.cmd.sessions := by
  unfold endProposal
  split
  · exact (congrArg Cmd.sessions (raise_unseen _ 0x0701 _) :)
  · rfl

theorem withdrawProposals_slots (which : Proposal → Bool) (s : State) : (withdrawProposals which s).prot.slots = s.prot.slots := by
  unfold withdrawProposals
  refine forEach_keeps (fun u : State => u.prot.slots) _ (fun u i => ?_) (List.finRange 8) s
  split
  · exact endProposal_slots i 2 u
  · rfl

theorem withdrawProposals_sessions (which : Proposal → Bool) (s : State) : (withdrawProposals which s).cmd.sessions = s.cmd.sessions := by
  unfold withdrawProposals
  refine forEach_keeps (fun u : State => u.cmd.sessions) _ (fun u i => ?_) (List.finRange 8) s
  split
  · exact endProposal_sessions i 2 u
  · rfl

/-! KEY_INSTALL (R509, R517). -/

theorem keyApply_slots (ws : List Word) (s : State) : (keyApply ws s).prot.slots = slotsAfter ws s.prot.slots := by
  unfold keyApply
  rw [withdrawProposals_slots, closeSlotSessions_prot]
  rfl

theorem keyApply_sessions_slot {ws : List Word} {s : State} {i : Fin 8} {x : Session} (h : (keyApply ws s).cmd.sessions[i] = some x) :
    x.slot ≠ keySlot ws := by
  unfold keyApply at h
  simp only [withdrawProposals_sessions] at h
  exact closeSlotSessions_left h

/-- On session 0 the key words are as they came (R509). -/
theorem unwrapKey_session0 {c : Ctx} (ws : List Word) (s : State) (h : c.session = none) : unwrapKey c ws s = ws := by
  unfold unwrapKey
  rw [h]
  exact ite_self ws

theorem keyInstallBody_first {c : Ctx} {ws : List Word} {s : State} (hwords : keyWordsOk ws = true) (hfew : s.keyedCount < 2)
    (hsession : c.session = none) (hcomm : s.owl.commEn = true) (hcheck : keyCheck ws s = stOk) :
    keyInstallBody c ws s = .done stOk (keyReply (keySlot ws) (keyApply ws s)) (keyApply ws s) := by
  unfold keyInstallBody
  rw [unwrapKey_session0 ws s hsession]
  exact (if_neg (by simp [hwords])).trans ((if_neg (Nat.not_le.mpr hfew)).trans
    ((if_neg (by simp [hcomm])).trans (if_neg (by simp [hcheck]))))

theorem keyInstallBody_later {c : Ctx} {ws : List Word} {s : State} (hwords : keyWordsOk ws = true) (hkeyed : 2 ≤ s.keyedCount)
    (hcheck : keyCheck (unwrapKey c ws s) s = stOk) :
    keyInstallBody c ws s = propose c 0 0x0E03 (unwrapKey c ws s) (keyDigest (unwrapKey c ws s) s) s :=
  (if_neg (by simp [hwords])).trans ((if_pos hkeyed).trans (if_neg (by simp [hcheck])))

/-! FW_STAGE, FW_ACTIVATE and the switch (R521 to R523). -/

theorem fwStageBody_ok (c : Ctx) {ws : List Word} {s : State} (hresv : bit (pw ws 0) 31 = false) (halign : bits (pw ws 0) 20 0 % 4 = 0)
    (hmin : 1 ≤ bits (pw ws 0) 28 21) (hmax : bits (pw ws 0) 28 21 ≤ 128) :
    let v := (if bit (pw ws 0) 29 then withdrawProposals isActivation s else s).modProt
      (storeChunk (bit (pw ws 0) 29) (bits (pw ws 0) 20 0 / 4) (ws.drop 1))
    let t := if bit (pw ws 0) 30 && v.prot.stage != .verified then checkStaged v else v
    fwStageBody c ws s = .done stOk (stageReply t) t := by
  refine if_neg ?_
  simp only [hresv, halign, Bool.false_or, bne_self_eq_false, Bool.or_eq_true, decide_eq_true_eq]
  omega

/-- The checks of an image leave what is staged and the key slots; RESULT and the stage say what they found (R522). -/
theorem checkStaged_prot (s : State) :
    let r := fwCheck s.secFloor (stagedWhole s.prot.staged) (stagedImage s.prot.staged)
    (checkStaged s).prot.result = BitVec.ofNat 4 r ∧ (checkStaged s).prot.stage = (if r = 0 then .verified else .rejected) ∧
    (checkStaged s).prot.staged = s.prot.staged ∧ (checkStaged s).prot.slots = s.prot.slots := by
  intro r
  unfold checkStaged
  rw [raise_prot]
  split <;> exact ⟨rfl, rfl, rfl, rfl⟩

theorem fwActivateBody_proposed {c : Ctx} {w : Word} {s : State} (hresv : resv w 31 24 = true)
    (hversion : s.stagedVersion = some (bits w 23 0)) : fwActivateBody c [w] s = propose c 0 0x0E05 [w] (activateDigest s) s := by
  have hcheck : activateCheck [w] s = stOk := if_neg (by simp [pw, hresv, hversion])
  exact if_neg (by simp [hcheck])

/-- Settles O58, from the bodies of the commands and what a key change and the checks of an image leave. -/
theorem keysAndFirmware : Obligations.KeysAndFirmware := by
  unfold Obligations.KeysAndFirmware
  refine ⟨fun p s s1 c h hlen hwords => ⟨fun hfew hsession horigin hcomm hcheck hlim => ?first, fun k i hkeyed hacc hslot hcheck hobj hfree => ?later⟩,
    fun ws s => ?slots,
    fun p s s1 c h hacc hmode hlen hresv halign hmin hmax hlim => ?stage,
    checkStaged_prot,
    fun p s s1 c w k i h hp hacc hslot hmode hresv hversion hobj hfree => ?activate,
    fun s hserved hswitch hidle => guardNext_pos (by simp [hserved, hswitch, hidle])⟩
  case first =>
    exact serve_unbroken keyInstallSpec p s s1 c _ _ h
      ((if_neg (Nat.not_le.mpr hfew)).trans (by rw [hsession, horigin]; rfl)) rfl (beq_iff_eq.mpr hlen)
      (keyInstallBody_first hwords hfew hsession hcomm hcheck) hlim
  case later =>
    exact serve_done keyInstallSpec p s s1 c stSecondParty _ _ h ((if_pos hkeyed).trans hacc) rfl (beq_iff_eq.mpr hlen)
      ((keyInstallBody_later hwords hkeyed hcheck).trans (propose_recorded _ _ _ _ hslot hfree hobj)) rfl
  case slots =>
    rw [keyApply_slots]
    refine ⟨fun ha => ?_, fun ha => ?_, fun ha => ?_, fun j hj => ?_, fun i x => keyApply_sessions_slot⟩
    · simp [slotsAfter, ha]
    · simp [slotsAfter, ha]
    · simp [slotsAfter, ha]
    · have hval : (keySlot ws).val ≠ j.val := fun e => hj (Fin.ext e.symm)
      simp [slotsAfter, hval]
  case stage =>
    exact serve_unbroken fwStageSpec p s s1 c _ _ h hacc (if_pos (by simpa using hmode)) (beq_iff_eq.mpr hlen)
      (fwStageBody_ok c hresv halign hmin hmax) hlim
  case activate =>
    exact serve_done fwActivateSpec p s s1 c stSecondParty _ _ h hacc (if_pos hmode) (by rw [hp]; rfl)
      (by rw [hp]; exact (fwActivateBody_proposed hresv hversion).trans (propose_recorded _ _ _ _ hslot hfree hobj)) rfl

end Sys2Proof.Machine


namespace Sys2Proof.Machine

/-! ## Heartbeat, loss and standby sync -/

theorem powered_of {s : State} (h : s.sup.mode ≠ .off) : s.powered = true := bne_iff_ne.mpr h

theorem execHeartbeatTx_sends {s : State} (h : s.served = true) : execHeartbeatTx s = .next
    (let s1 := atAon (s.pair.hbSentAt + 32000) s
     { s1 with pair := { s1.pair with hbSentAt := s1.time.aonNs
                                      hbSent := hbFrame s1.hbState s1.sup.mode.code (if s.pair.owns then bits s.pair.term 7 0 else 0) } }) := by
  refine (guardNext_pos h).trans (congrArg Host.Outcome.next ?_)
  simp only [State.modPair, atAon_pair]

/-- A takeover leaves Hibernate with the reset cause and no rail, in step 0x9 (R30, R77, R92, R544). -/
theorem startTakeover_eq (s : State) : startTakeover s = { s with
    sup := { s.sup with
      mode := .startup, startCount := satInc s.sup.startCount, resetCauses := 0x40, railId := 0
      resetEntry := if s.sup.lastSysReset.isSome && s.sup.resetEntry.isNone then some s.time.aonNs else s.sup.resetEntry }
    boot := { Startup.reset with releaseAt := s.time.aonNs, takeover := true, recovery := true, takeStep := 9 } } := by
  unfold startTakeover enterStartup
  simp only [followReset_eq]
  rfl

/-! The loss of the heartbeat (R533, R535). -/

/-- The state in which a lost heartbeat is judged. -/
def heartbeatGone (s : State) : State := (atAon (s.pair.hbAt + s.pair.lossNs) s).modPair fun p => { p with hbHeard := false }

/-- What the loss of the heartbeat brings about (R533, R535). -/
def heartbeatLost (s : State) : State :=
  if (heartbeatGone s).takesOver then startTakeover (heartbeatGone s)
  else if (heartbeatGone s).pair.owns && s.pair.hbHeard then partnerSilent (heartbeatGone s)
  else heartbeatGone s

theorem execHeartbeatLoss_eq {s : State} (hon : s.sup.mode ≠ .off) (hheard : s.pair.hbHeard = true ∨ s.pair.armed = true) :
    execHeartbeatLoss s = .next (heartbeatLost s) :=
  guardNext_pos (by rw [powered_of hon]; simpa using hheard)

theorem heartbeatLost_takeover {s : State} (h : (heartbeatGone s).takesOver = true) : heartbeatLost s = startTakeover (heartbeatGone s) :=
  if_pos h

theorem heartbeatLost_silent {s : State} (h : (heartbeatGone s).takesOver = false) (howns : (heartbeatGone s).pair.owns = true)
    (hheard : s.pair.hbHeard = true) : heartbeatLost s = partnerSilent (heartbeatGone s) :=
  (if_neg (Bool.eq_false_iff.mp h)).trans (if_pos (by rw [howns, hheard]; rfl))

theorem heartbeatLost_noted {s : State} (h : (heartbeatGone s).takesOver = false)
    (hquiet : (heartbeatGone s).pair.owns = false ∨ s.pair.hbHeard = false) : heartbeatLost s = heartbeatGone s := by
  refine (if_neg (Bool.eq_false_iff.mp h)).trans (if_neg ?_)
  obtain h | h := hquiet <;> simp [h]

theorem heartbeatGone_partnerSent (s : State) : (heartbeatGone s).pair.partnerSent = s.pair.partnerSent := by
  change (atAon _ s).pair.partnerSent = _
  rw [atAon_pair]

theorem partnerSilent_ready {s : State} (h : s.pair.partnerSent = 3) :
    partnerSilent s = s.modPair fun p => { p with partner := .ready } := if_pos h

theorem partnerSilent_lost {s : State} (h : s.pair.partnerSent ≠ 3) :
    partnerSilent s = raise (s.modPair fun p => { p with partner := .lost }) 0x0802 [0] := if_neg h

/-! PAIR_OWN low (R529, R533). -/

/-- The line an owning partner drives has gone low. -/
def ownLineLow (s : State) : State := s.modPair fun p => { p with ownLine := false }

theorem execPairOwnLow_eq {s : State} (hon : s.sup.mode ≠ .off) (howns : s.pair.owns = false) :
    execPairOwnLow s = .next (if (ownLineLow s).takesOver then startTakeover (ownLineLow s) else resumeClaim (ownLineLow s)) :=
  guardNext_pos (by rw [powered_of hon, howns]; rfl)

theorem resumeClaim_none {s : State} (h : s.boot.claimWait = none) : resumeClaim s = s := by
  simp only [resumeClaim, h]

theorem resumeClaim_some {a b : List Byte} {s : State} (hline : s.pair.ownLine = false) (h : s.boot.claimWait = some (a, b)) :
    resumeClaim s = loadConfig a b (claimAtBoot (s.modBoot fun x => { x with claimWait := none })) := by
  simp only [resumeClaim, h]
  exact if_neg (Bool.eq_false_iff.mp hline)

/-! The judgement of a standby sync (R536, R537). -/

/-- The unit runs the firmware and the configuration of the owner and the leader (R536). -/
def SameAs (v : BitVec 24) (l : Member) (s : State) : Prop :=
  s.prot.fwVersion = v ∧ l.fabGen = s.fabGen ∧ l.digest = s.fabDigest

section
variable {v : BitVec 24} {l : Member} {s : State} (hran : s.syncRan = true) (hnext : s.pair.coldNext = none)
  (hfit : s.pair.unfit = false) (hlead : s.fabricLeader = some l)
include hran hnext hfit hlead

theorem execStandbySyncDone_unfit (h : ¬ SameAs v l s) : execStandbySyncDone v s = .next (beUnfit l s) := by
  have hother : (s.prot.fwVersion != v || l.fabGen != s.fabGen || l.digest != s.fabDigest) = true := by
    simpa [SameAs, bne_iff_ne, imp_iff_not_or, or_assoc] using h
  simp only [execStandbySyncDone, hlead]
  refine congrArg Host.Outcome.next ((if_neg ?_).trans (if_pos hother))
  rw [hran, hnext, hfit]
  decide

theorem execStandbySyncDone_same (h : SameAs v l s) : execStandbySyncDone v s =
    .next (if s.lanesUp && (s.time.tq == 3 || s.pair.tqGaveUp) then storeRetained s else s) := by
  have hother : ¬ (s.prot.fwVersion != v || l.fabGen != s.fabGen || l.digest != s.fabDigest) = true := by
    obtain ⟨hv, hgen, hdigest⟩ := h
    simp [hv, hgen, hdigest]
  simp only [execStandbySyncDone, hlead]
  refine congrArg Host.Outcome.next ((if_neg ?_).trans (if_neg hother))
  rw [hran, hnext, hfit]
  decide

end

/-- Settles O21, from the row lemmas of the heartbeat, its loss, PAIR_OWN and the standby sync. -/
theorem heartbeatAndStandby : Obligations.HeartbeatAndStandby := by
  unfold Obligations.HeartbeatAndStandby
  refine ⟨fun s h => ⟨_, execHeartbeatTx_sends h, rfl⟩,
    fun f s hon => ⟨fun hbad => ?badFrame, fun hgood => guardNext_pos (by rw [powered_of hon, hgood]; rfl)⟩,
    fun s hon hheard => ⟨_, execHeartbeatLoss_eq hon hheard, ?loss⟩,
    startTakeover_eq,
    fun s hon howns => ⟨_, execPairOwnLow_eq hon howns, ?ownLow⟩,
    fun s hserved howns hready => ⟨_, guardNext_pos (by rw [hserved, howns, hready]; rfl), rfl⟩,
    fun s hstandby hreset harmed hstart => guardNext_pos (by rw [hstandby, hreset, harmed, hstart]; rfl),
    fun v l s hran hnext hfit hlead => ⟨execStandbySyncDone_unfit hran hnext hfit hlead, fun hsame hlanes htime => ?retained,
      fun hsame hwaits => ?waits⟩,
    fun s hran hgave htq => ⟨_, guardNext_pos (by rw [hran, hgave, bne_iff_ne.mpr htq]; rfl), rfl⟩,
    fun a s ha => ⟨_, by simp only [exec, execColdNextEnd, ha]; rfl, rfl⟩⟩
  case badFrame => simp only [exec, execHeartbeatRx, guardNext, hbad, Bool.and_false, Bool.false_eq_true, if_false]
  case loss =>
    have hsent := heartbeatGone_partnerSent s
    exact ⟨heartbeatLost_takeover, fun h howns hheard =>
      ⟨fun h3 => (heartbeatLost_silent h howns hheard).trans (partnerSilent_ready (hsent.trans h3)),
        fun h3 => (heartbeatLost_silent h howns hheard).trans (partnerSilent_lost (hsent.trans_ne h3))⟩,
      heartbeatLost_noted⟩
  case ownLow =>
    exact ⟨fun h => if_pos h, fun h hnone => (if_neg (Bool.eq_false_iff.mp h)).trans (resumeClaim_none hnone),
      fun a b h hwait => (if_neg (Bool.eq_false_iff.mp h)).trans (resumeClaim_some rfl hwait)⟩
  case retained =>
    refine (execStandbySyncDone_same hran hnext hfit hlead hsame).trans (congrArg Host.Outcome.next (if_pos ?_))
    rw [hlanes]
    simpa using htime
  case waits =>
    refine (execStandbySyncDone_same hran hnext hfit hlead hsame).trans (congrArg Host.Outcome.next (if_neg ?_))
    obtain h | ⟨htq, hgave⟩ := hwaits
    · simp [h]
    · rw [beq_eq_false_iff_ne.mpr htq, hgave]
      simp

end Sys2Proof.Machine


namespace Sys2Proof.Machine

/-! ## Checkpoints and the yield -/

/-! What asks for a write (R531, R539). -/

theorem askWrite_busy {full : Bool} {s : State} (h : s.pair.writing.isSome = true) :
    askWrite full s = s.modPair fun p => { p with queued := (p.queued.1 || full, p.queued.2 || !full) } := if_pos h

theorem askWrite_delta {s : State} (h : s.pair.writing = none) : askWrite false s = beginWrite false s :=
  if_neg (by rw [h]; decide)

theorem askWrite_full {s : State} (h : s.pair.writing = none) : askWrite true s = beginFull s :=
  if_neg (by rw [h]; decide)

theorem beginFull_placed {s : State} (h : s.displaced = false) : beginFull s = beginWrite true s := if_neg (Bool.eq_false_iff.mp h)

theorem beginFull_displaced {s : State} (h : s.displaced = true) : beginFull s = standDown s := if_pos h

/-! The end of a write (R539, R553). -/

theorem execCheckpointWriteDone_written {c : Checkpoint} {s : State} (h : s.pair.writing = some c) :
    execCheckpointWriteDone true s = .next
      (let s0 := atLc (c.since + c.span) s
       let s1 := { s0 with pair := s.pair.complete c s0.lcN }
       nextWrite c.isFull (if c.isFull then afterFull c.final s1 else s1)) := by
  simp only [execCheckpointWriteDone, h, State.modPair, atLc_pair]
  rfl

theorem execCheckpointWriteDone_failed {c : Checkpoint} {s : State} (h : s.pair.writing = some c) :
    execCheckpointWriteDone false s = .next (nextWrite c.isFull (raise { atLc (c.since + c.span) s with pair := { s.pair with
      writing := none, writeFails := satInc s.pair.writeFails, slots := vset s.pair.slots (s.pair.slotFor c.isFull) [] } } 0x0801 [0])) := by
  simp only [execCheckpointWriteDone, h, failWrite, State.modPair, atLc_pair]
  rfl

/-- Where no request waits for a full checkpoint, nothing is answered (R552). -/
theorem modPair_nowReqs_nil {s : State} (h : s.pair.nowReqs = []) : (s.modPair fun p => { p with nowReqs := [] }) = s := by
  have hpair : ({ s.pair with nowReqs := [] } : Pair) = s.pair := by rw [← h]
  exact congrArg (fun p => { s with pair := p }) hpair

/-- The last checkpoint of a yield is written: YIELDING begins (R549). -/
def yieldSending (s : State) : State := s.modPair fun p => { p with yieldStep := .sending, yieldAt := s.lcN, queued := (false, false) }

theorem afterFull_eq {final : Bool} {s : State} (h : s.pair.nowReqs = []) :
    afterFull final s = if final then answerYield (yieldSending s) else s := by
  unfold afterFull
  rw [modPair_nowReqs_nil h, h]
  rfl

theorem answerYield_none {s : State} (h : s.pair.yieldReq = none) : answerYield s = s := by
  simp only [answerYield, h]

theorem answerYield_some {r : ReplyTo} {s : State} (h : s.pair.yieldReq = some r) :
    answerYield s = answerLater 0x0F03 r stOk [] (s.modPair fun p => { p with yieldReq := none }) := by
  simp only [answerYield, h]

/-! PAIR_CHECKPOINT_NOW (R552) and the end of a yield's drain (R549). -/

theorem checkpointNowBody_ok {c : Ctx} {s : State} (h : s.pair.writingFull = false) :
    checkpointNowBody c [0] s = .deferred (
      let s1 := s.modPair fun p => { p with nowReqs := p.nowReqs ++ [c.replyTo s] }
      if s.writes true then askWrite true s1 else s1) :=
  (if_neg (by decide)).trans (if_neg (Bool.eq_false_iff.mp h))

/-- The state in which the last checkpoint of a yield is asked for: at once where nothing is left to acknowledge or no request asked
for the yield, 100 ms later otherwise. -/
theorem yieldDrained_eq (s : State) : (if s.drained || s.pair.yieldReq.isNone then s else atLc (s.pair.yieldAt + 100000000) s) =
    if s.drained = true ∨ s.pair.yieldReq = none then s else atLc (s.pair.yieldAt + 100000000) s :=
  if_congr (by rw [Bool.or_eq_true, Option.isNone_iff_eq_none]) rfl rfl

/-- Settles O23, from the lemmas of the write's rows, what follows a full checkpoint, and the pair commands. -/
theorem checkpointsAndYield : Obligations.CheckpointsAndYield := by
  unfold Obligations.CheckpointsAndYield
  refine ⟨fun s h => ⟨_, guardNext_pos h, rfl⟩, fun s h => ⟨_, guardNext_pos h, rfl⟩,
    fun full s => ⟨askWrite_busy, fun h hf => ?delta, fun h hf hd => ?placed, fun h hf hd => ?displaced⟩,
    fun c s h => ⟨execCheckpointWriteDone_written h, execCheckpointWriteDone_failed h⟩,
    fun s hserved htclk howns hstale => ⟨_, guardNext_pos (by rw [hserved, htclk, howns, hstale]; rfl), rfl⟩,
    fun p s s1 c h hacc hp => ?status, fun p s s1 c h hacc hp howns hfull => ?now, fun p s s1 c h hacc hp hmay => ?yield,
    fun s hstep hstopped => ⟨_, guardNext_pos (by rw [hstep, hstopped]; rfl), ?drained⟩,
    fun s h => ⟨afterFull_eq h, fun hnone => (afterFull_eq h).trans (answerYield_none hnone),
      fun r hr => (afterFull_eq h).trans (answerYield_some hr)⟩,
    fun s hstep => ⟨_, guardNext_pos (by rw [hstep]; rfl), rfl⟩⟩
  case delta => subst hf; exact askWrite_delta h
  case placed => subst hf; exact (askWrite_full h).trans (beginFull_placed hd)
  case displaced => subst hf; exact (askWrite_full h).trans (beginFull_displaced hd)
  case status =>
    exact serve_unbroken pairStatusSpec p s s1 c _ _ h hacc rfl (by rw [hp]; rfl) (by rw [hp]; rfl) s1.breaksLimits_self
  case now =>
    exact serve_deferred checkpointNowSpec p s s1 c _ h hacc (if_pos howns) (by rw [hp]; rfl) (by rw [hp]; exact checkpointNowBody_ok hfull)
  case yield =>
    exact serve_deferred pairYieldSpec p s s1 c _ h hacc (if_pos hmay) (by rw [hp]; rfl) (by rw [hp]; rfl)
  case drained =>
    rw [yieldDrained_eq]
    rfl

end Sys2Proof.Machine


namespace Sys2Proof.Machine

/-! ## The health commands -/

/-! MARGIN_PLAN (R571). -/

section
variable {c : Ctx} {w th li d : Word} {m : Fin 24} {s : State} (hm : bits w 4 0 = m.val) (hresv : resv w 31 8 = true)
  (hresv3 : resv d 31 16 = true)
include hm hresv hresv3

theorem marginPlanBody_read (hread : bit w 5 = false) : marginPlanBody c [w, th, li, d] s = .done stOk (marginReply m s) s := by
  simp [marginPlanBody, pw, finOf_val hm, hresv, hresv3, hread]

theorem marginPlanBody_set (hset : bit w 5 = true) (hmin : 1 ≤ bits d 15 0) (hmax : bits d 15 0 ≤ 3650)
    (hworse : thresholdWorse m th.toInt li.toInt = false) :
    let t := (modMargin m (fun x => { x with actEn := bit w 6, threshold := th.toInt, limit := li.toInt }) s).modHealth fun h =>
      { h with horizon := BitVec.ofNat 16 (bits d 15 0), vcoreFailed := h.vcoreFailed && !bit w 7 }
    marginPlanBody c [w, th, li, d] s = .done stOk (marginReply m t) t := by
  simp only [marginPlanBody, pw, List.getD_cons_zero, List.getD_cons_succ, finOf_val hm, hresv, hresv3, hset, hworse, Bool.not_true, Bool.or_self,
    Bool.false_eq_true, if_false]
  refine if_neg ?_
  simp only [Bool.or_false, Bool.or_eq_true, decide_eq_true_eq]
  omega

end

/-! CHAN_RETIRE and CHAN_RESTORE (R567). -/

theorem retireChannel_retired (ch : Chan) (byCmd : Bool) (s : State) : ((retireChannel ch byCmd s).chans[ch]).retired = true := by
  unfold retireChannel
  split
  · next h => exact h
  · simp [raiseIsolated]

theorem unitOk_channel {w : Word} {ch : Chan} (hlevel : bits w 1 0 = 0) (hindex : bits w 10 2 = ch.val) (hresv : resv w 31 11 = true) :
    unitOk w = true := by
  have hlt : ch.val < 384 := ch.isLt
  simp [unitOk, hlevel, hindex, hresv, hlt]

theorem chanRetireBody_ok {c : Ctx} {w : Word} {ch : Chan} {s : State} (hlevel : bits w 1 0 = 0) (hindex : bits w 10 2 = ch.val)
    (hresv : resv w 31 11 = true) :
    let t := retireChannel ch true (dropRestore 0 ch.val s)
    chanRetireBody c [w] s = .done stOk (unitReply w t) t := by
  have hch : chanAt (bits w 10 2) = some ch := finOf_val hindex
  simp only [chanRetireBody, pw, List.getD_cons_zero, hch, unitOk_channel hlevel hindex hresv, hlevel]
  rfl

theorem noCommonMode {l : List Chan} {s : State} (hcm : ∀ x ∈ l, (s.chans[x]).cm = 0) : ¬ (l.any fun x => (s.chans[x]).cm != 0) = true := by
  simp only [List.any_eq_true, not_exists, not_and]
  exact fun x hx hne => bne_iff_ne.mp hne (hcm x hx)

section
variable {w : Word} {s : State} (hunit : unitOk w = true) (hcm : ∀ x ∈ unitChans (bits w 1 0) (bits w 10 2), (s.chans[x]).cm = 0)
include hunit hcm

/-- No free value is asked for a unit that is no isolated den. -/
theorem restoreCheck_ok (hden : ¬ (bits w 1 0 = 2 ∧ (s.unitOut (bits w 1 0) (bits w 10 2)).2 = true)) : restoreCheck w s = (stOk, s) :=
  (if_neg (by rw [hunit]; decide)).trans ((if_neg (noCommonMode hcm)).trans (if_neg hden))

/-- Whether the cause of a den's isolation persists is free (R19, R567; log entry 2). -/
theorem restoreCheck_den (hden : bits w 1 0 = 2 ∧ (s.unitOut (bits w 1 0) (bits w 10 2)).2 = true) :
    restoreCheck w s = (if bit (Config.freeWord s.free) 0 then stBusy else stOk, s.drawWord.2) :=
  (if_neg (by rw [hunit]; decide)).trans ((if_neg (noCommonMode hcm)).trans (if_pos hden))

end

theorem chanRestoreBody_of {c : Ctx} {w : Word} {s t : State} (hcheck : restoreCheck w s = (stOk, t)) (hsafe : t.safetyUnit w = false) :
    chanRestoreBody c [w] s = .done stOk (restoreReply w t) (restoreApply w t) := by
  simp only [chanRestoreBody, pw, List.getD_cons_zero, hcheck, hsafe]
  rfl

theorem chanRestoreBody_busy {c : Ctx} {w : Word} {s t : State} (hcheck : restoreCheck w s = (stBusy, t)) :
    chanRestoreBody c [w] s = .done stBusy [] t := by
  simp only [chanRestoreBody, pw, List.getD_cons_zero, hcheck]
  rfl

theorem restore_in_service {w : Word} {s : State} (h : s.unitOut (bits w 1 0) (bits w 10 2) = (false, false)) :
    restoreReply w s = unitReply w s ∧ restoreApply w s = s := by
  simp [restoreReply, restoreApply, h]

/-- A unit that is out of service is restored at the next boundary (R567). -/
theorem restore_out {w : Word} {s : State}
    (h : ((s.unitOut (bits w 1 0) (bits w 10 2)).1 || (s.unitOut (bits w 1 0) (bits w 10 2)).2) = true) :
    restoreReply w s = [0] ∧ restoreApply w s = (dropRestore (bits w 1 0) (bits w 10 2) s).modHealth fun x =>
      { x with restores := x.restores ++ [(BitVec.ofNat 2 (bits w 1 0), bits w 10 2, s.nextBoundary)] } :=
  ⟨if_pos h, if_pos h⟩

theorem or_of_ne_false {o : Bool × Bool} (h : o ≠ (false, false)) : (o.1 || o.2) = true := by
  obtain ⟨a, b⟩ := o
  cases a <;> cases b <;> simp at h ⊢

/-! COUNTERS_READ and COUNTERS_CLEAR (R568, R569). -/

theorem countersReadBody_ok {c : Ctx} {w : Word} {s : State} (hresv : resv w 31 21 = true)
    (hin : bits w 15 0 % 32 + (bits w 20 16 + 1) ≤ (unitCounts s (bits w 15 0 / 4096) (bits w 15 0 / 32 % 128)).length) :
    let got := ((unitCounts s (bits w 15 0 / 4096) (bits w 15 0 / 32 % 128)).drop (bits w 15 0 % 32)).take (bits w 20 16 + 1)
    countersReadBody c [w] s = .done stOk (w32 (maskOf 32 fun i => (got[i.val]?.map (·.sat)).getD false) :: got.flatMap countWords) s := by
  refine if_neg ?_
  simp only [pw, List.getD_cons_zero, hresv, Bool.not_true, Bool.false_or, decide_eq_true_eq]
  exact Nat.not_lt.mpr hin

theorem countersClearBody_all {c : Ctx} {w : Word} {s : State} (hresv : resv w 31 13 = true) (hall : bit w 12 = true) :
    countersClearBody c [w] s = .done stOk [] (forEach (List.range 16) clearUnitAll s) := by
  simp [countersClearBody, pw, hresv, hall]

theorem countersClearBody_unit {c : Ctx} {w : Word} {s : State} (hresv : resv w 31 13 = true) (hone : bit w 12 = false)
    (hunit : bit w 11 = true) (hsize : unitSize (bits w 3 0) ≠ 0) :
    countersClearBody c [w] s = .done stOk [] (clearUnitAll s (bits w 3 0)) := by
  simp [countersClearBody, pw, hresv, hone, hunit, hsize]

theorem countersClearBody_instance {c : Ctx} {w : Word} {s : State} (hresv : resv w 31 13 = true) (hone : bit w 12 = false)
    (hunit : bit w 11 = false) (hsize : bits w 10 4 < unitSize (bits w 3 0)) :
    countersClearBody c [w] s = .done stOk [] (clearCounts s (bits w 3 0) (bits w 10 4)) := by
  have hsome : unitSize (bits w 3 0) ≠ 0 := Nat.ne_zero_of_lt hsize
  simp [countersClearBody, pw, hresv, hone, hunit, hsome, hsize]

/-- Settles O38, from the bodies of the health commands. -/
theorem healthCommands : Obligations.HealthCommands := by
  unfold Obligations.HealthCommands
  refine ⟨fun p s s1 c h hp hacc => ?report,
    fun p s s1 c w th li d m h hp hm hresv hresv3 => ⟨fun hread hacc => ?marginRead, fun hset hacc hmode hmin hmax hworse hlim => ?marginSet⟩,
    fun p s s1 c w ch h hp hacc hlevel hindex hresv hlim => ⟨?retire, retireChannel_retired ch true _⟩,
    ?restore,
    fun p s s1 c w h hp hacc hresv hin => ?read,
    fun p s s1 c w h hp hacc hresv => ⟨fun hall hlim => ?all, fun hone hunit hsize hlim => ?unit, fun hone hunit hsize hlim => ?one⟩⟩
  case report =>
    exact serve_unbroken healthReportSpec p s s1 c _ _ h hacc rfl (by rw [hp]; rfl) (by rw [hp]; rfl) s1.breaksLimits_self
  case marginRead =>
    exact serve_unbroken marginPlanSpec p s s1 c _ _ h (by simp [marginPlanSpec, hp, pw, hread, hacc]) (by simp [marginPlanSpec, hp, pw, hread])
      (by rw [hp]; rfl) (by rw [hp]; exact marginPlanBody_read (c := c) hm hresv hresv3 hread) s1.breaksLimits_self
  case marginSet =>
    exact serve_unbroken marginPlanSpec p s s1 c _ _ h (by simp [marginPlanSpec, hp, pw, hset, hacc])
      (by simp [marginPlanSpec, hp, pw, hset, modeField_of hresv hmode]) (by rw [hp]; rfl)
      (by rw [hp]; exact marginPlanBody_set (c := c) hm hresv hresv3 hset hmin hmax hworse) hlim
  case retire =>
    exact serve_unbroken chanRetireSpec p s s1 c _ _ h hacc rfl (by rw [hp]; rfl) (by rw [hp]; exact chanRetireBody_ok (c := c) hlevel hindex hresv) hlim
  case restore =>
    intro p s s1 c w h hp hacc hmode hunit hsafe hcm o due
    have haccess : chanRestoreSpec.access c p.params s1 = true := by simp [chanRestoreSpec, hp, pw, hsafe, hacc]
    have hlen : chanRestoreSpec.length p.params = true := by rw [hp]; rfl
    have hdone : ∀ (ws : List Word) (t : State), chanRestoreBody c [w] s1 = .done stOk ws t → s1.breaksLimits t = false →
        exec (.chanRestore p) s = replied 0x1003 p s1 stOk ws t :=
      fun ws t hbody => serve_unbroken chanRestoreSpec p s s1 c ws t h haccess (if_pos hmode) hlen (by rw [hp]; exact hbody)
    refine ⟨fun ho => ?_, fun ho hlevel hlim => ?_, fun ho hlevel => ⟨fun hbusy => ?_, fun hfree hlim => ?_⟩⟩
    · obtain ⟨hreply, happly⟩ := restore_in_service ho
      have hden : ¬ (bits w 1 0 = 2 ∧ (s1.unitOut (bits w 1 0) (bits w 10 2)).2 = true) := fun hd => absurd ((congrArg Prod.snd ho).symm.trans hd.2) Bool.false_ne_true
      have hbody := chanRestoreBody_of (c := c) (restoreCheck_ok hunit hcm hden) hsafe
      rw [hreply, happly] at hbody
      exact hdone _ _ hbody s1.breaksLimits_self
    · obtain ⟨hreply, happly⟩ := restore_out (or_of_ne_false ho)
      have hbody := chanRestoreBody_of (c := c) (restoreCheck_ok hunit hcm fun hd => hlevel hd.1) hsafe
      rw [hreply, happly] at hbody
      exact hdone _ _ hbody hlim
    · have hbody := restoreCheck_den hunit hcm ⟨hlevel, ho⟩
      rw [if_pos hbusy] at hbody
      exact serve_done chanRestoreSpec p s s1 c stBusy _ _ h haccess (if_pos hmode) hlen (by rw [hp]; exact chanRestoreBody_busy (c := c) hbody) rfl
    · have hcheck := restoreCheck_den hunit hcm ⟨hlevel, ho⟩
      rw [if_neg (Bool.eq_false_iff.mp hfree)] at hcheck
      obtain ⟨hreply, happly⟩ := restore_out (w := w) (s := s1.drawWord.2) (Bool.or_eq_true_iff.mpr (Or.inr ho))
      have hbody := chanRestoreBody_of (c := c) hcheck hsafe
      rw [hreply, happly] at hbody
      exact hdone _ _ hbody hlim
  case read =>
    exact serve_unbroken countersReadSpec p s s1 c _ _ h hacc rfl (by rw [hp]; rfl) (by rw [hp]; exact countersReadBody_ok (c := c) hresv hin)
      s1.breaksLimits_self
  case all =>
    exact serve_unbroken countersClearSpec p s s1 c _ _ h hacc rfl (by rw [hp]; rfl) (by rw [hp]; exact countersClearBody_all (c := c) hresv hall) hlim
  case unit =>
    exact serve_unbroken countersClearSpec p s s1 c _ _ h hacc rfl (by rw [hp]; rfl)
      (by rw [hp]; exact countersClearBody_unit (c := c) hresv hone hunit hsize) hlim
  case one =>
    exact serve_unbroken countersClearSpec p s s1 c _ _ h hacc rfl (by rw [hp]; rfl)
      (by rw [hp]; exact countersClearBody_instance (c := c) hresv hone hunit hsize) hlim

end Sys2Proof.Machine
